-- ==== Sys2Proof/Word.lean ====
section
/-! DEFINITION. The word types of the Dalaux and their names. -/
namespace Sys2Proof

/-- A byte of memory (R17). -/
abbrev Byte := BitVec 8

/-- An element of a vector register (R97). -/
abbrev Word := BitVec 32

/-- A 64-bit word: an instruction word, a clause header, an address, a weight (R51, R62). -/
abbrev Word64 := BitVec 64

/-- The number of a vector register v0 to v127 (R97). -/
abbrev Reg := BitVec 7

/-- The number of a predicate register p0 to p7 (R104). -/
abbrev Pred := BitVec 3

/-- A set of threads of a group, bit t for thread t (R105). -/
abbrev Mask := BitVec 32

end Sys2Proof
end

