-- ==== Sys2Proof/Syntax.lean ====
section
/-! DEFINITION. The syntax of the Dalaux: every row of spec/opcode_table.json as one constructor of `Instr`. The first 133
are the instructions of R67; the other 76 are the steps of the device's agents, whose operands name the agent and the choices the
spec leaves to timing or to the environment. -/
namespace Sys2Proof

/-- The guard of an instruction word: predicate [54:52] and gneg [51] (R62). -/
structure Guard where
  p : Pred
  neg : Bool
deriving DecidableEq, Repr

/-- The rnd field: fmt.round or a mode of its own (R141). -/
inductive Rnd where
  | fmt | rne | rtz | rup | rdn | rna
deriving DecidableEq, Repr

/-- The condition of ISETP (R116). -/
inductive Cond where
  | eq | ne | lt | le | gt | ge
deriving DecidableEq, Repr

/-- How ISETP and FSETP combine with the predicate in s3 (R116). -/
inductive Comb where
  | none | and | or | xor
deriving DecidableEq, Repr

/-- The condition of FSETP (R148). -/
inductive FCond where
  | eq | ne | lt | le | gt | ge | num | nan
deriving DecidableEq, Repr

/-- The mode of VOTE (R119). -/
inductive VoteMode where
  | ballot | any | all | eq
deriving DecidableEq, Repr

/-- The mode of SHFL (R120). -/
inductive ShflMode where
  | idx | up | down | xor
deriving DecidableEq, Repr

/-- The operation of REDG (R121). -/
inductive RedgOp where
  | iadd | imin | imax | umin | umax | and | or | xor | fadd | fmin | fmax
deriving DecidableEq, Repr

/-- The ten element formats in the code of R153. -/
inductive Elem where
  | f32 | f16 | bf16 | e4m3 | e5m2 | i32 | i16 | i8 | i4 | t2
deriving DecidableEq, Repr

/-- The type of HADD2, HMUL2 and HFMA2 (R152). -/
inductive HType where
  | bf16x2 | f16x2
deriving DecidableEq, Repr

/-- The access size of LDG, STG, LDL, STL, RLD and RST (R161). -/
inductive Size where
  | b8 | b16 | b32 | b64 | b128
deriving DecidableEq, Repr

/-- The operations of ATOMG, ATOML, RED, RATOM and RRED in the code of R175. -/
inductive AOp where
  | addU32 | addU64 | minS32 | maxS32 | minU32 | maxU32 | minS64 | maxS64 | minU64 | maxU64 | and32 | or32 | xor32 | and64 | or64 | xor64 | exch32 | exch64 | cas32 | cas64 | addF32 | addBf16x2 | addF16x2 | minF32 | maxF32
deriving DecidableEq, Repr

/-- The scope of FENCE (R180). -/
inductive Scope where
  | core | die | pkg | pod
deriving DecidableEq, Repr

/-- The mode of PSTAT (R291, R296). -/
inductive PMode where
  | free | ready | rfree | sfree | tlo | thi | hlo | hhi | seq | wlo | whi
deriving DecidableEq, Repr

/-- The special registers MOVS reads (R106). -/
inductive Sreg where
  | tid | gid | cx | cy | lane | stage | round | pkg | name
deriving DecidableEq, Repr

/-- The control registers CSRR reads (R107). -/
inductive Creg where
  | fmt | flg | lmask | chklim | stk | rsdepth | amask
deriving DecidableEq, Repr

/-- The control registers CSRW writes (R107). -/
inductive WCreg where
  | flg | chklim | stk
deriving DecidableEq, Repr

/-- The operation of CSRW (R136). -/
inductive CsrOp where
  | write | set | clear
deriving DecidableEq, Repr

/-- The word of a pool entry LDK reads (R174). -/
inductive Wn where
  | w0 | w1 | w2 | w3
deriving DecidableEq, Repr

/-- A host register that has no behaviour of its own beyond storing its writable fields (R14, R341, R478). -/
inductive HostReg where
  | qbase (page : Nat) | mcmd | wbase
deriving DecidableEq, Repr

/-- The structures of R485, in the order of its rows. -/
inductive Struct where
  | dram | l2 | l1 | icache | regfile | local | acc | header | tables
deriving DecidableEq, Repr

/-- What a packet carries in its body (R365, R467). The spec lays out the header of a packet and not its body (log 8). -/
inductive Body where
  | rld (grp load thr va size : Nat)
  | rst (va : Nat) (bytes : List Byte) (grp pc thrs : Nat)
  | ratom (grp load thr va : Nat) (op : AOp) (x y : Word64) (fmt : Word) (pc : Nat)
  | rred (va : Nat) (op : AOp) (x : Word64) (fmt : Word) (grp pc thrs : Nat)
  | response (grp load thr va : Nat) (bytes : List Byte) (bad : Bool)
  | failed (grp load thrs cause pc va : Nat)
  | ack (seq : Nat)
  | denial (seq : Nat)
  | regput (name : Word64) (vt tag : Nat) (words : List Word) (sender grp : Nat)
  | denAck (sender outcome : Nat)
  | denRefuse (sender : Nat)
  | watch (name : Word64) (grp reg : Nat) (on : Bool)
  | poison (name : Word64) (grp reg cause : Nat)
  | linkReq (lkey op who slot : Nat)
  | linkResp (lkey op who : Nat) (val : List Nat)
  | linkData (lkey slot off piece : Nat) (bytes : List Byte)
deriving DecidableEq, Repr

/-- A fabric packet: the fields of R466 and its body. `hdrErr` is what the header check finds: 0 intact, 1 one bit in error,
2 uncorrectable (R468). `ictx` is the issuing context, which the body carries for the answers (log 8). -/
structure Packet where
  hdrErr : Nat
  kind : Nat
  src : Nat
  dst : Nat
  tenant : Nat
  ctx : Nat
  vc : Nat
  seq : Nat
  blen : Nat
  body : Body
  ictx : Nat := 0
deriving DecidableEq, Repr

/-- Where a launch places the four allocations of a pipe (R305): the addresses of the resident tiles, the spill ring and the two header arrays in
the context's memory. The spec leaves the choice to the launch. -/
structure PipePlace where
  tileVa : Nat
  ringVa : Nat
  thdrVa : Nat
  rhdrVa : Nat
deriving DecidableEq, Repr

/-- A writable field set of the context control block (R405). -/
structure Ccb where
  rring : Nat
  rlog : Nat
  spool : Nat
  spsz : Nat
  wdog : Nat
  hdl : Nat
  tvec : Nat
  bkpt : Bool
  tlate : Bool
  ten : Bool
deriving DecidableEq, Repr

/-- A window of a peer package's context (R362). -/
structure Window where
  base : Nat
  len : Nat
  rd : Bool
  wr : Bool
deriving DecidableEq, Repr

/-- The instructions and steps of the Dalaux: one constructor per row of spec/opcode_table.json. -/
inductive Instr where
  /-- R112. Adds two registers per active thread, wrapping modulo 2^32 (opcode 0x000, format A). -/
  | iaddA (g : Guard) (d a b : Reg) (fit : Bool)
  /-- R112. Adds a register and a 32-bit immediate per active thread (opcode 0x001, format I). -/
  | iaddI (g : Guard) (d a : Reg) (imm : Word) (fit : Bool)
  /-- R112. Subtracts b from a per active thread. -/
  | isub (g : Guard) (d a b : Reg) (fit : Bool)
  /-- R112. Writes the low 32 bits of a times a register (opcode 0x003). -/
  | imulA (g : Guard) (d a b : Reg) (fit : Bool)
  /-- R112. Writes the low 32 bits of a times an immediate (opcode 0x004). -/
  | imulI (g : Guard) (d a : Reg) (imm : Word) (fit : Bool)
  /-- R112. Writes the high 32 bits of the 64-bit product, signed or unsigned with .u. -/
  | imulh (g : Guard) (d a b : Reg) (u fit : Bool)
  /-- R112. Writes the low 32 bits of a times b plus c. -/
  | imad (g : Guard) (d a b c : Reg) (fit : Bool)
  /-- R113. Integer division truncated towards zero, with fixed results for division by zero and overflow and no fault. -/
  | idiv (g : Guard) (d a b : Reg) (u fit : Bool)
  /-- R113. Integer remainder with the sign of a, with fixed results for division by zero and no fault. -/
  | irem (g : Guard) (d a b : Reg) (u fit : Bool)
  /-- R112. Writes the smaller of a and b, signed or unsigned. -/
  | imin (g : Guard) (d a b : Reg) (u fit : Bool)
  /-- R112. Writes the larger of a and b, signed or unsigned. -/
  | imax (g : Guard) (d a b : Reg) (u fit : Bool)
  /-- R112. Writes the absolute value of a, wrapping for the most negative value. -/
  | iabs (g : Guard) (d a : Reg) (fit : Bool)
  /-- R112. Writes 0 minus a. -/
  | ineg (g : Guard) (d a : Reg) (fit : Bool)
  /-- R112. Bitwise AND of two registers (opcode 0x010). -/
  | andA (g : Guard) (d a b : Reg) (fit : Bool)
  /-- R112. Bitwise AND of a register and an immediate (opcode 0x011). -/
  | andI (g : Guard) (d a : Reg) (imm : Word) (fit : Bool)
  /-- R112. Bitwise OR of two registers (opcode 0x012). -/
  | orA (g : Guard) (d a b : Reg) (fit : Bool)
  /-- R112. Bitwise OR of a register and an immediate (opcode 0x013). -/
  | orI (g : Guard) (d a : Reg) (imm : Word) (fit : Bool)
  /-- R112. Bitwise XOR of two registers (opcode 0x014). -/
  | xorA (g : Guard) (d a b : Reg) (fit : Bool)
  /-- R112. Bitwise XOR of a register and an immediate (opcode 0x015). -/
  | xorI (g : Guard) (d a : Reg) (imm : Word) (fit : Bool)
  /-- R112. Writes the bitwise complement of a. -/
  | not (g : Guard) (d a : Reg) (fit : Bool)
  /-- R112. Writes the number of one bits of a. -/
  | popc (g : Guard) (d a : Reg) (fit : Bool)
  /-- R112. Writes the number of leading zeros of a. -/
  | clz (g : Guard) (d a : Reg) (fit : Bool)
  /-- R112. Reverses the bit order of a. -/
  | brev (g : Guard) (d a : Reg) (fit : Bool)
  /-- R114. Shifts left by a register count (opcode 0x017). -/
  | shlA (g : Guard) (d a b : Reg) (fit : Bool)
  /-- R114. Shifts left by an immediate count (opcode 0x018). -/
  | shlI (g : Guard) (d a : Reg) (imm : Word) (fit : Bool)
  /-- R114. Shifts right with zero fill by a register count (opcode 0x019). -/
  | shrA (g : Guard) (d a b : Reg) (fit : Bool)
  /-- R114. Shifts right with zero fill by an immediate count (opcode 0x01A). -/
  | shrI (g : Guard) (d a : Reg) (imm : Word) (fit : Bool)
  /-- R114. Shifts right with sign fill by a register count (opcode 0x01B). -/
  | sarA (g : Guard) (d a b : Reg) (fit : Bool)
  /-- R114. Shifts right with sign fill by an immediate count (opcode 0x01C). -/
  | sarI (g : Guard) (d a : Reg) (imm : Word) (fit : Bool)
  /-- R114. Extracts a bit field to bit 0, zero- or sign-extended. -/
  | bfx (g : Guard) (d a f : Reg) (sgn fit : Bool)
  /-- R114. Inserts the low bits of a into a field of b. -/
  | bfi (g : Guard) (d a b f : Reg) (fit : Bool)
  /-- R115. Forms a 64-bit address from a register pair plus a shifted index into a destination pair. -/
  | lea (g : Guard) (d a b : Reg) (n : BitVec 5) (u fit : Bool)
  /-- R116. Compares two registers and writes a predicate, optionally combined with another predicate (opcode 0x028). -/
  | isetpA (g : Guard) (p : Pred) (a b : Reg) (c : Cond) (u : Bool) (k : Comb) (q : Pred)
  /-- R116. Compares a register with an immediate and writes a predicate (opcode 0x029). -/
  | isetpI (g : Guard) (p : Pred) (a : Reg) (imm : Word) (c : Cond) (u : Bool)
  /-- R117. Selects a or b per thread by a predicate. -/
  | sel (g : Guard) (d a b : Reg) (p : Pred) (n fit : Bool)
  /-- R117. Copies a register under the destination's shape tag. -/
  | mov (g : Guard) (d a : Reg) (fit : Bool)
  /-- R117. Writes a 32-bit immediate. -/
  | movi (g : Guard) (d : Reg) (imm : Word) (fit : Bool)
  /-- R106. Reads a special register such as sr.tid, sr.cx or sr.round into a vector register. -/
  | movs (g : Guard) (d : Reg) (r : Sreg) (fit : Bool)
  /-- R118. ANDs two predicates for the active threads. -/
  | pand (g : Guard) (d a b : Pred)
  /-- R118. ORs two predicates for the active threads. -/
  | por (g : Guard) (d a b : Pred)
  /-- R118. XORs two predicates for the active threads. -/
  | pxor (g : Guard) (d a b : Pred)
  /-- R118. Writes the complement of a predicate. -/
  | pnot (g : Guard) (d a : Pred)
  /-- R119. Ballot, any, all or eq vote of a predicate over the active threads. -/
  | vote (g : Guard) (d : Reg) (p : Pred) (m : VoteMode) (n fit : Bool)
  /-- R120. Gives each thread an element of another thread by idx, up, down or xor mode. -/
  | shfl (g : Guard) (d a b : Reg) (m : ShflMode) (fit : Bool)
  /-- R121. Reduces or scans a register over the active threads in ascending thread order. -/
  | redg (g : Guard) (d a : Reg) (op : RedgOp) (scan fit : Bool)
  /-- R145. Binary32 addition of two registers with one rounding (opcode 0x040). -/
  | faddA (g : Guard) (d a b : Reg) (r : Rnd) (fit : Bool)
  /-- R145. Binary32 addition of a register and an immediate (opcode 0x041). -/
  | faddI (g : Guard) (d a : Reg) (imm : Word) (r : Rnd) (fit : Bool)
  /-- R145. Binary32 subtraction with one rounding. -/
  | fsub (g : Guard) (d a b : Reg) (r : Rnd) (fit : Bool)
  /-- R145. Binary32 multiplication of two registers (opcode 0x043). -/
  | fmulA (g : Guard) (d a b : Reg) (r : Rnd) (fit : Bool)
  /-- R145. Binary32 multiplication by an immediate (opcode 0x044). -/
  | fmulI (g : Guard) (d a : Reg) (imm : Word) (r : Rnd) (fit : Bool)
  /-- R145. Fused multiply-add with one rounding. -/
  | ffma (g : Guard) (d a b c : Reg) (r : Rnd) (fit : Bool)
  /-- R147. Returns the smaller operand, with rules for NaNs and signed zeros. -/
  | fmin (g : Guard) (d a b : Reg) (fit : Bool)
  /-- R147. Returns the larger operand, with rules for NaNs and signed zeros. -/
  | fmax (g : Guard) (d a b : Reg) (fit : Bool)
  /-- R148. Floating-point comparison of two registers into a predicate (opcode 0x048). -/
  | fsetpA (g : Guard) (p : Pred) (a b : Reg) (c : FCond) (k : Comb) (q : Pred)
  /-- R148. Floating-point comparison with an immediate into a predicate (opcode 0x049). -/
  | fsetpI (g : Guard) (p : Pred) (a : Reg) (imm : Word) (c : FCond)
  /-- R150. Correctly rounded reciprocal. -/
  | frcp (g : Guard) (d a : Reg) (r : Rnd) (fit : Bool)
  /-- R150. Correctly rounded reciprocal square root. -/
  | frsq (g : Guard) (d a : Reg) (r : Rnd) (fit : Bool)
  /-- R150. Correctly rounded 2 to the power a. -/
  | fexp2 (g : Guard) (d a : Reg) (r : Rnd) (fit : Bool)
  /-- R150. Correctly rounded base-2 logarithm. -/
  | flog2 (g : Guard) (d a : Reg) (r : Rnd) (fit : Bool)
  /-- R155. Converts one part of an element between floating-point formats into one part of the destination. -/
  | fcvt (g : Guard) (d a : Reg) (dst src : Elem) (outp inp : BitVec 4) (r : Rnd) (fit : Bool)
  /-- R155. Converts one part of an element between formats where at least one format is an integer format. -/
  | icvt (g : Guard) (d a : Reg) (dst src : Elem) (outp inp : BitVec 4) (r : Rnd) (fit : Bool)
  /-- R157. Quantises a 128-channel row to fmt.afmt, splitting outliers into spare channels and updating the duplication map. -/
  | qcvt (g : Guard) (d a b c : Reg) (upd : Bool) (r : Rnd) (fit : Bool)
  /-- R152. Packed BF16 or FP16 addition per half. -/
  | hadd2 (g : Guard) (d a b : Reg) (ty : HType) (r : Rnd) (fit : Bool)
  /-- R152. Packed BF16 or FP16 multiplication per half. -/
  | hmul2 (g : Guard) (d a b : Reg) (ty : HType) (r : Rnd) (fit : Bool)
  /-- R152. Packed fused multiply-add per half with one rounding. -/
  | hfma2 (g : Guard) (d a b c : Reg) (ty : HType) (r : Rnd) (fit : Bool)
  /-- R161. Loads from global memory into a register, within the open chunk or bypassing it on streaming pages. -/
  | ldg (g : Guard) (d n : Reg) (off : BitVec 24) (sz : Size) (sgn ev fit : Bool)
  /-- R161. Stores to global memory as a SpecDirty line of the open chunk, or as a held streaming store. -/
  | stg (g : Guard) (d n : Reg) (off : BitVec 24) (sz : Size)
  /-- R161. Loads from the core's local memory, switching off threads that breach the local rules. -/
  | ldl (g : Guard) (d n : Reg) (off : BitVec 24) (sz : Size) (sgn fit : Bool)
  /-- R161. Stores to local memory in place, with an undo log entry in the open chunk. -/
  | stl (g : Guard) (d n : Reg) (off : BitVec 24) (sz : Size)
  /-- R174. Reads one 32-bit word of a pool entry into a uniform register. -/
  | ldk (g : Guard) (d : Reg) (idx : BitVec 20) (h : Option Reg) (wn : Wn) (fit : Bool)
  /-- R177. Irrevocable global atomic performed per thread at the home slice, returning old values. -/
  | atomg (g : Guard) (d n x : Reg) (off : BitVec 24) (op : AOp) (fit : Bool)
  /-- R178. Irrevocable atomic on local memory at its bank, in ascending thread order. -/
  | atoml (g : Guard) (d n x : Reg) (off : BitVec 24) (op : AOp) (fit : Bool)
  /-- R179. Merges reduction operands in the lane and holds them in the open chunk until commit releases them. -/
  | red (g : Guard) (n x : Reg) (off : BitVec 24) (op : AOp)
  /-- R180. Closes the chunk, waits for its commit, for outstanding loads and for acknowledgements at the chosen scope. -/
  | fence (g : Guard) (sc : Scope)
  /-- R184. Closes the group's open chunk. -/
  | chunk (g : Guard)
  /-- R185. Writes the chunk status word with squash count, instruction count and effective limit. -/
  | chkst (g : Guard) (d : Reg) (fit : Bool)
  /-- R186. Prefetches a line into the L2 and optionally the L1. -/
  | pfg (g : Guard) (n : Reg) (off : BitVec 24) (l2 : Bool)
  /-- R186. Writes a dirty L2 line back to its backing memory. -/
  | cwb (g : Guard) (n : Reg) (off : BitVec 24)
  /-- R186. Removes a line from the L1, and with .l2 writes it back and removes it from the L2. -/
  | cinv (g : Guard) (n : Reg) (off : BitVec 24) (l2 : Bool)
  /-- R182. Closes the chunk, registers a watch on a line at its home slice and parks the group. -/
  | mwait (g : Guard) (n : Reg) (off : BitVec 24) (vc : Option Reg)
  /-- R254. Enqueues a load of the shadow stationary plane from local memory. -/
  | mldp (g : Guard) (vb : Reg)
  /-- R255. Enqueues a swap of the live and shadow planes. -/
  | mswap (g : Guard)
  /-- R256. Enqueues a stream of A rows against the live plane into an accumulator region, with optional zero-block bitmap. -/
  | mstr (g : Guard) (vn va vg : Reg) (vz : Option Reg)
  /-- R258. Enqueues a pair-mode stream shared by two adjacent cores. -/
  | mstrp (g : Guard) (vn va vg : Reg) (vz : Option Reg)
  /-- R262. Enqueues a drain of an accumulator region through the epilogue to local memory or a pipe slot. -/
  | mdrn (g : Guard) (vd vg vx vs : Reg) (out : Elem) (relu clr bias bar pipe : Bool)
  /-- R261. Enqueues zeroing of an accumulator region. -/
  | mzero (g : Guard) (vg : Reg)
  /-- R253. Enqueues a copy of the duplication map into the matrix engine. -/
  | mdup (g : Guard) (vm : Reg)
  /-- R280. Producer group hands a request record index to the request engine's kick queue. -/
  | kick (g : Guard) (idx : BitVec 20) (h : Option Reg)
  /-- R279. Initialises a transaction barrier to phase 0 with n expected arrivals. -/
  | binit (g : Guard) (vb vn : Reg)
  /-- R279. Counts arrivals and optionally announces sectors on a barrier, then advances it. -/
  | arrive (g : Guard) (vb : Reg) (vn vs : Option Reg)
  /-- R279. Announces expected sectors on a barrier, then advances it. -/
  | bexp (g : Guard) (vb vs : Reg)
  /-- R279. Reads a barrier's phase, arrivals and error bits, or its sector count. -/
  | btest (g : Guard) (vd vb : Reg) (sec fit : Bool)
  /-- R279. Suspends the group while the barrier's phase equals the given phase. -/
  | bwait (g : Guard) (vb vp : Reg)
  /-- R287. Reserves a free pipe slot for the crew, suspending if none is free, or returns the closed token. -/
  | prsv (g : Guard) (vd : Reg) (idx : BitVec 20) (h : Option Reg) (fit : Bool)
  /-- R287. Takes the committed slot with the lowest sequence number, suspending if none is ready, or returns the closed token. -/
  | ctak (g : Guard) (vd : Reg) (idx : BitVec 20) (h : Option Reg) (fit : Bool)
  /-- R288. Moves a weight share into a reserved slot and posts its commit to the home slice. -/
  | pcmt (g : Guard) (vt : Reg)
  /-- R289. Posts the release of a taken slot to the home slice. -/
  | crel (g : Guard) (vt : Reg)
  /-- R291. Reads a pipe counter, slot address, sequence number or the crew's weight from the home slice. -/
  | pstat (g : Guard) (vd : Reg) (m : PMode) (idx : BitVec 20) (h : Option Reg) (fit : Bool)
  /-- R294. Enters a child plan launch into the core's pending-launch queue, suspending while it is full. -/
  | launch (g : Guard) (idx : BitVec 20) (h : Option Reg)
  /-- R135. Writes fmt from a uniform register, faulting on reserved values. -/
  | setfmt (g : Guard) (a : Reg)
  /-- R135. Writes fmt to a register. -/
  | getfmt (g : Guard) (d : Reg) (fit : Bool)
  /-- R136. Reads a control register such as flg, lmask, chklim, stk or rsdepth. -/
  | csrr (g : Guard) (d : Reg) (n : Creg) (fit : Bool)
  /-- R136. Writes, sets or clears bits of a writable control register. -/
  | csrw (g : Guard) (n : WCreg) (a : Reg) (op : CsrOp)
  /-- R355. Writes the group's name, or the null name, to a register pair. -/
  | gname (g : Guard) (d : Reg) (fit : Bool)
  /-- R357. Arms a hold on a register, clearing landed, and optionally registers a watch on the expected producer. -/
  | arm (g : Guard) (vr : Reg) (vn : Option Reg)
  /-- R357. Arms a hold only if no delivery has already landed in the register. -/
  | armif (g : Guard) (vr : Reg) (vn : Option Reg)
  /-- R360. Commits the chunk and sends a whole register to a register of the named group through its Den. -/
  | regput (g : Guard) (vt vn vs : Reg)
  /-- R359. Reports the hold bits and poison cause of a register, or the held-register summary. -/
  | holdq (g : Guard) (d : Reg) (vr : Option Reg) (fit : Bool)
  /-- R365. Remote load through a peer window, replayed per distinct peer. -/
  | rld (g : Guard) (d vp vo : Reg) (sz : Size) (sgn fit : Bool)
  /-- R365. Remote store through a peer window, replayed per distinct peer. -/
  | rst (g : Guard) (d vp vo : Reg) (sz : Size)
  /-- R365. Remote atomic returning old values. -/
  | ratom (g : Guard) (d vp vo vx : Reg) (op : AOp) (fit : Bool)
  /-- R365. Remote reduction merged per peer and released at issue. -/
  | rred (g : Guard) (vp vo vx : Reg) (op : AOp)
  /-- R370. Waits for matrix commands and delivery acknowledgements, then traps if enabled flags are set. -/
  | tfence (g : Guard)
  /-- R372. Pre-emption point: with a save pending, commits and parks the group under a liveness record. -/
  | phint (g : Guard) (idx : BitVec 20) (h : Option Reg)
  /-- R374. Reads half of a performance counter or the package timestamp. -/
  | pmcr (g : Guard) (d : Reg) (code : Word) (hi fit : Bool)
  /-- R376. Attaches a recipe to a target tile, referencing its sources, or refuses it beyond depth 4. -/
  | rcpdef (g : Guard) (d vh vb : Reg) (idx : BitVec 20) (fit : Bool)
  /-- R377. Seals a tile with an attached recipe, making it immutable and droppable. -/
  | rseal (g : Guard) (vt : Reg)
  /-- R378. Drops the lines of a sealed, unpinned tile without write-back. -/
  | rdrop (g : Guard) (vt : Reg)
  /-- R379. Raises a tile's pin count and pins its lines, waiting for recomputation if dropped. -/
  | rpin (g : Guard) (vt vz : Reg)
  /-- R379. Lowers a tile's pin count and releases any refusal pin. -/
  | runpin (g : Guard) (vt vz : Reg)
  /-- R127. Branches the guarded threads, pushing a LOOP entry for the rest when they split. -/
  | bra (g : Guard) (off : Word)
  /-- R128. Divergent branch pushing a reconvergence entry and a pending entry. -/
  | brd (g : Guard) (off : Word)
  /-- R129. Pops a DIV entry to run a pending path or reconverge. -/
  | join
  /-- R130. Decrements a count per thread and branches the threads whose count is non-zero. -/
  | loop (g : Guard) (va : Reg) (off : Word) (fit : Bool)
  /-- R131. Pushes a CALL entry and sends the guarded threads to the target. -/
  | call (g : Guard) (off : Word)
  /-- R132. Returns the active threads through the topmost CALL entry. -/
  | ret (g : Guard)
  /-- R133. Ends the active threads; the group's last chunk closes when none remain. -/
  | exit (g : Guard)
  /-- R134. Has no effect. -/
  | nop (g : Guard)
  /-- R134. Ends its clause and gives up the lane. -/
  | yield (g : Guard)
  /-- R367. Pushes a TRAP entry and enters the trap vector with a software cause. -/
  | trap (g : Guard) (imm : Word)
  /-- R368. Pops a TRAP entry and resumes at its target. -/
  | rett
  /-- R369. Takes a breakpoint trap when the context's breakpoint enable is set. -/
  | bkpt (g : Guard) (imm : Word)
  /-- R373. Suspends the group for at least the given time, optionally ending early on a delivery. -/
  | sleep (g : Guard) (imm : Word) (dlv : Bool)
  /-- R204. At a clause boundary the lane selects the next Ready group by level and wait count and issues its clause. -/
  | issueSelect (core lane : Nat)
  /-- R163. A load's data returns and is written to its destination under the shape check, or discarded. -/
  | loadComplete (grp idx : Nat)
  /-- R449. Beacon grants a closed chunk, invalidates sharers, broadcasts its write signature, writes its bytes and releases held stores. -/
  | chunkCommit (grp : Nat)
  /-- R457. A released streaming store is applied at its home slice and fires watches on the line. -/
  | streamStoreApply (k : Nat)
  /-- R191. A released reduction operand is applied at its home slice as an atomic operation per half. -/
  | reductionApply (k half : Nat)
  /-- R183. A parked group resumes on a write to its watched line, a lost watch or no cause. -/
  | mwaitResume (grp : Nat)
  /-- R373. The sleep time of a suspended group expires and it resumes at the next clause. -/
  | sleepExpire (grp : Nat)
  /-- R239. A page walk completes, filling the TLBs or faulting every access that waited on it. -/
  | pageWalkComplete (k : Nat)
  /-- R229. An L2 line is evicted: written back, dropped as part of a sealed tile, or discarded. -/
  | l2Evict (line : Nat)
  /-- R266. The matrix queue's head command dispatches to its unit when the unit and its condition allow. -/
  | matrixDispatch (core : Nat)
  /-- R248. A matrix command completes, setting the issuing group's flags and arriving on its barrier with .bar. -/
  | matrixComplete (core k : Nat)
  /-- R260. Pair-mode commands that differ or lack a partner are discarded unrun and reported as late matrix faults. -/
  | mstrpPairDiscard (core : Nat)
  /-- R331. The request engine dequeues a kick and fetches the record as two sectors into its record cache. -/
  | recordFetch (core : Nat)
  /-- R333. An instance whose arrival count reaches zero starts when the running set has room. -/
  | instanceStart (core : Nat)
  /-- R334. A sector moved by a copy, gather or scatter is written and counted down on the barrier. -/
  | sectorLand (core inst sec : Nat)
  /-- R334. An engine operation completes, makes its arrival and sends arrivals to its successors. -/
  | instanceComplete (core inst : Nat)
  /-- R288. A posted commit takes effect at the home slice once the slot's drains and engine writes complete, raising ready. -/
  | pcmtTakeEffect (plan pipe slot : Nat)
  /-- R289. A posted release takes effect once engine reads from the slot complete, freeing the slot. -/
  | crelTakeEffect (plan pipe slot : Nat)
  /-- R309. The hub relays a pipe mode change to the cores of the affected stages. -/
  | throttleRelay (plan pipe : Nat)
  /-- R293. A crew exits once its commands and instances are done, returning held slots and its weight. -/
  | crewExit (crew : Nat)
  /-- R316. Weight returned to the sink is added and plan completion is tested. -/
  | sinkArrival (plan : Nat)
  /-- R311. Every bper µs the balancer samples pipe occupancy and picks at most one move. -/
  | balancerSample (plan : Nat)
  /-- R313. When no donor crew remains on the moved cores the hub publishes a plan revision. -/
  | planRevisionPublish (plan : Nat)
  /-- R313. At its application time every die applies the revision and starts receiver crews. -/
  | planRevisionApply (plan : Nat)
  /-- R317. A pipe blocked for pper µs sends a deadlock probe through the blocked stages. -/
  | shadowProbe (plan pipe : Nat)
  /-- R318. A probe that comes home unchanged declares a cycle, grows a spill slot or raises a deadlock fault. -/
  | deadlockDeclare (plan pipe : Nat)
  /-- R320. 200 µs after a forced drain begins, live resident crews are ended where they stand. -/
  | forcedDrainTimeout (plan : Nat)
  /-- R342. A doorbell write to qtail makes new packets available, or is ignored if it overfills the ring. -/
  | qtailWrite (fn page : Nat) (v : Word)
  /-- R342. A write to qcfg configures a queue, ignored while the queue is enabled. -/
  | qcfgWrite (fn page : Nat) (v : Word64)
  /-- R14. A write to a register with no behaviour of its own stores its writable fields. -/
  | registerWrite (fn : Nat) (reg : HostReg) (v : BitVec 512)
  /-- R343. A launch packet at a queue head is read and becomes a candidate, or fails with a status. -/
  | launchPacket (q : Nat)
  /-- R344. A drain packet starts orderly or forced drains on matching plans. -/
  | drainPacket (q : Nat)
  /-- R344. An invalidate packet starts a TLB invalidation over a range of the context. -/
  | invalidatePacket (q : Nat)
  /-- R242. A TLB invalidation completes once every TLB has dropped entries and old accesses have finished. -/
  | invalidationComplete (k : Nat)
  /-- R348. Each completed qcfg.age interval raises a waiting host candidate's effective priority. -/
  | ageTick (q : Nat)
  /-- R348. Once per microsecond the front end orders candidates, dispatches or requests pre-emption. -/
  | launchSelect (places : List PipePlace)
  /-- R388. A waiting named crew starts once enough Den entries are free, taking names in gid order. -/
  | namedCrewStart (crew : Nat)
  /-- R416. The hint deadline passes and the save becomes full, stopping unparked groups. -/
  | hintDeadline (core : Nat)
  /-- R416. The core image is written once deliveries drain and Den entries become SAVED. -/
  | saveComplete (core : Nat)
  /-- R420. A core image is restored as a whole onto a free, unheld core and its groups resume. -/
  | restore (image core : Nat)
  /-- R391. A delivery reaches the Den and is dropped, refused, forwarded or written into a save image. -/
  | deliveryArrive (k : Nat)
  /-- R361. A forwarded delivery writes the receiver's register and clears its hold. -/
  | deliveryLand (k : Nat)
  /-- R393. A refused delivery is resent 0.5 µs later, in issue order. -/
  | deliveryResend (k : Nat)
  /-- R360. A Den acknowledgement reaches the sender, setting dlvdrop if dropped. -/
  | deliveryAck (k : Nat)
  /-- R388. After its deliveries are acknowledged a name's watchers are poisoned and its entry returns to the free list. -/
  | nameRelease (idx : Nat)
  /-- R400. Every 10 µs the watchdog poisons unwatched holds older than the set time. -/
  | holdWatchdog
  /-- R433. A miss on a dropped tile starts its slice in a recompute context, or joins one in progress. -/
  | recomputeStart (ctx rec core level : Nat)
  /-- R426. A slice ends and commits; the tile is resealed and waiting accesses proceed. -/
  | recomputeComplete (core level : Nat)
  /-- R435. A faulting slice leaves its tile FAILED and squashes waiting chunks. -/
  | recomputeFail (core level : Nat)
  /-- R438. An uncorrectable error in a sealed tile drops the whole tile for recomputation. -/
  | sealedTileError (ctx rec : Nat)
  /-- R485. A detected soft error is corrected, or its data dropped or zeroed, and counted. -/
  | softError (st : Struct) (core addr : Nat) (bad : Bool)
  /-- R468. A port receives a packet and corrects, drops, denies, deduplicates, forwards or applies it. -/
  | fabricPacketReceive (port : Nat) (pkt : Packet)
  /-- R471. An unacknowledged packet is resent after 20 µs, or after the eighth resend the peer is unreachable. -/
  | e2eTimeout (dst seq : Nat)
  /-- R472. An end-to-end acknowledgement frees the sender's copy and its reservation. -/
  | e2eAck (dst seq : Nat)
  /-- R463. A down link or 50 µs without buffer credit moves a target's traffic to a detour route. -/
  | routeDetour (dst : Nat)
  /-- R465. A fabric port trains; any configuration other than 4 × 200 Gb/s leaves it down. -/
  | linkTrain (port : Nat) (ok : Bool)
  /-- R476. A host write through BAR 4 applies each 32-byte sector as a point write. -/
  | hostWindowWrite (fn off : Nat) (bytes : List Byte)
  /-- R476. A host read through BAR 4 returns translated bytes or all ones with Completer Abort. -/
  | hostWindowRead (fn off len : Nat)
  /-- R479. Mailbox command 0x0001: Badger creates a context and binds a function. -/
  | createContext (fn root : Nat) (frames : List (Nat × Nat))
  /-- R422. Mailbox command 0x0002 tears down a context, draining, reporting, releasing and wiping. -/
  | teardown (fn ctx : Nat)
  /-- R405. Mailbox command 0x0003 writes the context control block. -/
  | writeCcb (fn ctx : Nat) (c : Ccb)
  /-- R423. Mailbox command 0x0004 sets the droppable quota. -/
  | setQuota (fn ctx q : Nat)
  /-- R362. Mailbox command 0x0005 binds a peer package's context and windows. -/
  | bindPeer (fn ctx pkg peerCtx : Nat) (wins : List (Nat × Window))
  /-- R466. Mailbox command 0x0006 binds a context to a fabric tenant. -/
  | bindTenant (fn ctx tenant : Nat)
  /-- R493. Mailbox command 0x0007 reads a counter of the named class and unit into mresp. -/
  | readCounter (fn : Nat)
  /-- R481. Mailbox command 0x0008 with a firmware image: Badger verifies it and installs it for the next reset. -/
  | updateFirmware (fn version : Nat) (signed : Bool)
  /-- R482. Mailbox command 0x0008 with a life-cycle token moves the package between life-cycle states with a wipe. -/
  | lifecycleToken (fn key : Nat)
  /-- R490. Every 1 ms Lynx samples power and temperatures, raises the clock step or trips the package. -/
  | thermalSample (tj milliwatt : Nat)
  /-- R490. Every 10 ms below the thresholds the clock step falls by one. -/
  | stepFall
  /-- R490. All dies change clock together at a broadcast boundary, pausing for 2 µs. -/
  | clockStepChange
  /-- R481. Badger restarts Lynx within 100 ms when it stops answering. -/
  | lynxRestart
  /-- R492. After power-good the package runs measurement, training, wipe, self-test and starts Lynx. -/
  | powerGood (measured : Bool) (pkg : Nat) (failed : List Nat)
  /-- R489. A 48 V feed outside 44 V to 56 V holds the package in reset. -/
  | voltageOutOfRange (out : Bool)
  /-- R483. The wipe engine finishes zeroing and a pending life-cycle state is written. -/
  | wipeComplete
  /-- R54. An outstanding coherent store, CWB or CINV stops being outstanding once its line is written into the L1 after its fill, or written back or removed. -/
  | storeComplete (grp idx : Nat)
  /-- R479. An mdoor write with a reserved command code in mcmd ends the command with result 0x01 bad command, clears busy and sends MSI-X vector 64. -/
  | badCommand (fn : Nat)
deriving DecidableEq, Repr

end Sys2Proof
end

