-- ==== Sys2Proof/WellFormed.lean ====
section
/-! DEFINITION. The well-formed instructions: the limits that each instruction's rule sets on the registers and modifiers of its own
word. They are word checks of R69, raised whatever the guard and the active mask. Limits that depend on a register's shape tag (R69
item 5) or on fmt are checked at execution. -/
namespace Sys2Proof

/-- An even register: the low word of a pair. -/
def Reg.even (r : Reg) : Bool := r.toNat % 2 == 0

/-- A register whose number is a multiple of four. -/
def Reg.quad (r : Reg) : Bool := r.toNat % 4 == 0

/-- The number of bytes of an access (R161). -/
def Size.bytes : Size → Nat
  | .b8 => 1 | .b16 => 2 | .b32 => 4 | .b64 => 8 | .b128 => 16

/-- The data register of an access: even for 8 bytes, a multiple of four for 16 (R161). -/
def Size.regOk (s : Size) (d : Reg) : Bool :=
  match s with
  | .b64 => d.even
  | .b128 => d.quad
  | _ => true

/-- .s belongs to the loads of 1 and 2 bytes alone (R161). -/
def Size.sgnOk (s : Size) (sgn : Bool) : Bool := !sgn || s == .b8 || s == .b16

/-- The 8-byte operations of R175. -/
def AOp.wide : AOp → Bool
  | .addU64 | .minS64 | .maxS64 | .minU64 | .maxU64 | .and64 | .or64 | .xor64 | .exch64 | .cas64 => true
  | _ => false

/-- The bytes of an atomic operation (R175). -/
def AOp.bytes (o : AOp) : Nat := if o.wide then 8 else 4

/-- The operations RED and RRED have (R175). -/
def AOp.reduces : AOp → Bool
  | .exch32 | .exch64 | .cas32 | .cas64 => false
  | _ => true

/-- The operand register of an atomic operation (R175). -/
def AOp.operandOk (o : AOp) (x : Reg) : Bool :=
  match o with
  | .cas64 => x.quad
  | .cas32 => x.even
  | o => !o.wide || x.even

/-- The register of the old value (R175). -/
def AOp.destOk (o : AOp) (d : Reg) : Bool := !o.wide || d.even

/-- The floating-point formats of R153: codes 0x0 to 0x4. -/
def Elem.isFloat : Elem → Bool
  | .f32 | .f16 | .bf16 | .e4m3 | .e5m2 => true
  | _ => false

/-- The width of a format in bits (R153). -/
def Elem.width : Elem → Nat
  | .f32 | .i32 => 32 | .f16 | .bf16 | .i16 => 16 | .e4m3 | .e5m2 | .i8 => 8 | .i4 => 4 | .t2 => 2

/-- The parts an element holds (R153). -/
def Elem.parts (e : Elem) : Nat := 32 / e.width

/-- in and out lie below the part counts of their formats (R154). -/
def partsOk (dst src : Elem) (outp inp : BitVec 4) : Bool := outp.toNat < dst.parts && inp.toNat < src.parts

/-- The limits of an instruction word that its fields alone decide. -/
def Instr.wf : Instr → Bool
  | .lea _ d a _ _ _ _ => d.even && a.even
  | .isetpA _ _ _ _ _ _ k q => k != .none || q == 0
  | .fsetpA _ _ _ _ _ k q => k != .none || q == 0
  | .vote _ d _ m _ fit => m == .ballot || (d.toNat < 8 && !fit)
  | .fcvt _ _ _ dst src o i _ _ => dst.isFloat && src.isFloat && partsOk dst src o i
  | .icvt _ _ _ dst src o i _ _ => !(dst.isFloat && src.isFloat) && partsOk dst src o i
  | .qcvt _ _ a _ _ _ _ _ => a.quad
  | .ldg _ d n _ sz sgn _ _ => n.even && sz.regOk d && sz.sgnOk sgn
  | .stg _ d n _ sz => n.even && sz.regOk d
  | .ldl _ d _ _ sz sgn _ => sz.regOk d && sz.sgnOk sgn
  | .stl _ d _ _ sz => sz.regOk d
  | .atomg _ d n x _ op _ => n.even && op.operandOk x && op.destOk d
  | .atoml _ d _ x _ op _ => op.operandOk x && op.destOk d
  | .red _ n x _ op => n.even && op.reduces && op.operandOk x
  | .pfg _ n _ _ => n.even
  | .cwb _ n _ => n.even
  | .cinv _ n _ _ => n.even
  | .mwait _ n _ _ => n.even
  | .mdrn _ _ _ _ _ out _ _ _ _ _ => out != .t2
  | .mdup _ vm => vm.even
  | .pstat _ _ m idx h _ =>
    match m with
    | .free | .ready | .rfree | .sfree => true
    | .tlo | .thi | .hlo | .hhi | .seq => h.isSome && idx == 0
    | .wlo | .whi => h.isNone && idx == 0
  | .gname _ d _ => d.even
  | .arm _ _ vn => (vn.getD 0).even
  | .armif _ _ vn => (vn.getD 0).even
  | .regput _ _ vn _ => vn.even
  | .rld _ d _ _ sz sgn _ => sz.regOk d && sz.sgnOk sgn
  | .rst _ d _ _ sz => sz.regOk d
  | .ratom _ d _ _ vx op _ => op.operandOk vx && op.destOk d
  | .rred _ _ _ vx op => op.reduces && op.operandOk vx
  | .rcpdef _ _ _ vb _ _ => vb.even
  | .rseal _ vt => vt.even
  | .rdrop _ vt => vt.even
  | .rpin _ vt _ => vt.even
  | .runpin _ vt _ => vt.even
  | .iaddA .. | .iaddI .. | .isub .. | .imulA .. | .imulI .. | .imulh .. | .imad .. | .idiv .. | .irem .. | .imin .. | .imax .. | .iabs .. | .ineg ..
  | .andA .. | .andI .. | .orA .. | .orI .. | .xorA .. | .xorI .. | .not .. | .popc .. | .clz .. | .brev .. | .shlA .. | .shlI .. | .shrA ..
  | .shrI .. | .sarA .. | .sarI .. | .bfx .. | .bfi .. | .isetpI .. | .sel .. | .mov .. | .movi .. | .movs .. | .pand .. | .por .. | .pxor ..
  | .pnot .. | .shfl .. | .redg .. | .faddA .. | .faddI .. | .fsub .. | .fmulA .. | .fmulI .. | .ffma .. | .fmin .. | .fmax .. | .fsetpI ..
  | .frcp .. | .frsq .. | .fexp2 .. | .flog2 .. | .hadd2 .. | .hmul2 .. | .hfma2 .. | .ldk .. | .fence .. | .chunk .. | .chkst .. | .mldp ..
  | .mswap .. | .mstr .. | .mstrp .. | .mzero .. | .kick .. | .binit .. | .arrive .. | .bexp .. | .btest .. | .bwait .. | .prsv .. | .ctak ..
  | .pcmt .. | .crel .. | .launch .. | .setfmt .. | .getfmt .. | .csrr .. | .csrw .. | .holdq .. | .tfence .. | .phint .. | .pmcr .. | .bra ..
  | .brd .. | .join .. | .loop .. | .call .. | .ret .. | .exit .. | .nop .. | .yield .. | .trap .. | .rett .. | .bkpt .. | .sleep ..
  | .issueSelect .. | .loadComplete .. | .chunkCommit .. | .streamStoreApply .. | .reductionApply .. | .mwaitResume .. | .sleepExpire ..
  | .pageWalkComplete .. | .l2Evict .. | .matrixDispatch .. | .matrixComplete .. | .mstrpPairDiscard .. | .recordFetch .. | .instanceStart ..
  | .sectorLand .. | .instanceComplete .. | .pcmtTakeEffect .. | .crelTakeEffect .. | .throttleRelay .. | .crewExit .. | .sinkArrival ..
  | .balancerSample .. | .planRevisionPublish .. | .planRevisionApply .. | .shadowProbe .. | .deadlockDeclare .. | .forcedDrainTimeout ..
  | .qtailWrite .. | .qcfgWrite .. | .registerWrite .. | .launchPacket .. | .drainPacket .. | .invalidatePacket .. | .invalidationComplete ..
  | .ageTick .. | .launchSelect .. | .namedCrewStart .. | .hintDeadline .. | .saveComplete .. | .restore .. | .deliveryArrive .. | .deliveryLand ..
  | .deliveryResend .. | .deliveryAck .. | .nameRelease .. | .holdWatchdog .. | .recomputeStart .. | .recomputeComplete .. | .recomputeFail ..
  | .sealedTileError .. | .softError .. | .fabricPacketReceive .. | .e2eTimeout .. | .e2eAck .. | .routeDetour .. | .linkTrain ..
  | .hostWindowWrite .. | .hostWindowRead .. | .createContext .. | .teardown .. | .writeCcb .. | .setQuota .. | .bindPeer .. | .bindTenant ..
  | .readCounter .. | .updateFirmware .. | .lifecycleToken .. | .thermalSample .. | .stepFall .. | .clockStepChange .. | .lynxRestart ..
  | .powerGood .. | .voltageOutOfRange .. | .wipeComplete .. | .storeComplete .. | .badCommand .. => true

end Sys2Proof
end

