-- ==== Sys2Proof/Decode.lean ====
section
/-! DEFINITION. Encoding and decoding of instruction words: the fields of R62 to R66, the opcode map of R67, the word checks of R69.
Every word is refused by name or decodes to one well-formed instruction. The steps of the device's agents have no encoding. -/
namespace Sys2Proof

/-- Why a word is no instruction: each of the first four checks of R69, a register outside its instruction's limits, and a byte string
shorter than a word. Whoever decodes raises it; execution turns it into the illegal-instruction fault of R69, so it is safe. -/
inductive DecodeError where
  | unassigned | undefinedModifier | nonzeroField | operandLimit | truncated
deriving DecidableEq, Repr

/-- A flag as a one-bit field. -/
def bit (b : Bool) : BitVec 1 := BitVec.ofBool b

/-- A predicate in a register field: its upper four bits are zero (R66). -/
def predField (p : Pred) : Reg := 0#4 ++ p

/-- The code of Rnd (R141). -/
def Rnd.bits : Rnd → BitVec 3
  | .fmt => 0#3
  | .rne => 1#3
  | .rtz => 2#3
  | .rup => 3#3
  | .rdn => 4#3
  | .rna => 5#3

/-- The Rnd with a given code; none for a code R141 leaves undefined. -/
def Rnd.ofBits (x : BitVec 3) : Option Rnd :=
  match x.toNat with
  | 0 => some .fmt
  | 1 => some .rne
  | 2 => some .rtz
  | 3 => some .rup
  | 4 => some .rdn
  | 5 => some .rna
  | _ => none

/-- The code of Cond (R116). -/
def Cond.bits : Cond → BitVec 3
  | .eq => 0#3
  | .ne => 1#3
  | .lt => 2#3
  | .le => 3#3
  | .gt => 4#3
  | .ge => 5#3

/-- The Cond with a given code; none for a code R116 leaves undefined. -/
def Cond.ofBits (x : BitVec 3) : Option Cond :=
  match x.toNat with
  | 0 => some .eq
  | 1 => some .ne
  | 2 => some .lt
  | 3 => some .le
  | 4 => some .gt
  | 5 => some .ge
  | _ => none

/-- The code of Comb (R116). -/
def Comb.bits : Comb → BitVec 2
  | .none => 0#2
  | .and => 1#2
  | .or => 2#2
  | .xor => 3#2

/-- The Comb with a given code; none for a code R116 leaves undefined. -/
def Comb.ofBits (x : BitVec 2) : Option Comb :=
  match x.toNat with
  | 0 => some .none
  | 1 => some .and
  | 2 => some .or
  | 3 => some .xor
  | _ => none

/-- The code of FCond (R148). -/
def FCond.bits : FCond → BitVec 4
  | .eq => 0#4
  | .ne => 1#4
  | .lt => 2#4
  | .le => 3#4
  | .gt => 4#4
  | .ge => 5#4
  | .num => 6#4
  | .nan => 7#4

/-- The FCond with a given code; none for a code R148 leaves undefined. -/
def FCond.ofBits (x : BitVec 4) : Option FCond :=
  match x.toNat with
  | 0 => some .eq
  | 1 => some .ne
  | 2 => some .lt
  | 3 => some .le
  | 4 => some .gt
  | 5 => some .ge
  | 6 => some .num
  | 7 => some .nan
  | _ => none

/-- The code of VoteMode (R119). -/
def VoteMode.bits : VoteMode → BitVec 2
  | .ballot => 0#2
  | .any => 1#2
  | .all => 2#2
  | .eq => 3#2

/-- The VoteMode with a given code; none for a code R119 leaves undefined. -/
def VoteMode.ofBits (x : BitVec 2) : Option VoteMode :=
  match x.toNat with
  | 0 => some .ballot
  | 1 => some .any
  | 2 => some .all
  | 3 => some .eq
  | _ => none

/-- The code of ShflMode (R120). -/
def ShflMode.bits : ShflMode → BitVec 2
  | .idx => 0#2
  | .up => 1#2
  | .down => 2#2
  | .xor => 3#2

/-- The ShflMode with a given code; none for a code R120 leaves undefined. -/
def ShflMode.ofBits (x : BitVec 2) : Option ShflMode :=
  match x.toNat with
  | 0 => some .idx
  | 1 => some .up
  | 2 => some .down
  | 3 => some .xor
  | _ => none

/-- The code of RedgOp (R121). -/
def RedgOp.bits : RedgOp → BitVec 4
  | .iadd => 0#4
  | .imin => 1#4
  | .imax => 2#4
  | .umin => 3#4
  | .umax => 4#4
  | .and => 5#4
  | .or => 6#4
  | .xor => 7#4
  | .fadd => 8#4
  | .fmin => 9#4
  | .fmax => 10#4

/-- The RedgOp with a given code; none for a code R121 leaves undefined. -/
def RedgOp.ofBits (x : BitVec 4) : Option RedgOp :=
  match x.toNat with
  | 0 => some .iadd
  | 1 => some .imin
  | 2 => some .imax
  | 3 => some .umin
  | 4 => some .umax
  | 5 => some .and
  | 6 => some .or
  | 7 => some .xor
  | 8 => some .fadd
  | 9 => some .fmin
  | 10 => some .fmax
  | _ => none

/-- The code of Elem (R153). -/
def Elem.bits : Elem → BitVec 4
  | .f32 => 0#4
  | .f16 => 1#4
  | .bf16 => 2#4
  | .e4m3 => 3#4
  | .e5m2 => 4#4
  | .i32 => 5#4
  | .i16 => 6#4
  | .i8 => 7#4
  | .i4 => 8#4
  | .t2 => 9#4

/-- The Elem with a given code; none for a code R153 leaves undefined. -/
def Elem.ofBits (x : BitVec 4) : Option Elem :=
  match x.toNat with
  | 0 => some .f32
  | 1 => some .f16
  | 2 => some .bf16
  | 3 => some .e4m3
  | 4 => some .e5m2
  | 5 => some .i32
  | 6 => some .i16
  | 7 => some .i8
  | 8 => some .i4
  | 9 => some .t2
  | _ => none

/-- The code of HType (R152). -/
def HType.bits : HType → BitVec 1
  | .bf16x2 => 0#1
  | .f16x2 => 1#1

/-- The HType with a given code; none for a code R152 leaves undefined. -/
def HType.ofBits (x : BitVec 1) : Option HType :=
  match x.toNat with
  | 0 => some .bf16x2
  | 1 => some .f16x2
  | _ => none

/-- The code of Size (R161). -/
def Size.bits : Size → BitVec 3
  | .b8 => 0#3
  | .b16 => 1#3
  | .b32 => 2#3
  | .b64 => 3#3
  | .b128 => 4#3

/-- The Size with a given code; none for a code R161 leaves undefined. -/
def Size.ofBits (x : BitVec 3) : Option Size :=
  match x.toNat with
  | 0 => some .b8
  | 1 => some .b16
  | 2 => some .b32
  | 3 => some .b64
  | 4 => some .b128
  | _ => none

/-- The code of AOp (R175). -/
def AOp.bits : AOp → BitVec 5
  | .addU32 => 0#5
  | .addU64 => 1#5
  | .minS32 => 2#5
  | .maxS32 => 3#5
  | .minU32 => 4#5
  | .maxU32 => 5#5
  | .minS64 => 6#5
  | .maxS64 => 7#5
  | .minU64 => 8#5
  | .maxU64 => 9#5
  | .and32 => 10#5
  | .or32 => 11#5
  | .xor32 => 12#5
  | .and64 => 13#5
  | .or64 => 14#5
  | .xor64 => 15#5
  | .exch32 => 16#5
  | .exch64 => 17#5
  | .cas32 => 18#5
  | .cas64 => 19#5
  | .addF32 => 20#5
  | .addBf16x2 => 21#5
  | .addF16x2 => 22#5
  | .minF32 => 23#5
  | .maxF32 => 24#5

/-- The AOp with a given code; none for a code R175 leaves undefined. -/
def AOp.ofBits (x : BitVec 5) : Option AOp :=
  match x.toNat with
  | 0 => some .addU32
  | 1 => some .addU64
  | 2 => some .minS32
  | 3 => some .maxS32
  | 4 => some .minU32
  | 5 => some .maxU32
  | 6 => some .minS64
  | 7 => some .maxS64
  | 8 => some .minU64
  | 9 => some .maxU64
  | 10 => some .and32
  | 11 => some .or32
  | 12 => some .xor32
  | 13 => some .and64
  | 14 => some .or64
  | 15 => some .xor64
  | 16 => some .exch32
  | 17 => some .exch64
  | 18 => some .cas32
  | 19 => some .cas64
  | 20 => some .addF32
  | 21 => some .addBf16x2
  | 22 => some .addF16x2
  | 23 => some .minF32
  | 24 => some .maxF32
  | _ => none

/-- The code of Scope (R180). -/
def Scope.bits : Scope → BitVec 2
  | .core => 0#2
  | .die => 1#2
  | .pkg => 2#2
  | .pod => 3#2

/-- The Scope with a given code; none for a code R180 leaves undefined. -/
def Scope.ofBits (x : BitVec 2) : Option Scope :=
  match x.toNat with
  | 0 => some .core
  | 1 => some .die
  | 2 => some .pkg
  | 3 => some .pod
  | _ => none

/-- The code of PMode (R291). -/
def PMode.bits : PMode → BitVec 4
  | .free => 0#4
  | .ready => 1#4
  | .rfree => 2#4
  | .sfree => 3#4
  | .tlo => 4#4
  | .thi => 5#4
  | .hlo => 6#4
  | .hhi => 7#4
  | .seq => 8#4
  | .wlo => 9#4
  | .whi => 10#4

/-- The PMode with a given code; none for a code R291 leaves undefined. -/
def PMode.ofBits (x : BitVec 4) : Option PMode :=
  match x.toNat with
  | 0 => some .free
  | 1 => some .ready
  | 2 => some .rfree
  | 3 => some .sfree
  | 4 => some .tlo
  | 5 => some .thi
  | 6 => some .hlo
  | 7 => some .hhi
  | 8 => some .seq
  | 9 => some .wlo
  | 10 => some .whi
  | _ => none

/-- The code of Sreg (R106). -/
def Sreg.bits : Sreg → BitVec 7
  | .tid => 0#7
  | .gid => 1#7
  | .cx => 2#7
  | .cy => 3#7
  | .lane => 4#7
  | .stage => 5#7
  | .round => 6#7
  | .pkg => 7#7
  | .name => 8#7

/-- The Sreg with a given code; none for a code R106 leaves undefined. -/
def Sreg.ofBits (x : BitVec 7) : Option Sreg :=
  match x.toNat with
  | 0 => some .tid
  | 1 => some .gid
  | 2 => some .cx
  | 3 => some .cy
  | 4 => some .lane
  | 5 => some .stage
  | 6 => some .round
  | 7 => some .pkg
  | 8 => some .name
  | _ => none

/-- The code of Creg (R107). -/
def Creg.bits : Creg → BitVec 32
  | .fmt => 0#32
  | .flg => 1#32
  | .lmask => 2#32
  | .chklim => 3#32
  | .stk => 4#32
  | .rsdepth => 5#32
  | .amask => 6#32

/-- The Creg with a given code; none for a code R107 leaves undefined. -/
def Creg.ofBits (x : BitVec 32) : Option Creg :=
  match x.toNat with
  | 0 => some .fmt
  | 1 => some .flg
  | 2 => some .lmask
  | 3 => some .chklim
  | 4 => some .stk
  | 5 => some .rsdepth
  | 6 => some .amask
  | _ => none

/-- The code of WCreg (R107). -/
def WCreg.bits : WCreg → BitVec 32
  | .flg => 1#32
  | .chklim => 3#32
  | .stk => 4#32

/-- The WCreg with a given code; none for a code R107 leaves undefined. -/
def WCreg.ofBits (x : BitVec 32) : Option WCreg :=
  match x.toNat with
  | 1 => some .flg
  | 3 => some .chklim
  | 4 => some .stk
  | _ => none

/-- The code of CsrOp (R136). -/
def CsrOp.bits : CsrOp → BitVec 2
  | .write => 0#2
  | .set => 1#2
  | .clear => 2#2

/-- The CsrOp with a given code; none for a code R136 leaves undefined. -/
def CsrOp.ofBits (x : BitVec 2) : Option CsrOp :=
  match x.toNat with
  | 0 => some .write
  | 1 => some .set
  | 2 => some .clear
  | _ => none

/-- The code of Wn (R174). -/
def Wn.bits : Wn → BitVec 2
  | .w0 => 0#2
  | .w1 => 1#2
  | .w2 => 2#2
  | .w3 => 3#2

/-- The Wn with a given code; none for a code R174 leaves undefined. -/
def Wn.ofBits (x : BitVec 2) : Option Wn :=
  match x.toNat with
  | 0 => some .w0
  | 1 => some .w1
  | 2 => some .w2
  | 3 => some .w3
  | _ => none

/-- PSTAT's modes that name a pipe (R291). -/
def PMode.ofPipe : PMode → Bool
  | .free | .ready | .rfree | .sfree => true
  | _ => false

/-- PSTAT's modes that take a slot token (R291). -/
def PMode.ofToken : PMode → Bool
  | .tlo | .thi | .hlo | .hhi | .seq => true
  | _ => false

/-- R62, R63, format A. -/
def packA (op : BitVec 9) (g : Guard) (d s1 s2 s3 : Reg) (mod : BitVec 23) : Word64 :=
  op ++ g.p ++ bit g.neg ++ d ++ s1 ++ s2 ++ s3 ++ mod

/-- R62, R63 and R65, formats I and B. -/
def packI (op : BitVec 9) (g : Guard) (d s1 : Reg) (mod : BitVec 5) (imm : Word) : Word64 :=
  op ++ g.p ++ bit g.neg ++ d ++ s1 ++ mod ++ imm

/-- R62, R64, format M. -/
def packM (op : BitVec 9) (g : Guard) (d base s2 : Reg) (mod : BitVec 6) (off : BitVec 24) : Word64 :=
  op ++ g.p ++ bit g.neg ++ d ++ base ++ s2 ++ mod ++ off

/-- R62, R66, format E. -/
def packE (op : BitVec 9) (g : Guard) (d h s2 : Reg) (mod : BitVec 10) (idx : BitVec 20) : Word64 :=
  op ++ g.p ++ bit g.neg ++ d ++ h ++ s2 ++ mod ++ idx

/-- The guard of a word (R62). -/
def guardOf (w : Word64) : Guard := ⟨w.extractLsb' 52 3, w.getLsbD 51⟩

/-- The dst field (R62). -/
def fd (w : Word64) : Reg := w.extractLsb' 44 7

/-- The s1, base or h field (R63 to R66). -/
def f1 (w : Word64) : Reg := w.extractLsb' 37 7

/-- The s2 field (R63, R64, R66). -/
def f2 (w : Word64) : Reg := w.extractLsb' 30 7

/-- The s3 field (R63). -/
def f3 (w : Word64) : Reg := w.extractLsb' 23 7

/-- The predicate a register field names (R66). -/
def predOf (f : Reg) : Pred := f.extractLsb' 0 3

/-- A register field that a modifier bit makes used or unused. -/
def optReg (used : Bool) (f : Reg) : Option Reg := if used then some f else none

/-- The fourth check of R69: a modifier value the instruction does not define. -/
def need {α : Type} (o : Option α) (k : α → Except DecodeError Instr) : Except DecodeError Instr :=
  match o with
  | some x => k x
  | none => .error .undefinedModifier

/-- The word of an instruction (R62 to R67 and each instruction's own rule); none for a step of an agent, which has no word. -/
def encode : Instr → Option Word64
  | .iaddA g d a b fit => some (packA 0x000#9 g d a b 0 (bit fit ++ 0#22))
  | .iaddI g d a imm fit => some (packI 0x001#9 g d a (bit fit ++ 0#4) imm)
  | .isub g d a b fit => some (packA 0x002#9 g d a b 0 (bit fit ++ 0#22))
  | .imulA g d a b fit => some (packA 0x003#9 g d a b 0 (bit fit ++ 0#22))
  | .imulI g d a imm fit => some (packI 0x004#9 g d a (bit fit ++ 0#4) imm)
  | .imulh g d a b u fit => some (packA 0x005#9 g d a b 0 (bit fit ++ 0#21 ++ bit u))
  | .imad g d a b c fit => some (packA 0x006#9 g d a b c (bit fit ++ 0#22))
  | .idiv g d a b u fit => some (packA 0x007#9 g d a b 0 (bit fit ++ 0#21 ++ bit u))
  | .irem g d a b u fit => some (packA 0x008#9 g d a b 0 (bit fit ++ 0#21 ++ bit u))
  | .imin g d a b u fit => some (packA 0x009#9 g d a b 0 (bit fit ++ 0#21 ++ bit u))
  | .imax g d a b u fit => some (packA 0x00a#9 g d a b 0 (bit fit ++ 0#21 ++ bit u))
  | .iabs g d a fit => some (packA 0x00b#9 g d a 0 0 (bit fit ++ 0#22))
  | .ineg g d a fit => some (packA 0x00c#9 g d a 0 0 (bit fit ++ 0#22))
  | .andA g d a b fit => some (packA 0x010#9 g d a b 0 (bit fit ++ 0#22))
  | .andI g d a imm fit => some (packI 0x011#9 g d a (bit fit ++ 0#4) imm)
  | .orA g d a b fit => some (packA 0x012#9 g d a b 0 (bit fit ++ 0#22))
  | .orI g d a imm fit => some (packI 0x013#9 g d a (bit fit ++ 0#4) imm)
  | .xorA g d a b fit => some (packA 0x014#9 g d a b 0 (bit fit ++ 0#22))
  | .xorI g d a imm fit => some (packI 0x015#9 g d a (bit fit ++ 0#4) imm)
  | .not g d a fit => some (packA 0x016#9 g d a 0 0 (bit fit ++ 0#22))
  | .popc g d a fit => some (packA 0x01f#9 g d a 0 0 (bit fit ++ 0#22))
  | .clz g d a fit => some (packA 0x020#9 g d a 0 0 (bit fit ++ 0#22))
  | .brev g d a fit => some (packA 0x021#9 g d a 0 0 (bit fit ++ 0#22))
  | .shlA g d a b fit => some (packA 0x017#9 g d a b 0 (bit fit ++ 0#22))
  | .shlI g d a imm fit => some (packI 0x018#9 g d a (bit fit ++ 0#4) imm)
  | .shrA g d a b fit => some (packA 0x019#9 g d a b 0 (bit fit ++ 0#22))
  | .shrI g d a imm fit => some (packI 0x01a#9 g d a (bit fit ++ 0#4) imm)
  | .sarA g d a b fit => some (packA 0x01b#9 g d a b 0 (bit fit ++ 0#22))
  | .sarI g d a imm fit => some (packI 0x01c#9 g d a (bit fit ++ 0#4) imm)
  | .bfx g d a f sgn fit => some (packA 0x01d#9 g d a f 0 (bit fit ++ 0#21 ++ bit sgn))
  | .bfi g d a b f fit => some (packA 0x01e#9 g d a b f (bit fit ++ 0#22))
  | .lea g d a b n u fit => some (packA 0x022#9 g d a b 0 (bit fit ++ 0#16 ++ bit u ++ n))
  | .isetpA g p a b c u k q => some (packA 0x028#9 g (predField p) a b (predField q) (0#17 ++ k.bits ++ bit u ++ c.bits))
  | .isetpI g p a imm c u => some (packI 0x029#9 g (predField p) a (0#1 ++ bit u ++ c.bits) imm)
  | .sel g d a b p n fit => some (packA 0x02a#9 g d a b (predField p) (bit fit ++ 0#21 ++ bit n))
  | .mov g d a fit => some (packA 0x02b#9 g d a 0 0 (bit fit ++ 0#22))
  | .movi g d imm fit => some (packI 0x02c#9 g d 0 (bit fit ++ 0#4) imm)
  | .movs g d r fit => some (packA 0x02d#9 g d r.bits 0 0 (bit fit ++ 0#22))
  | .pand g d a b => some (packA 0x030#9 g (predField d) (predField a) (predField b) 0 0#23)
  | .por g d a b => some (packA 0x031#9 g (predField d) (predField a) (predField b) 0 0#23)
  | .pxor g d a b => some (packA 0x032#9 g (predField d) (predField a) (predField b) 0 0#23)
  | .pnot g d a => some (packA 0x033#9 g (predField d) (predField a) 0 0 0#23)
  | .vote g d p m n fit => some (packA 0x034#9 g d (predField p) 0 0 (bit fit ++ 0#19 ++ bit n ++ m.bits))
  | .shfl g d a b m fit => some (packA 0x035#9 g d a b 0 (bit fit ++ 0#20 ++ m.bits))
  | .redg g d a op scan fit => some (packA 0x036#9 g d a 0 0 (bit fit ++ 0#17 ++ bit scan ++ op.bits))
  | .faddA g d a b r fit => some (packA 0x040#9 g d a b 0 (bit fit ++ 0#19 ++ r.bits))
  | .faddI g d a imm r fit => some (packI 0x041#9 g d a (bit fit ++ 0#1 ++ r.bits) imm)
  | .fsub g d a b r fit => some (packA 0x042#9 g d a b 0 (bit fit ++ 0#19 ++ r.bits))
  | .fmulA g d a b r fit => some (packA 0x043#9 g d a b 0 (bit fit ++ 0#19 ++ r.bits))
  | .fmulI g d a imm r fit => some (packI 0x044#9 g d a (bit fit ++ 0#1 ++ r.bits) imm)
  | .ffma g d a b c r fit => some (packA 0x045#9 g d a b c (bit fit ++ 0#19 ++ r.bits))
  | .fmin g d a b fit => some (packA 0x046#9 g d a b 0 (bit fit ++ 0#22))
  | .fmax g d a b fit => some (packA 0x047#9 g d a b 0 (bit fit ++ 0#22))
  | .fsetpA g p a b c k q => some (packA 0x048#9 g (predField p) a b (predField q) (0#17 ++ k.bits ++ c.bits))
  | .fsetpI g p a imm c => some (packI 0x049#9 g (predField p) a (0#1 ++ c.bits) imm)
  | .frcp g d a r fit => some (packA 0x050#9 g d a 0 0 (bit fit ++ 0#19 ++ r.bits))
  | .frsq g d a r fit => some (packA 0x051#9 g d a 0 0 (bit fit ++ 0#19 ++ r.bits))
  | .fexp2 g d a r fit => some (packA 0x052#9 g d a 0 0 (bit fit ++ 0#19 ++ r.bits))
  | .flog2 g d a r fit => some (packA 0x053#9 g d a 0 0 (bit fit ++ 0#19 ++ r.bits))
  | .fcvt g d a dst src outp inp r fit => some (packA 0x058#9 g d a 0 0 (bit fit ++ 0#2 ++ outp ++ inp ++ src.bits ++ dst.bits ++ 0#1 ++ r.bits))
  | .icvt g d a dst src outp inp r fit => some (packA 0x059#9 g d a 0 0 (bit fit ++ 0#2 ++ outp ++ inp ++ src.bits ++ dst.bits ++ 0#1 ++ r.bits))
  | .qcvt g d a b c upd r fit => some (packA 0x05a#9 g d a b c (bit fit ++ 0#18 ++ bit upd ++ r.bits))
  | .hadd2 g d a b ty r fit => some (packA 0x060#9 g d a b 0 (bit fit ++ 0#18 ++ ty.bits ++ r.bits))
  | .hmul2 g d a b ty r fit => some (packA 0x061#9 g d a b 0 (bit fit ++ 0#18 ++ ty.bits ++ r.bits))
  | .hfma2 g d a b c ty r fit => some (packA 0x062#9 g d a b c (bit fit ++ 0#18 ++ ty.bits ++ r.bits))
  | .ldg g d n off sz sgn ev fit => some (packM 0x080#9 g d n 0 (bit fit ++ sz.bits ++ bit sgn ++ bit ev) off)
  | .stg g d n off sz => some (packM 0x081#9 g d n 0 (0#1 ++ sz.bits ++ 0#2) off)
  | .ldl g d n off sz sgn fit => some (packM 0x082#9 g d n 0 (bit fit ++ sz.bits ++ bit sgn ++ 0#1) off)
  | .stl g d n off sz => some (packM 0x083#9 g d n 0 (0#1 ++ sz.bits ++ 0#2) off)
  | .ldk g d idx h wn fit => some (packE 0x084#9 g d (h.getD 0) 0 (bit fit ++ 0#6 ++ bit h.isSome ++ wn.bits) idx)
  | .atomg g d n x off op fit => some (packM 0x088#9 g d n x (bit fit ++ op.bits) off)
  | .atoml g d n x off op fit => some (packM 0x089#9 g d n x (bit fit ++ op.bits) off)
  | .red g n x off op => some (packM 0x08a#9 g 0 n x (0#1 ++ op.bits) off)
  | .fence g sc => some (packA 0x090#9 g 0 0 0 0 (0#21 ++ sc.bits))
  | .chunk g => some (packA 0x091#9 g 0 0 0 0 0#23)
  | .chkst g d fit => some (packA 0x092#9 g d 0 0 0 (bit fit ++ 0#22))
  | .pfg g n off l2 => some (packM 0x094#9 g 0 n 0 (0#5 ++ bit l2) off)
  | .cwb g n off => some (packM 0x095#9 g 0 n 0 0#6 off)
  | .cinv g n off l2 => some (packM 0x096#9 g 0 n 0 (0#5 ++ bit l2) off)
  | .mwait g n off vc => some (packM 0x198#9 g 0 n (vc.getD 0) (0#5 ++ bit vc.isSome) off)
  | .mldp g vb => some (packA 0x0c0#9 g 0 vb 0 0 0#23)
  | .mswap g => some (packA 0x0c1#9 g 0 0 0 0 0#23)
  | .mstr g vn va vg vz => some (packA 0x0c2#9 g vn va vg (vz.getD 0) (0#22 ++ bit vz.isSome))
  | .mstrp g vn va vg vz => some (packA 0x0c3#9 g vn va vg (vz.getD 0) (0#22 ++ bit vz.isSome))
  | .mdrn g vd vg vx vs out relu clr bias bar pipe => some (packA 0x0c4#9 g vd vg vx vs (0#1 ++ out.bits ++ bit relu ++ bit clr ++ bit bias ++ bit bar ++ bit pipe ++ 0#13))
  | .mzero g vg => some (packA 0x0c5#9 g 0 vg 0 0 0#23)
  | .mdup g vm => some (packA 0x0c6#9 g 0 vm 0 0 0#23)
  | .kick g idx h => some (packE 0x100#9 g 0 (h.getD 0) 0 (0#9 ++ bit h.isSome) idx)
  | .binit g vb vn => some (packA 0x101#9 g 0 vb vn 0 0#23)
  | .arrive g vb vn vs => some (packA 0x102#9 g 0 vb (vn.getD 0) (vs.getD 0) (0#21 ++ bit vs.isSome ++ bit vn.isSome))
  | .bexp g vb vs => some (packA 0x103#9 g 0 vb vs 0 0#23)
  | .btest g vd vb sec fit => some (packA 0x104#9 g vd vb 0 0 (bit fit ++ 0#21 ++ bit sec))
  | .bwait g vb vp => some (packA 0x199#9 g 0 vb vp 0 0#23)
  | .prsv g vd idx h fit => some (packE 0x19a#9 g vd (h.getD 0) 0 (bit fit ++ 0#8 ++ bit h.isSome) idx)
  | .ctak g vd idx h fit => some (packE 0x19b#9 g vd (h.getD 0) 0 (bit fit ++ 0#8 ++ bit h.isSome) idx)
  | .pcmt g vt => some (packE 0x108#9 g 0 vt 0 0#10 0)
  | .crel g vt => some (packE 0x109#9 g 0 vt 0 0#10 0)
  | .pstat g vd m idx h fit => some (packE 0x10a#9 g vd (h.getD 0) 0 (bit fit ++ m.bits ++ 0#4 ++ bit (h.isSome && m.ofPipe)) idx)
  | .launch g idx h => some (packE 0x19c#9 g 0 (h.getD 0) 0 (0#9 ++ bit h.isSome) idx)
  | .setfmt g a => some (packA 0x140#9 g 0 a 0 0 0#23)
  | .getfmt g d fit => some (packA 0x141#9 g d 0 0 0 (bit fit ++ 0#22))
  | .csrr g d n fit => some (packI 0x142#9 g d 0 (bit fit ++ 0#4) n.bits)
  | .csrw g n a op => some (packI 0x143#9 g 0 a (0#3 ++ op.bits) n.bits)
  | .gname g d fit => some (packA 0x148#9 g d 0 0 0 (bit fit ++ 0#22))
  | .arm g vr vn => some (packA 0x149#9 g vr (vn.getD 0) 0 0 (0#22 ++ bit vn.isSome))
  | .armif g vr vn => some (packA 0x14a#9 g vr (vn.getD 0) 0 0 (0#22 ++ bit vn.isSome))
  | .regput g vt vn vs => some (packA 0x14b#9 g vt vn vs 0 0#23)
  | .holdq g d vr fit => some (packA 0x14c#9 g d (vr.getD 0) 0 0 (bit fit ++ 0#21 ++ bit vr.isNone))
  | .rld g d vp vo sz sgn fit => some (packA 0x150#9 g d vp vo 0 (bit fit ++ 0#5 ++ sz.bits ++ bit sgn ++ 0#13))
  | .rst g d vp vo sz => some (packA 0x151#9 g d vp vo 0 (0#6 ++ sz.bits ++ 0#14))
  | .ratom g d vp vo vx op fit => some (packA 0x152#9 g d vp vo vx (bit fit ++ op.bits ++ 0#17))
  | .rred g vp vo vx op => some (packA 0x153#9 g 0 vp vo vx (0#1 ++ op.bits ++ 0#17))
  | .tfence g => some (packA 0x158#9 g 0 0 0 0 0#23)
  | .phint g idx h => some (packE 0x159#9 g 0 (h.getD 0) 0 (0#9 ++ bit h.isSome) idx)
  | .pmcr g d code hi fit => some (packI 0x15a#9 g d 0 (bit fit ++ bit hi ++ 0#3) code)
  | .rcpdef g d vh vb idx fit => some (packE 0x160#9 g d vh vb (bit fit ++ 0#9) idx)
  | .rseal g vt => some (packA 0x161#9 g 0 vt 0 0 0#23)
  | .rdrop g vt => some (packA 0x162#9 g 0 vt 0 0 0#23)
  | .rpin g vt vz => some (packA 0x163#9 g 0 vt vz 0 0#23)
  | .runpin g vt vz => some (packA 0x164#9 g 0 vt vz 0 0#23)
  | .bra g off => some (packI 0x180#9 g 0 0 0#5 off)
  | .brd g off => some (packI 0x181#9 g 0 0 0#5 off)
  | .join => some (packA 0x182#9 ⟨7, false⟩ 0 0 0 0 0#23)
  | .loop g va off fit => some (packI 0x183#9 g 0 va (bit fit ++ 0#4) off)
  | .call g off => some (packI 0x184#9 g 0 0 0#5 off)
  | .ret g => some (packA 0x185#9 g 0 0 0 0 0#23)
  | .exit g => some (packA 0x186#9 g 0 0 0 0 0#23)
  | .nop g => some (packA 0x187#9 g 0 0 0 0 0#23)
  | .yield g => some (packA 0x188#9 g 0 0 0 0 0#23)
  | .trap g imm => some (packI 0x190#9 g 0 0 0#5 imm)
  | .rett => some (packA 0x191#9 ⟨7, false⟩ 0 0 0 0 0#23)
  | .bkpt g imm => some (packI 0x192#9 g 0 0 0#5 imm)
  | .sleep g imm dlv => some (packI 0x193#9 g 0 0 (0#4 ++ bit dlv) imm)
  | .issueSelect _ _ => none
  | .loadComplete _ _ => none
  | .chunkCommit _ => none
  | .streamStoreApply _ => none
  | .reductionApply _ _ => none
  | .mwaitResume _ => none
  | .sleepExpire _ => none
  | .pageWalkComplete _ => none
  | .l2Evict _ => none
  | .matrixDispatch _ => none
  | .matrixComplete _ _ => none
  | .mstrpPairDiscard _ => none
  | .recordFetch _ => none
  | .instanceStart _ => none
  | .sectorLand _ _ _ => none
  | .instanceComplete _ _ => none
  | .pcmtTakeEffect _ _ _ => none
  | .crelTakeEffect _ _ _ => none
  | .throttleRelay _ _ => none
  | .crewExit _ => none
  | .sinkArrival _ => none
  | .balancerSample _ => none
  | .planRevisionPublish _ => none
  | .planRevisionApply _ => none
  | .shadowProbe _ _ => none
  | .deadlockDeclare _ _ => none
  | .forcedDrainTimeout _ => none
  | .qtailWrite _ _ _ => none
  | .qcfgWrite _ _ _ => none
  | .registerWrite _ _ _ => none
  | .launchPacket _ => none
  | .drainPacket _ => none
  | .invalidatePacket _ => none
  | .invalidationComplete _ => none
  | .ageTick _ => none
  | .launchSelect _ => none
  | .namedCrewStart _ => none
  | .hintDeadline _ => none
  | .saveComplete _ => none
  | .restore _ _ => none
  | .deliveryArrive _ => none
  | .deliveryLand _ => none
  | .deliveryResend _ => none
  | .deliveryAck _ => none
  | .nameRelease _ => none
  | .holdWatchdog => none
  | .recomputeStart _ _ _ _ => none
  | .recomputeComplete _ _ => none
  | .recomputeFail _ _ => none
  | .sealedTileError _ _ => none
  | .softError _ _ _ _ => none
  | .fabricPacketReceive _ _ => none
  | .e2eTimeout _ _ => none
  | .e2eAck _ _ => none
  | .routeDetour _ => none
  | .linkTrain _ _ => none
  | .hostWindowWrite _ _ _ => none
  | .hostWindowRead _ _ _ => none
  | .createContext _ _ _ => none
  | .teardown _ _ => none
  | .writeCcb _ _ _ => none
  | .setQuota _ _ _ => none
  | .bindPeer _ _ _ _ _ => none
  | .bindTenant _ _ _ => none
  | .readCounter _ => none
  | .updateFirmware _ _ _ => none
  | .lifecycleToken _ _ => none
  | .thermalSample _ _ => none
  | .stepFall => none
  | .clockStepChange => none
  | .lynxRestart => none
  | .powerGood _ _ _ => none
  | .voltageOutOfRange _ => none
  | .wipeComplete => none
  | .storeComplete _ _ => none
  | .badCommand _ => none

/-- The ALU opcodes 0x000 to 0x03f (R67), by their low six bits. -/
def parseAlu (w : Word64) : Except DecodeError Instr :=
  match (w.extractLsb' 55 6).toNat with
  | 0x00 => .ok (.iaddA (guardOf w) (fd w) (f1 w) (f2 w) (w.getLsbD 22))
  | 0x01 => .ok (.iaddI (guardOf w) (fd w) (f1 w) (w.extractLsb' 0 32) (w.getLsbD 36))
  | 0x02 => .ok (.isub (guardOf w) (fd w) (f1 w) (f2 w) (w.getLsbD 22))
  | 0x03 => .ok (.imulA (guardOf w) (fd w) (f1 w) (f2 w) (w.getLsbD 22))
  | 0x04 => .ok (.imulI (guardOf w) (fd w) (f1 w) (w.extractLsb' 0 32) (w.getLsbD 36))
  | 0x05 => .ok (.imulh (guardOf w) (fd w) (f1 w) (f2 w) (w.getLsbD 0) (w.getLsbD 22))
  | 0x06 => .ok (.imad (guardOf w) (fd w) (f1 w) (f2 w) (f3 w) (w.getLsbD 22))
  | 0x07 => .ok (.idiv (guardOf w) (fd w) (f1 w) (f2 w) (w.getLsbD 0) (w.getLsbD 22))
  | 0x08 => .ok (.irem (guardOf w) (fd w) (f1 w) (f2 w) (w.getLsbD 0) (w.getLsbD 22))
  | 0x09 => .ok (.imin (guardOf w) (fd w) (f1 w) (f2 w) (w.getLsbD 0) (w.getLsbD 22))
  | 0x0a => .ok (.imax (guardOf w) (fd w) (f1 w) (f2 w) (w.getLsbD 0) (w.getLsbD 22))
  | 0x0b => .ok (.iabs (guardOf w) (fd w) (f1 w) (w.getLsbD 22))
  | 0x0c => .ok (.ineg (guardOf w) (fd w) (f1 w) (w.getLsbD 22))
  | 0x10 => .ok (.andA (guardOf w) (fd w) (f1 w) (f2 w) (w.getLsbD 22))
  | 0x11 => .ok (.andI (guardOf w) (fd w) (f1 w) (w.extractLsb' 0 32) (w.getLsbD 36))
  | 0x12 => .ok (.orA (guardOf w) (fd w) (f1 w) (f2 w) (w.getLsbD 22))
  | 0x13 => .ok (.orI (guardOf w) (fd w) (f1 w) (w.extractLsb' 0 32) (w.getLsbD 36))
  | 0x14 => .ok (.xorA (guardOf w) (fd w) (f1 w) (f2 w) (w.getLsbD 22))
  | 0x15 => .ok (.xorI (guardOf w) (fd w) (f1 w) (w.extractLsb' 0 32) (w.getLsbD 36))
  | 0x16 => .ok (.not (guardOf w) (fd w) (f1 w) (w.getLsbD 22))
  | 0x1f => .ok (.popc (guardOf w) (fd w) (f1 w) (w.getLsbD 22))
  | 0x20 => .ok (.clz (guardOf w) (fd w) (f1 w) (w.getLsbD 22))
  | 0x21 => .ok (.brev (guardOf w) (fd w) (f1 w) (w.getLsbD 22))
  | 0x17 => .ok (.shlA (guardOf w) (fd w) (f1 w) (f2 w) (w.getLsbD 22))
  | 0x18 => .ok (.shlI (guardOf w) (fd w) (f1 w) (w.extractLsb' 0 32) (w.getLsbD 36))
  | 0x19 => .ok (.shrA (guardOf w) (fd w) (f1 w) (f2 w) (w.getLsbD 22))
  | 0x1a => .ok (.shrI (guardOf w) (fd w) (f1 w) (w.extractLsb' 0 32) (w.getLsbD 36))
  | 0x1b => .ok (.sarA (guardOf w) (fd w) (f1 w) (f2 w) (w.getLsbD 22))
  | 0x1c => .ok (.sarI (guardOf w) (fd w) (f1 w) (w.extractLsb' 0 32) (w.getLsbD 36))
  | 0x1d => .ok (.bfx (guardOf w) (fd w) (f1 w) (f2 w) (w.getLsbD 0) (w.getLsbD 22))
  | 0x1e => .ok (.bfi (guardOf w) (fd w) (f1 w) (f2 w) (f3 w) (w.getLsbD 22))
  | 0x22 => .ok (.lea (guardOf w) (fd w) (f1 w) (f2 w) (w.extractLsb' 0 5) (w.getLsbD 5) (w.getLsbD 22))
  | 0x28 => need (Comb.ofBits (w.extractLsb' 4 2)) fun k => need (Cond.ofBits (w.extractLsb' 0 3)) fun c => .ok (.isetpA (guardOf w) (predOf (fd w)) (f1 w) (f2 w) c (w.getLsbD 3) k (predOf (f3 w)))
  | 0x29 => need (Cond.ofBits (w.extractLsb' 32 3)) fun c => .ok (.isetpI (guardOf w) (predOf (fd w)) (f1 w) (w.extractLsb' 0 32) c (w.getLsbD 35))
  | 0x2a => .ok (.sel (guardOf w) (fd w) (f1 w) (f2 w) (predOf (f3 w)) (w.getLsbD 0) (w.getLsbD 22))
  | 0x2b => .ok (.mov (guardOf w) (fd w) (f1 w) (w.getLsbD 22))
  | 0x2c => .ok (.movi (guardOf w) (fd w) (w.extractLsb' 0 32) (w.getLsbD 36))
  | 0x2d => need (Sreg.ofBits (f1 w)) fun r => .ok (.movs (guardOf w) (fd w) r (w.getLsbD 22))
  | 0x30 => .ok (.pand (guardOf w) (predOf (fd w)) (predOf (f1 w)) (predOf (f2 w)))
  | 0x31 => .ok (.por (guardOf w) (predOf (fd w)) (predOf (f1 w)) (predOf (f2 w)))
  | 0x32 => .ok (.pxor (guardOf w) (predOf (fd w)) (predOf (f1 w)) (predOf (f2 w)))
  | 0x33 => .ok (.pnot (guardOf w) (predOf (fd w)) (predOf (f1 w)))
  | 0x34 => need (VoteMode.ofBits (w.extractLsb' 0 2)) fun m => .ok (.vote (guardOf w) (fd w) (predOf (f1 w)) m (w.getLsbD 2) (w.getLsbD 22))
  | 0x35 => need (ShflMode.ofBits (w.extractLsb' 0 2)) fun m => .ok (.shfl (guardOf w) (fd w) (f1 w) (f2 w) m (w.getLsbD 22))
  | 0x36 => need (RedgOp.ofBits (w.extractLsb' 0 4)) fun op => .ok (.redg (guardOf w) (fd w) (f1 w) op (w.getLsbD 4) (w.getLsbD 22))
  | _ => .error .unassigned

/-- The FLOAT opcodes 0x040 to 0x07f (R67), by their low six bits. -/
def parseFloat (w : Word64) : Except DecodeError Instr :=
  match (w.extractLsb' 55 6).toNat with
  | 0x00 => need (Rnd.ofBits (w.extractLsb' 0 3)) fun r => .ok (.faddA (guardOf w) (fd w) (f1 w) (f2 w) r (w.getLsbD 22))
  | 0x01 => need (Rnd.ofBits (w.extractLsb' 32 3)) fun r => .ok (.faddI (guardOf w) (fd w) (f1 w) (w.extractLsb' 0 32) r (w.getLsbD 36))
  | 0x02 => need (Rnd.ofBits (w.extractLsb' 0 3)) fun r => .ok (.fsub (guardOf w) (fd w) (f1 w) (f2 w) r (w.getLsbD 22))
  | 0x03 => need (Rnd.ofBits (w.extractLsb' 0 3)) fun r => .ok (.fmulA (guardOf w) (fd w) (f1 w) (f2 w) r (w.getLsbD 22))
  | 0x04 => need (Rnd.ofBits (w.extractLsb' 32 3)) fun r => .ok (.fmulI (guardOf w) (fd w) (f1 w) (w.extractLsb' 0 32) r (w.getLsbD 36))
  | 0x05 => need (Rnd.ofBits (w.extractLsb' 0 3)) fun r => .ok (.ffma (guardOf w) (fd w) (f1 w) (f2 w) (f3 w) r (w.getLsbD 22))
  | 0x06 => .ok (.fmin (guardOf w) (fd w) (f1 w) (f2 w) (w.getLsbD 22))
  | 0x07 => .ok (.fmax (guardOf w) (fd w) (f1 w) (f2 w) (w.getLsbD 22))
  | 0x08 => need (Comb.ofBits (w.extractLsb' 4 2)) fun k => need (FCond.ofBits (w.extractLsb' 0 4)) fun c => .ok (.fsetpA (guardOf w) (predOf (fd w)) (f1 w) (f2 w) c k (predOf (f3 w)))
  | 0x09 => need (FCond.ofBits (w.extractLsb' 32 4)) fun c => .ok (.fsetpI (guardOf w) (predOf (fd w)) (f1 w) (w.extractLsb' 0 32) c)
  | 0x10 => need (Rnd.ofBits (w.extractLsb' 0 3)) fun r => .ok (.frcp (guardOf w) (fd w) (f1 w) r (w.getLsbD 22))
  | 0x11 => need (Rnd.ofBits (w.extractLsb' 0 3)) fun r => .ok (.frsq (guardOf w) (fd w) (f1 w) r (w.getLsbD 22))
  | 0x12 => need (Rnd.ofBits (w.extractLsb' 0 3)) fun r => .ok (.fexp2 (guardOf w) (fd w) (f1 w) r (w.getLsbD 22))
  | 0x13 => need (Rnd.ofBits (w.extractLsb' 0 3)) fun r => .ok (.flog2 (guardOf w) (fd w) (f1 w) r (w.getLsbD 22))
  | 0x18 => need (Elem.ofBits (w.extractLsb' 8 4)) fun src => need (Elem.ofBits (w.extractLsb' 4 4)) fun dst => need (Rnd.ofBits (w.extractLsb' 0 3)) fun r => .ok (.fcvt (guardOf w) (fd w) (f1 w) dst src (w.extractLsb' 16 4) (w.extractLsb' 12 4) r (w.getLsbD 22))
  | 0x19 => need (Elem.ofBits (w.extractLsb' 8 4)) fun src => need (Elem.ofBits (w.extractLsb' 4 4)) fun dst => need (Rnd.ofBits (w.extractLsb' 0 3)) fun r => .ok (.icvt (guardOf w) (fd w) (f1 w) dst src (w.extractLsb' 16 4) (w.extractLsb' 12 4) r (w.getLsbD 22))
  | 0x1a => need (Rnd.ofBits (w.extractLsb' 0 3)) fun r => .ok (.qcvt (guardOf w) (fd w) (f1 w) (f2 w) (f3 w) (w.getLsbD 3) r (w.getLsbD 22))
  | 0x20 => need (HType.ofBits (w.extractLsb' 3 1)) fun ty => need (Rnd.ofBits (w.extractLsb' 0 3)) fun r => .ok (.hadd2 (guardOf w) (fd w) (f1 w) (f2 w) ty r (w.getLsbD 22))
  | 0x21 => need (HType.ofBits (w.extractLsb' 3 1)) fun ty => need (Rnd.ofBits (w.extractLsb' 0 3)) fun r => .ok (.hmul2 (guardOf w) (fd w) (f1 w) (f2 w) ty r (w.getLsbD 22))
  | 0x22 => need (HType.ofBits (w.extractLsb' 3 1)) fun ty => need (Rnd.ofBits (w.extractLsb' 0 3)) fun r => .ok (.hfma2 (guardOf w) (fd w) (f1 w) (f2 w) (f3 w) ty r (w.getLsbD 22))
  | _ => .error .unassigned

/-- The MEM opcodes 0x080 to 0x0bf (R67), by their low six bits. -/
def parseMem (w : Word64) : Except DecodeError Instr :=
  match (w.extractLsb' 55 6).toNat with
  | 0x00 => need (Size.ofBits (w.extractLsb' 26 3)) fun sz => .ok (.ldg (guardOf w) (fd w) (f1 w) (w.extractLsb' 0 24) sz (w.getLsbD 25) (w.getLsbD 24) (w.getLsbD 29))
  | 0x01 => need (Size.ofBits (w.extractLsb' 26 3)) fun sz => .ok (.stg (guardOf w) (fd w) (f1 w) (w.extractLsb' 0 24) sz)
  | 0x02 => need (Size.ofBits (w.extractLsb' 26 3)) fun sz => .ok (.ldl (guardOf w) (fd w) (f1 w) (w.extractLsb' 0 24) sz (w.getLsbD 25) (w.getLsbD 29))
  | 0x03 => need (Size.ofBits (w.extractLsb' 26 3)) fun sz => .ok (.stl (guardOf w) (fd w) (f1 w) (w.extractLsb' 0 24) sz)
  | 0x04 => need (Wn.ofBits (w.extractLsb' 20 2)) fun wn => .ok (.ldk (guardOf w) (fd w) (w.extractLsb' 0 20) (optReg (w.getLsbD 22) (f1 w)) wn (w.getLsbD 29))
  | 0x08 => need (AOp.ofBits (w.extractLsb' 24 5)) fun op => .ok (.atomg (guardOf w) (fd w) (f1 w) (f2 w) (w.extractLsb' 0 24) op (w.getLsbD 29))
  | 0x09 => need (AOp.ofBits (w.extractLsb' 24 5)) fun op => .ok (.atoml (guardOf w) (fd w) (f1 w) (f2 w) (w.extractLsb' 0 24) op (w.getLsbD 29))
  | 0x0a => need (AOp.ofBits (w.extractLsb' 24 5)) fun op => .ok (.red (guardOf w) (f1 w) (f2 w) (w.extractLsb' 0 24) op)
  | 0x10 => need (Scope.ofBits (w.extractLsb' 0 2)) fun sc => .ok (.fence (guardOf w) sc)
  | 0x11 => .ok (.chunk (guardOf w))
  | 0x12 => .ok (.chkst (guardOf w) (fd w) (w.getLsbD 22))
  | 0x14 => .ok (.pfg (guardOf w) (f1 w) (w.extractLsb' 0 24) (w.getLsbD 24))
  | 0x15 => .ok (.cwb (guardOf w) (f1 w) (w.extractLsb' 0 24))
  | 0x16 => .ok (.cinv (guardOf w) (f1 w) (w.extractLsb' 0 24) (w.getLsbD 24))
  | _ => .error .unassigned

/-- The MATRIX opcodes 0x0c0 to 0x0ff (R67), by their low six bits. -/
def parseMatrix (w : Word64) : Except DecodeError Instr :=
  match (w.extractLsb' 55 6).toNat with
  | 0x00 => .ok (.mldp (guardOf w) (f1 w))
  | 0x01 => .ok (.mswap (guardOf w))
  | 0x02 => .ok (.mstr (guardOf w) (fd w) (f1 w) (f2 w) (optReg (w.getLsbD 0) (f3 w)))
  | 0x03 => .ok (.mstrp (guardOf w) (fd w) (f1 w) (f2 w) (optReg (w.getLsbD 0) (f3 w)))
  | 0x04 => need (Elem.ofBits (w.extractLsb' 18 4)) fun out => .ok (.mdrn (guardOf w) (fd w) (f1 w) (f2 w) (f3 w) out (w.getLsbD 17) (w.getLsbD 16) (w.getLsbD 15) (w.getLsbD 14) (w.getLsbD 13))
  | 0x05 => .ok (.mzero (guardOf w) (f1 w))
  | 0x06 => .ok (.mdup (guardOf w) (f1 w))
  | _ => .error .unassigned

/-- The ENGINE opcodes 0x100 to 0x13f (R67), by their low six bits. -/
def parseEngine (w : Word64) : Except DecodeError Instr :=
  match (w.extractLsb' 55 6).toNat with
  | 0x00 => .ok (.kick (guardOf w) (w.extractLsb' 0 20) (optReg (w.getLsbD 20) (f1 w)))
  | 0x01 => .ok (.binit (guardOf w) (f1 w) (f2 w))
  | 0x02 => .ok (.arrive (guardOf w) (f1 w) (optReg (w.getLsbD 0) (f2 w)) (optReg (w.getLsbD 1) (f3 w)))
  | 0x03 => .ok (.bexp (guardOf w) (f1 w) (f2 w))
  | 0x04 => .ok (.btest (guardOf w) (fd w) (f1 w) (w.getLsbD 0) (w.getLsbD 22))
  | 0x08 => .ok (.pcmt (guardOf w) (f1 w))
  | 0x09 => .ok (.crel (guardOf w) (f1 w))
  | 0x0a => need (PMode.ofBits (w.extractLsb' 25 4)) fun m => .ok (.pstat (guardOf w) (fd w) m (w.extractLsb' 0 20) (optReg (m.ofToken || (m.ofPipe && w.getLsbD 20)) (f1 w)) (w.getLsbD 29))
  | _ => .error .unassigned

/-- The SYSTEM opcodes 0x140 to 0x17f (R67), by their low six bits. -/
def parseSystem (w : Word64) : Except DecodeError Instr :=
  match (w.extractLsb' 55 6).toNat with
  | 0x00 => .ok (.setfmt (guardOf w) (f1 w))
  | 0x01 => .ok (.getfmt (guardOf w) (fd w) (w.getLsbD 22))
  | 0x02 => need (Creg.ofBits (w.extractLsb' 0 32)) fun n => .ok (.csrr (guardOf w) (fd w) n (w.getLsbD 36))
  | 0x03 => need (CsrOp.ofBits (w.extractLsb' 32 2)) fun op => need (WCreg.ofBits (w.extractLsb' 0 32)) fun n => .ok (.csrw (guardOf w) n (f1 w) op)
  | 0x08 => .ok (.gname (guardOf w) (fd w) (w.getLsbD 22))
  | 0x09 => .ok (.arm (guardOf w) (fd w) (optReg (w.getLsbD 0) (f1 w)))
  | 0x0a => .ok (.armif (guardOf w) (fd w) (optReg (w.getLsbD 0) (f1 w)))
  | 0x0b => .ok (.regput (guardOf w) (fd w) (f1 w) (f2 w))
  | 0x0c => .ok (.holdq (guardOf w) (fd w) (optReg (!w.getLsbD 0) (f1 w)) (w.getLsbD 22))
  | 0x10 => need (Size.ofBits (w.extractLsb' 14 3)) fun sz => .ok (.rld (guardOf w) (fd w) (f1 w) (f2 w) sz (w.getLsbD 13) (w.getLsbD 22))
  | 0x11 => need (Size.ofBits (w.extractLsb' 14 3)) fun sz => .ok (.rst (guardOf w) (fd w) (f1 w) (f2 w) sz)
  | 0x12 => need (AOp.ofBits (w.extractLsb' 17 5)) fun op => .ok (.ratom (guardOf w) (fd w) (f1 w) (f2 w) (f3 w) op (w.getLsbD 22))
  | 0x13 => need (AOp.ofBits (w.extractLsb' 17 5)) fun op => .ok (.rred (guardOf w) (f1 w) (f2 w) (f3 w) op)
  | 0x18 => .ok (.tfence (guardOf w))
  | 0x19 => .ok (.phint (guardOf w) (w.extractLsb' 0 20) (optReg (w.getLsbD 20) (f1 w)))
  | 0x1a => .ok (.pmcr (guardOf w) (fd w) (w.extractLsb' 0 32) (w.getLsbD 35) (w.getLsbD 36))
  | 0x20 => .ok (.rcpdef (guardOf w) (fd w) (f1 w) (f2 w) (w.extractLsb' 0 20) (w.getLsbD 29))
  | 0x21 => .ok (.rseal (guardOf w) (f1 w))
  | 0x22 => .ok (.rdrop (guardOf w) (f1 w))
  | 0x23 => .ok (.rpin (guardOf w) (f1 w) (f2 w))
  | 0x24 => .ok (.runpin (guardOf w) (f1 w) (f2 w))
  | _ => .error .unassigned

/-- The CTRL opcodes 0x180 to 0x1bf (R67), by their low six bits. -/
def parseCtrl (w : Word64) : Except DecodeError Instr :=
  match (w.extractLsb' 55 6).toNat with
  | 0x18 => .ok (.mwait (guardOf w) (f1 w) (w.extractLsb' 0 24) (optReg (w.getLsbD 24) (f2 w)))
  | 0x19 => .ok (.bwait (guardOf w) (f1 w) (f2 w))
  | 0x1a => .ok (.prsv (guardOf w) (fd w) (w.extractLsb' 0 20) (optReg (w.getLsbD 20) (f1 w)) (w.getLsbD 29))
  | 0x1b => .ok (.ctak (guardOf w) (fd w) (w.extractLsb' 0 20) (optReg (w.getLsbD 20) (f1 w)) (w.getLsbD 29))
  | 0x1c => .ok (.launch (guardOf w) (w.extractLsb' 0 20) (optReg (w.getLsbD 20) (f1 w)))
  | 0x00 => .ok (.bra (guardOf w) (w.extractLsb' 0 32))
  | 0x01 => .ok (.brd (guardOf w) (w.extractLsb' 0 32))
  | 0x02 => .ok .join
  | 0x03 => .ok (.loop (guardOf w) (f1 w) (w.extractLsb' 0 32) (w.getLsbD 36))
  | 0x04 => .ok (.call (guardOf w) (w.extractLsb' 0 32))
  | 0x05 => .ok (.ret (guardOf w))
  | 0x06 => .ok (.exit (guardOf w))
  | 0x07 => .ok (.nop (guardOf w))
  | 0x08 => .ok (.yield (guardOf w))
  | 0x10 => .ok (.trap (guardOf w) (w.extractLsb' 0 32))
  | 0x11 => .ok .rett
  | 0x12 => .ok (.bkpt (guardOf w) (w.extractLsb' 0 32))
  | 0x13 => .ok (.sleep (guardOf w) (w.extractLsb' 0 32) (w.getLsbD 32))
  | _ => .error .unassigned

/-- The instruction the fields of a word name, before its unused fields are checked: the class is bits [63:61] (R53). -/
def parse (w : Word64) : Except DecodeError Instr :=
  match (w.extractLsb' 61 3).toNat with
  | 0 => parseAlu w
  | 1 => parseFloat w
  | 2 => parseMem w
  | 3 => parseMatrix w
  | 4 => parseEngine w
  | 5 => parseSystem w
  | 6 => parseCtrl w
  | _ => .error .unassigned

/-- The word checks of R69, items 1 to 4, and the register limits of each instruction. A word in which an unused field or a reserved bit
is not zero differs from the word of the instruction its used fields name. -/
def decode (w : Word64) : Except DecodeError Instr :=
  match parse w with
  | .error e => .error e
  | .ok i =>
    if encode i = some w then (if i.wf then .ok i else .error .operandLimit) else .error .nonzeroField

/-- A word from its eight bytes, the first the least significant (R17). -/
def wordOfBytes (b0 b1 b2 b3 b4 b5 b6 b7 : Byte) : Word64 := b7 ++ b6 ++ b5 ++ b4 ++ b3 ++ b2 ++ b1 ++ b0

/-- The bytes of a word, least significant first (R17). -/
def bytesOfWord (w : Word64) : List Byte :=
  [w.extractLsb' 0 8, w.extractLsb' 8 8, w.extractLsb' 16 8, w.extractLsb' 24 8,
   w.extractLsb' 32 8, w.extractLsb' 40 8, w.extractLsb' 48 8, w.extractLsb' 56 8]

/-- Decoding is total on byte strings: the first instruction and the bytes after it, or a refusal by name. -/
def decodeBytes : List Byte → Except DecodeError (Instr × List Byte)
  | b0 :: b1 :: b2 :: b3 :: b4 :: b5 :: b6 :: b7 :: rest =>
    match decode (wordOfBytes b0 b1 b2 b3 b4 b5 b6 b7) with
    | .ok i => .ok (i, rest)
    | .error e => .error e
  | _ => .error .truncated

/-- The instruction the decoder reads from the bits `w` of an instruction, `nbits` of them given and the rest zero. -/
def decodeTableWord (nbits w : Nat) : Option Instr :=
  match decodeBytes (bytesOfWord (BitVec.ofNat 64 (w % 2 ^ nbits))) with
  | .ok (i, _) => some i
  | .error _ => none

/-- The class of an opcode: bits [63:61] of its word (R53). -/
def classOf (w : Word64) : BitVec 3 := w.extractLsb' 61 3

end Sys2Proof
end

