-- ==== Sys2Proof/Machine/Tab.lean ====
section
/-! DEFINITION. Sparse tables and sparse byte memories as plain lists: a table is a list of (key, entry) pairs in rising order of keys,
read with a default; a memory lists the bytes that are not zero, in rising order of addresses (R220, R483: the wipe leaves every byte zero). -/
namespace Sys2Proof.Machine

/-- A table of entries by number. -/
abbrev Tab (α : Type) := List (Nat × α)

/-- The entry at a key; the default for a key that is not listed. -/
def getT {α : Type} (d : α) : Tab α → Nat → α
  | [], _ => d
  | (k', v) :: t, k => if k = k' then v else getT d t k

/-- The entry at a key, if the key is listed. -/
def findT {α : Type} : Tab α → Nat → Option α
  | [], _ => none
  | (k', v) :: t, k => if k = k' then some v else findT t k

/-- The table with an entry written at its key. -/
def setT {α : Type} : Tab α → Nat → α → Tab α
  | [], k, v => [(k, v)]
  | (k', v') :: t, k, v =>
    if k = k' then (k, v) :: t else if k < k' then (k, v) :: (k', v') :: t else (k', v') :: setT t k v

/-- The table without a key. -/
def delT {α : Type} : Tab α → Nat → Tab α
  | [], _ => []
  | (k', v') :: t, k => if k = k' then delT t k else (k', v') :: delT t k

/-- Every entry mapped, keys unchanged. -/
def mapT {α β : Type} (f : Nat → α → β) : Tab α → Tab β
  | [] => []
  | (k, v) :: t => (k, f k v) :: mapT f t

/-- A byte memory: the bytes that are not zero, by rising address. -/
abbrev Memory := List Host.Cell

/-- The byte at an address; an unlisted address reads as zero. -/
def readByte : Memory → Nat → Byte
  | [], _ => 0
  | (a', b) :: m, a => if a = a' then b else readByte m a

/-- The memory with one byte written. Writing zero removes the entry, so that equal memories are equal lists. -/
def writeByte : Memory → Nat → Byte → Memory
  | [], a, b => if b = 0 then [] else [(a, b)]
  | (a', b') :: m, a, b =>
    if a = a' then (if b = 0 then m else (a, b) :: m)
    else if a < a' then (if b = 0 then (a', b') :: m else (a, b) :: (a', b') :: m)
    else (a', b') :: writeByte m a b

/-- The canonical form from an address on: addresses strictly rising and no listed byte zero. -/
def Memory.wfFrom : Nat → Memory → Bool
  | _, [] => true
  | lo, (a, b) :: m => decide (lo ≤ a) && (b != 0) && Memory.wfFrom (a + 1) m

/-- The canonical form of a memory. -/
def Memory.wf (m : Memory) : Bool := Memory.wfFrom 0 m

/-- `n` bytes from an address upwards. -/
def readBytes (m : Memory) (a : Nat) : Nat → List Byte
  | 0 => []
  | n + 1 => readByte m a :: readBytes m (a + 1) n

/-- Bytes written from an address upwards. -/
def writeBytes : Memory → Nat → List Byte → Memory
  | m, _, [] => m
  | m, a, b :: bs => writeBytes (writeByte m a b) (a + 1) bs

/-- The number whose little-endian bytes are given (R17). -/
def leNat : List Byte → Nat
  | [] => 0
  | b :: bs => b.toNat + 256 * leNat bs

/-- The `n` little-endian bytes of a number (R17). -/
def leBytes : Nat → Nat → List Byte
  | 0, _ => []
  | n + 1, x => BitVec.ofNat 8 x :: leBytes n (x / 256)

/-- A little-endian number of `n` bytes in memory (R17). -/
def readLE (m : Memory) (a n : Nat) : Nat := leNat (readBytes m a n)

/-- A little-endian number of `n` bytes written to memory (R17). -/
def writeLE (m : Memory) (a n x : Nat) : Memory := writeBytes m a (leBytes n x)

/-- Bits [lo + n - 1 : lo] of a number. -/
def bitsN (x lo n : Nat) : Nat := x / 2 ^ lo % 2 ^ n

/-- Bit `i` of a number. -/
def bitN (x i : Nat) : Bool := x.testBit i

/-- A truth value as a bit of a number. -/
def b2n (b : Bool) : Nat := if b then 1 else 0

end Sys2Proof.Machine
end

