-- ==== Sys2Proof/Machine/GroupState.lean ====
section
/-! DEFINITION. The state of a group of 32 threads: registers, chunks, holds, outstanding accesses, place and status. -/
namespace Sys2Proof.Machine

/-- A program counter: a 48-bit byte address (R59). -/
abbrev Pc := BitVec 48

/-- The shape tag of a register (R35, R97). -/
inductive Tag where
  | u | a | g
deriving DecidableEq, Repr

/-- An entry of the reconvergence stack (R122). `kind` is 0 DIV, 1 LOOP, 2 CALL, 3 TRAP. -/
structure StackEntry where
  fmt : Word
  mask : Mask
  kind : BitVec 4
  target : Pc
deriving DecidableEq, Repr

/-- The registers a chunk checkpoint holds (R139, R446). `v` holds storage word i of register r at key 32 r + i (R97). `stack` is the
part of the stack the lane holds, newest first; `spilled` counts the older entries in local memory (R123). `breach` is the first
cause code and local address of R173. `stored` is the model's own: the threads whose store an STG with more lines in one L1 set than it has
ways has already made in an earlier chunk (R223). `lim` is the limit a chunk that opens now starts with: chklim as it stood at the group's last commit
(R109). -/
structure Regs where
  v : Tab Word := []
  p : Tab Mask := []
  fmt : Word := 0
  flg : Word := 0
  lmask : Mask := 0
  chklim : Word := 256
  stk : Word := 0
  amask : Mask := BitVec.allOnes 32
  stack : List StackEntry := []
  spilled : Nat := 0
  breach : Option (Nat × Nat) := none
  stored : Mask := 0
  lim : Nat := 256
deriving DecidableEq, Repr

/-- A key of a signature (R446): a 128-byte line of global memory, or of a core's local memory. -/
inductive Key where
  | glob (line : Nat)
  | loc (core line : Nat)
deriving DecidableEq, Repr

/-- A streaming store or reduction operand that rides in a chunk until its commit (R169, R179). -/
inductive HeldOp where
  | store (bytes : List Byte)
  | red (op : AOp) (x : Word64) (fmt : Word)
deriving DecidableEq, Repr

/-- A held store with its addresses, the program counter of its instruction and the number the group gave that instruction's stores,
and the threads whose access it is. -/
structure Held where
  ins : Nat
  va : Nat
  pa : Nat
  op : HeldOp
  pc : Pc
  thrs : Mask := 0
deriving DecidableEq, Repr

/-- An uncommitted chunk (R445, R446). `no` numbers the group's chunks; `wrote` lists the registers with a checkpoint copy; `sd` holds, by line and byte
offset, the bytes written to its SpecDirty lines (R166), `vas` the virtual address of each of these lines, `thrs` the threads that have written it, each with the
address it first wrote there; `undo` holds the old value of each
local byte first written, whose rows the checkpoint store counts. `sq` and `lim` are c and L of R455 for this chunk, `resv` its reservation
number (R456). -/
structure Chunk where
  no : Nat
  start : Pc
  ckpt : Regs
  count : Nat := 0
  lim : Nat := 256
  sq : Nat := 0
  resv : Option Nat := none
  rd : List Key := []
  wr : List Key := []
  sd : Tab (Tab Byte) := []
  vas : Tab Nat := []
  thrs : Tab (Tab Nat) := []
  undo : List (Nat × Byte) := []
  held : List Held := []
  wrote : List Reg := []
deriving DecidableEq, Repr

/-- One thread's access of an outstanding load: its addresses and, byte by byte, the group's own latest store where there was one at
issue (R164). -/
structure ThreadAcc where
  t : Nat
  va : Nat
  pa : Nat
  stream : Bool
  own : List (Option Byte)
deriving DecidableEq, Repr

/-- Where an outstanding load takes its data: global memory, bytes already read (local memory, pool, old values of atomics), or a remote
package whose answers are collected by thread. -/
inductive LoadSrc where
  | global (acc : List ThreadAcc) (ev : Bool)
  | data (vals : List (Nat × List Byte))
  | remote (got : List (Nat × List Byte)) (want : List Nat)
deriving DecidableEq, Repr

/-- An outstanding load (R54, R163). `chunk` is the number of its chunk, 0 outside every chunk; `newer` lists the destination registers a
later instruction has written, with the number of that instruction's chunk (R102); `hold` says the lane waits for it; `stamp` is the serial
number that the next released access had when it issued; `bad` says that data it took at its chunk's commit had an uncorrectable error (R168). -/
structure Load where
  id : Nat
  stamp : Nat
  chunk : Nat
  dst : Reg
  nreg : Nat
  size : Nat
  sgn : Bool
  fit : Bool
  uni : Bool
  hold : Bool
  act : Mask
  pc : Pc
  src : LoadSrc
  newer : List (Reg × Nat)
  bad : Bool := false
deriving DecidableEq, Repr

/-- What an outstanding store waits for (R54): the fill of its line, a write-back, a removal, or a target package, which has the packet of a
copy. -/
inductive StoreKind where
  | fill (line va : Nat)
  | writeBack (line va : Nat)
  | remove (line va : Nat) (l2 : Bool)
  | remote (peer copy : Nat)
deriving DecidableEq, Repr

/-- An outstanding store of the group, with the number the group gave its instruction. -/
structure OutStore where
  id : Nat
  ins : Nat
  chunk : Nat
  kind : StoreKind
deriving DecidableEq, Repr

/-- The hold bits of a register and its poison cause (R356, R359); when it was armed, and the watchdog time in force then (R400, R405). -/
structure HoldBits where
  held : Bool := false
  landed : Bool := false
  poison : Bool := false
  watched : Bool := false
  cause : BitVec 2 := 0
  since : Nat := 0
  limit : Nat := 0
deriving DecidableEq, Repr

/-- Why a group is suspended (R61, R200, R372, R416). -/
inductive Susp where
  | held (r : Reg)
  | barrier (addr : Nat) (phase : Nat)
  | mwait (line : Nat)
  | sleep (till : Nat) (dlv : Bool)
  | pipe (plan pipe : Nat) (producer : Bool)
  | launch
  | parked (hint : Nat)
  | stopped
deriving DecidableEq, Repr

/-- The state of a group with respect to its lane (R200). Ready and Waiting are told apart by R201 at a selection. -/
inductive Status where
  | issuing
  | waiting
  | suspended (why : Susp)
  | saved
  | ended
deriving DecidableEq, Repr

/-- A fault or trap about to be taken (R406, R407); `late` marks a late fault, which never ends its group (R410), with
the core where it arose, `yields` a trap
that is the last instruction of a clause with yield (R57). -/
structure Flt where
  cls : Nat
  cause : Nat
  info : Word
  addr : Nat
  fmask : Mask
  thr : Nat
  pc : Pc
  ret : Pc
  late : Option Nat := none
  yields : Bool := false
deriving DecidableEq, Repr

/-- The clause being issued (R51, R59). `base` is the address branches count from, `first` the address of the first word. -/
structure Clause where
  base : Pc
  hdr : Word64
  first : Pc
  words : List Word64
deriving DecidableEq, Repr

/-- What a recompute slice's group knows of its task (R425, R434): its recipe record, its level, its target and the pool of its code object. -/
structure Slice where
  rcp : Nat
  level : Nat
  va : Nat
  size : Nat
  npool : Nat
  poolVa : Nat
deriving DecidableEq, Repr

/-- What a group asks another package about a linked pipe (R322): the pipe of its plan, what it asks with the slot it asks about, the number of the
request, and the answer once it has come. -/
structure Ask where
  pipe : Nat
  op : Nat
  slot : Nat
  no : Nat
  got : Option (List Nat) := none
deriving DecidableEq, Repr

/-- Where a group runs and what it is: core 16 y + x, lane, slot, index in its crew, role level, crew, plan, context, stage index, shape
map, whether its code is Suava code, its name and its recompute task (R106, R197, R198, R203, R354). -/
structure Place where
  core : Nat := 0
  lane : Nat := 0
  slot : Nat := 0
  gid : Nat := 0
  role : Nat := 0
  crew : Nat := 0
  plan : Nat := 0
  ctx : Nat := 0
  stage : Nat := 0
  shape : BitVec 256 := 0
  suava : Bool := false
  name : Word64 := BitVec.allOnes 64
  age : Nat := 1024
  slice : Option Slice := none
deriving DecidableEq, Repr

/-- How the program counter is to be taken at the next fetch (R59): as the entry of a clause, as a resumption that may stand inside one, or as
the rerun of a squashed chunk, at which wait fields do not act (R453). -/
inductive Entry where
  | header | resume | rerun
deriving DecidableEq, Repr

/-- A group (R194). `live` tells a group from an empty entry of the table. `hold` is the stall code its lane is held under (R215). `opn` and `clo`
are the open and the closed uncommitted chunk (R447): no open chunk stands for one in which nothing has issued; `closeReq` says the open chunk
closes as soon as the closed one commits, `shut` that it has closed at the end of its clause or of its group, so that the lane holds until then; `again` holds c, L and the reservation number of a
squashed chunk until its rerun opens (R455, R456); `wait` names the uncommitted chunk (group and number) its rerun waits for (R167, R171). `pend` is
a fault waiting for the chunk before it to commit (R406). `exiting` says no thread remains (R133). `w` is the wait count of R203. `dlv` counts
unacknowledged deliveries, `mcmd` matrix commands pending, `rem` remote accesses not yet acknowledged (R54, R180). `ask` is the
request about a linked pipe that its instruction has made to another package (R322), `sending` says that its remote access has made its packets, of which some have
still to leave (R470). `entering` says the next clause is the first
of a trap handler (R408). `xlate` lists pages whose walk failed with their causes (R239). `image` is the address of its record while it stands in a
core image (R419), `nextId` numbers its loads and stores. `held` counts the cycles its clause has held the lane, `idle` the cycles the lane is still
to idle after it (R206), `debt` the cycles of its instructions that are still to pass (R103, R214). `banked` is the bank whose full queue has held
its last clause (R201). `wakeYield` says that the clause it sleeps at the end of has its yield bit set, which acts when it goes on (R57). -/
structure Group where
  live : Bool := false
  place : Place := {}
  regs : Regs := {}
  pc : Pc := 0
  entry : Entry := .header
  clause : Option Clause := none
  status : Status := .ended
  hold : Option Nat := none
  w : Nat := 0
  yielded : Bool := false
  last : Nat := 0
  holds : Tab HoldBits := []
  watch : List (Reg × Word64) := []
  loads : List Load := []
  stores : List OutStore := []
  dlv : Nat := 0
  mcmd : Nat := 0
  rem : Nat := 0
  ask : Option Ask := none
  sending : Bool := false
  opn : Option Chunk := none
  clo : Option Chunk := none
  closeReq : Bool := false
  cno : Nat := 0
  shut : Bool := false
  again : Option (Nat × Nat × Option Nat) := none
  wait : Option (Nat × Nat) := none
  pend : Option Flt := none
  exiting : Bool := false
  entering : Bool := false
  xlate : List (Nat × Nat) := []
  image : Option Nat := none
  nextId : Nat := 1
  held : Nat := 0
  idle : Nat := 0
  debt : Nat := 0
  banked : Option Nat := none
  wakeYield : Bool := false
deriving DecidableEq, Repr

end Sys2Proof.Machine
end

