-- ==== Sys2Proof/Machine/CoreState.lean ====
section
/-! DEFINITION. The state of a core: local memory, the L1, the TLB, the matrix engine and the request engine. -/
namespace Sys2Proof.Machine

/-- A line of an L1 (R222, R223). `owner` is the group under whose chunk it is SpecDirty; `data` is its clean contents, and `bad` lists those of
its four sectors that came with an uncorrectable error (R168). Lists of lines run from the most to the least recently used. -/
structure L1Line where
  line : Nat
  owner : Option Nat
  data : List Byte
  bad : List Nat := []
deriving DecidableEq, Repr

/-- A translation (R235, R238): the context it is tagged with, the page's virtual base and size, its frame and its attributes. -/
structure Xlat where
  ctx : Nat
  va : Nat
  size : Nat
  pa : Nat
  drop : Bool
  stream : Bool
  write : Bool
deriving DecidableEq, Repr

/-- A stationary plane (R243): empty, or what it was loaded with. `rows` holds element codes, row by row. -/
structure Plane where
  full : Bool := false
  bfmt : BitVec 4 := 0
  dup : Bool := false
  rows : List (List Word) := []
deriving DecidableEq, Repr

/-- A matrix command with its operand values (R245). -/
inductive MOp where
  | mldp (addr : Word)
  | mdup (map : Word64)
  | mswap
  | mstr (pair : Bool) (v addr geo : Word) (zb : Option Word)
  | mzero (geo : Word)
  | mdrn (vd geo vx vs : Word) (out : Elem) (relu clr bias bar pipe : Bool)
deriving DecidableEq, Repr

/-- The three units of the matrix engine (R244). -/
inductive MUnit where
  | loader | array | drain
deriving DecidableEq, Repr

/-- A queued or running command: its number (that of its record's instance, where a record issued it, R329), what it does, the slot it drains into
(plan, pipe, tier, slot), its fmt snapshot, its group, crew and program counter, its sectors (R247), the flags it has raised, the plane a
stream runs against, for a command of a pair, its place in the core's count of them (R258), and whether a drain into another package's slot has sent its
bytes (R269). -/
structure MCmd where
  id : Nat
  op : MOp
  slot : Option (Nat × Nat × Bool × Nat) := none
  fmt : Word
  grp : Nat
  crew : Nat
  pc : Pc
  reads : List Nat := []
  writes : List Nat := []
  flags : Word := 0
  plane : Bool := false
  k : Nat := 0
  sent : Bool := false
deriving DecidableEq, Repr

/-- The matrix engine of a core (R243, R244). Accumulator element (row, column) stands at key 1024 row + column. `run` holds the dispatched
commands with their units, `pairs` counts the MSTRPs queued (R258). -/
structure Matrix where
  plane0 : Plane := {}
  plane1 : Plane := {}
  live : Bool := false
  gen : Word := 0
  acc : Tab Word := []
  map : Word64 := 0
  queue : List MCmd := []
  run : List (MUnit × MCmd) := []
  pairs : Nat := 0
deriving DecidableEq, Repr

/-- A kicked record waiting in the kick queue (R280, R324): its number, its index, the group that kicked it, its crew and its fmt. -/
structure Kick where
  id : Nat
  index : Nat
  grp : Nat
  crew : Nat
  fmt : Word
deriving DecidableEq, Repr

/-- A record held in the record cache (R324, R331): its crew, its index and its 64 bytes. -/
structure CachedRec where
  crew : Nat
  index : Nat
  bytes : List Byte
deriving DecidableEq, Repr

/-- An instance of a record (R333): its record, its crew, group and fmt, the arrivals it still waits for, the sectors that have not landed, its
pending sectors (R172), the error bits its barrier is still to get (R274), whether its record is in error (R336), whether an engine error of it
has been reported, and whether its command or launch has been handed on. `xs` holds the index of each element of a gather or scatter that has been
read, 2^32 greater where its word had an uncorrectable error (R328, R337); `away` the sectors sent to another package's slot, each with its error bits,
whether that package has answered (R334), and the cause it has answered with, 0 for none. -/
structure Inst where
  id : Nat
  index : Nat
  recd : List Byte
  crew : Nat
  grp : Nat
  fmt : Word
  need : Nat
  left : List Nat := []
  pread : List Nat := []
  pwrite : List Nat := []
  err : Nat := 0
  bad : Bool := false
  told : Bool := false
  sent : Bool := false
  xs : Tab Nat := []
  away : List (Nat × Nat × Bool × Nat) := []
deriving DecidableEq, Repr

/-- An arrival held for an entry whose instance is ready or running (R333): its crew and index, the group and fmt it brings, and, where a KICK made
it, that KICK's number. -/
structure HeldArrival where
  crew : Nat
  index : Nat
  grp : Nat
  fmt : Word
  kick : Option Nat
deriving DecidableEq, Repr

/-- The request engine of a core (R324). The cache lists the most recently used record first. `waiting` holds instances that count arrivals and,
in the order in which they became ready, those whose count is 0; `running` is the running set. `held` lists the held arrivals in their order,
`discarded` what is counted in a crew's exit status (R277, R340). -/
structure Engine where
  kicks : List Kick := []
  cache : List CachedRec := []
  waiting : List Inst := []
  running : List Inst := []
  held : List HeldArrival := []
  discarded : Tab Nat := []
deriving DecidableEq, Repr

/-- What a plan's launch hands to the launches of its child plans (R343, R351): the object's base table, the length of its pool, whether its
code is Suava code, the corner of the launch rectangle, and the plans it descends from, itself first. -/
structure Origin where
  table : Nat := 0
  npool : Nat := 0
  suava : Bool := false
  x : Nat := 0
  y : Nat := 0
  kin : List Nat := []
deriving DecidableEq, Repr

/-- A child launch in the pending-launch queue (R294, R348, R351): its context, the plan record's address, the priority, the launching plan and
what it hands on, and when it reached the head of its queue. -/
structure Pending where
  ctx : Nat
  addr : Nat
  pri : Nat
  parent : Nat
  org : Origin
  since : Nat
deriving DecidableEq, Repr

/-- A save of the core in progress (R415, R416): the time of the request, the hint deadline in force then in nanoseconds (R405), whether the
deadline has passed, whether a balancer move asked for it (R312), and the number of its image. -/
structure Saving where
  since : Nat
  limit : Nat
  full : Bool
  move : Bool
  image : Nat
deriving DecidableEq, Repr

/-- A core. `lm` is its local memory (R160), `inited` the initialised bits (R172), `thr` the
throttle of its stage (R206), `revision` the plan revision it last saw (R313), `plan`, `stage` and `ctx` what runs on it, `heldFor` the candidate it is held for (R349), `fenced` and `marked`
its defect marks (R487, R488); `badRow` and `badAcc` list the 16-byte rows of local memory and the accumulator elements with an uncorrectable
error (R173, R485); `xfail` lists the pages (context and 512 KiB page) whose walk has failed for its engines, with the causes (R239, R241); `icache` lists
the lines of its instruction cache (R201), by context and virtual address, the last filled first; `bankq` counts the requests queued at its banks
(R170); `used` lists the contexts whose crews or slices it has run since their wipe (R422). -/
structure Core where
  lm : Memory := []
  inited : BitVec 256 := 0
  l1 : List L1Line := []
  tlb : List Xlat := []
  mat : Matrix := {}
  eng : Engine := {}
  launches : List Pending := []
  save : Option Saving := none
  heldFor : Option Nat := none
  thr : Bool := false
  fused : Bool := false
  plan : Option Nat := none
  stage : Nat := 0
  ctx : Nat := 0
  revision : Nat := 0
  fenced : Bool := false
  marked : Bool := false
  errs : List Nat := []
  badRow : List Nat := []
  badAcc : List Nat := []
  xfail : List (Nat × Nat × Nat) := []
  icache : List Nat := []
  bankq : Tab Nat := []
  used : List Nat := []
deriving DecidableEq, Repr

end Sys2Proof.Machine
end

