-- ==== Sys2Proof/Machine/SystemState.lean ====
section
/-! DEFINITION. The state of the package outside its cores: contexts, translation, the L2, watches, released stores, reports. -/
namespace Sys2Proof.Machine

/-- A late fault queued on the hub (R410): the group it belongs to, class, cause, address, program counter, the number folded in, the threads whose
access faulted (none for a class without threads), and the core and lane where it arose. -/
structure LateFault where
  grp : Nat
  cls : Nat
  cause : Nat
  addr : Nat
  pc : Pc
  info : Nat
  fmask : Mask
  core : Nat
  lane : Nat
deriving DecidableEq, Repr

/-- The identity a report carries of a group or core (R413). -/
structure Ident where
  stage : Nat
  core : Nat
  gid : Nat
  tag : Nat
  name : Word64
deriving DecidableEq, Repr

/-- A page walk in progress (R239): the die and context it walks for, the address it translates, and the cores, the groups and the cores' engines that wait on it. -/
structure Walk where
  die : Nat
  ctx : Nat
  va : Nat
  cores : List Nat
  groups : List Nat
  engines : List Nat := []
deriving DecidableEq, Repr

/-- A miss in a die's miss queue (R239): its context and address, its core and, where a lane waits, its group. -/
structure Miss where
  ctx : Nat
  va : Nat
  core : Nat
  grp : Option Nat
deriving DecidableEq, Repr

/-- An upper-level entry in a die's walk cache (R238): of a context, the table that serves the addresses which agree with `va` above bit `lo`. -/
structure UpperEntry where
  ctx : Nat
  lo : Nat
  va : Nat
  table : Nat
deriving DecidableEq, Repr

/-- A line held by an L2 slice (R229): whether it is dirty, and its last use. -/
structure L2Line where
  dirty : Bool
  use : Nat
deriving DecidableEq, Repr

/-- A directory entry (R226): no sharer, one to four named sharers, or a vector of clusters. -/
inductive Dir where
  | uncached
  | exact (sharers : List Nat)
  | vector (clusters : BitVec 32)
deriving DecidableEq, Repr

/-- A store, a reduction or a half of one that has been released and is on its way to its home slice (R169, R179, R457). `half` is 2 for
an operand applied whole, 0 or 1 for a half of a packed one. `left` is the serial number at which a FENCE.core has seen it in its core's outbound
path (R180), `arrived` its place in the order of arrival at the slice, while the other half of a packed operand is still to be applied
(R191); `thrs` are the threads whose operand it is, `orig` the package and sequence number of the packet that brought it, of group 0 (R365). -/
structure Flight where
  id : Nat
  ins : Nat
  grp : Nat
  core : Nat
  ctx : Nat
  va : Nat
  pa : Nat
  op : HeldOp
  pc : Pc
  half : Nat
  left : Option Nat := none
  arrived : Option Nat := none
  thrs : Mask := 0
  orig : Option (Nat × Nat) := none
deriving DecidableEq, Repr

end Sys2Proof.Machine
end

