-- ==== Sys2Proof/Machine/PlanState.lean ====
section
/-! DEFINITION. The state of crews, plans, pipes and the launch front end. -/
namespace Sys2Proof.Machine

/-- The state of a slot (R307). The crew is the one that holds it. -/
inductive SlotState where
  | free
  | reserved (crew : Nat)
  | committing (crew : Nat)
  | committed
  | taken (crew : Nat)
  | releasing (crew : Nat)
  | discarded
deriving DecidableEq, Repr

/-- A slot (R307): its state, sequence number and weight share, and the engine and drain operations a posted commit or release still waits
for (R288, R289). -/
structure Slot where
  state : SlotState := .free
  seq : Word := 0
  share : Nat := 0
  waits : List Nat := []
deriving DecidableEq, Repr

/-- The place of a pipe's allocations (R305). -/
structure PipeMem where
  tileVa : Nat := 0
  ringVa : Nat := 0
  thdrVa : Nat := 0
  rhdrVa : Nat := 0
deriving DecidableEq, Repr

/-- A pipe of a running plan (R303, R305, R307 to R309, R317, R322). Resident slot i stands at key i of `res`, ring slot i at key i of
`ring`; `opened` counts the open ring slots; `depthMode` is the mode DEPTH, `relayed` what the cores have been told of it. `since` is the time of
the last counter change, `ops` counts its operations and growths (R317, R323), `probe` a probe on its way with what it saw, `probed` when the last one was sent. `peer` is the package at the other end of a linked pipe (R343). On its
consumer side `links` lists the packages and request numbers whose PRSV waits for a slot, and `pdone` says that the producer's plan has no live crew of
the stage, on the producer side that the consumer has been told so (R322). `sampling` says that a balancer sample waits for the occupancy that the
consumer side of the pipe has, `far` is the one it has answered (R311). -/
structure Pipe where
  prod : Nat := 0
  cons : Nat := 0
  fmt : BitVec 4 := 0
  rows : Nat := 1
  cols : Nat := 1
  depth : Nat := 1
  hi : Nat := 1
  lo : Nat := 0
  ringCap : Nat := 0
  rcp : Bool := false
  home : Nat := 0
  link : Bool := false
  lside : Bool := false
  lkey : Nat := 0
  peer : Option Nat := none
  links : List (Nat × Nat) := []
  pdone : Bool := false
  sampling : Bool := false
  far : Nat := 0
  mem : PipeMem := {}
  desc : Nat := 0
  res : Tab Slot := []
  ring : Tab Slot := []
  opened : Nat := 0
  next : Word := 0
  depthMode : Bool := false
  relayed : Bool := false
  closedP : Bool := false
  since : Nat := 0
  ops : Nat := 0
  probe : Option (List (Nat × Nat)) := none
  probed : Nat := 0
deriving DecidableEq, Repr

/-- A stage of a running plan (R301): its rectangle in package coordinates and what its descriptor says of its crews: the address of the entry
header, the shape map, the roles, the counts, and the records to preload. -/
structure Stage where
  x : Nat := 0
  y : Nat := 0
  w : Nat := 1
  h : Nat := 1
  entry : Nat := 0
  shape : BitVec 256 := 0
  roles : Nat := 0
  age : Nat := 1024
  ngrp : Nat := 1
  prod : Nat := 0
  ncrew : Nat := 1
  named : Bool := false
  fused : Bool := false
  fixed : Bool := false
  preload : List (Nat × List Byte) := []
deriving DecidableEq, Repr

/-- A pending balancer move (R312): donor and receiver stage, and the cores that pass over. -/
structure Move where
  donor : Nat
  recv : Nat
  cores : List Nat
deriving DecidableEq, Repr

/-- A running plan (R300, R313 to R316, R345). `sink` is S, `disc` is D; `inflight` holds returns of weight on their way to the sink, each
with what of it counts as discarded. `revNo` is the current revision, `nextRev` a published one with its application time. `parent` is the
launching plan of a child, `queue` the queue of a host launch and `stat` its status record's address. -/
structure Plan where
  ctx : Nat
  tag : Word
  pri : Nat
  org : Origin := {}
  stages : List Stage := []
  pipes : List Pipe := []
  tw : Nat := 0
  bper : Nat := 0
  bstk : Nat := 1
  pper : Nat := 1
  sink : Int := 0
  disc : Nat := 0
  inflight : List (Nat × Nat) := []
  revNo : Word := 0
  nextRev : Option (Nat × List Stage) := none
  move : Option Move := none
  streak : List ((Nat × Nat) × Nat) := []
  nextSample : Nat := 0
  asking : Bool := false
  stat : Nat := 0
  queue : Option Nat := none
  parent : Option Nat := none
  nexc : Nat := 0
  nchf : Nat := 0
  dlk : Bool := false
  forced : Bool := false
  tdown : Bool := false
  forcedAt : Nat := 0
  poolVa : Nat := 0
deriving DecidableEq, Repr

/-- A resident or saved crew (R197): its plan, stage, core, index, weight, groups, producer group and context, its exit report entries so far,
whether it is saved, and whether its start waits for names (R388). -/
structure Crew where
  plan : Nat
  stage : Nat
  core : Nat
  index : Nat
  weight : Nat
  groups : List Nat
  prod : Nat
  ctx : Nat
  reports : Nat := 0
  saved : Bool := false
  waitName : Bool := false
deriving DecidableEq, Repr

/-- A launch that waits as a candidate (R343, R348): context, address of the plan record, what it takes from its object, tag, status address,
rectangle, and the peers bound to link keys. -/
structure Launch where
  ctx : Nat
  addr : Nat
  org : Origin
  tag : Word
  stat : Nat := 0
  w : Nat := 1
  h : Nat := 1
  links : List (Nat × Nat) := []
deriving DecidableEq, Repr

/-- A hardware queue (R341, R342). `since` is when its head packet reached the head, `aged` the completed ageing intervals since, `cand` the
launch that waits there. -/
structure Queue where
  qbase : Word64 := 0
  age : Nat := 0
  ctx : Nat := 0
  level : Nat := 0
  en : Bool := false
  lsize : Nat := 2
  qtail : Word := 0
  qhead : Word := 0
  errs : Nat := 0
  cand : Option Launch := none
  since : Nat := 0
  aged : Nat := 0
deriving DecidableEq, Repr

/-- An invalidation in progress (R242, R344): context, first page address, bytes, and the queue, status address and tag to answer;
a teardown's has none. -/
structure Inval where
  ctx : Nat
  va : Nat
  len : Nat
  queue : Option Nat
  stat : Nat
  tag : Word
deriving DecidableEq, Repr

end Sys2Proof.Machine
end

