-- ==== Sys2Proof/Machine/PackageState.lean ====
section
/-! DEFINITION. The state of names, recipes, contexts, the fabric, the host port and the package's own agents. -/
namespace Sys2Proof.Machine

/-- Where a Den entry stands (R389, R390). -/
inductive DenState where
  | free | resident | saved | moving
deriving DecidableEq, Repr

/-- A watcher of a Den entry (R398): the group and register that watch, and the package they are on. -/
structure Watcher where
  pkg : Nat
  grp : Nat
  reg : Reg
deriving DecidableEq, Repr

/-- A Den entry (R389). `grp` is the group it names, from whose place the 64-bit field loc is computed, `area` the address of the record of a group that was
ended in its image. `ending` is the cause its watchers will
read once its name is released (R388, R399). -/
structure DenEntry where
  gen : Word := 0
  state : DenState := .free
  ctx : Nat := 0
  stage : Nat := 0
  fwd : Nat := 0
  grp : Nat := 0
  area : Nat := 0
  watchers : List Watcher := []
  ending : Option (BitVec 2) := none
deriving DecidableEq, Repr

/-- How far a delivery has come (R360, R391, R393): on its way to the Den, on its way to the Den of another package, sent back at a time,
forwarded with its place in the Den's order, or acknowledged with an outcome: 0 landed, 1 stale, 2 of the wrong shape, 3 not delivered. -/
inductive DlvStage where
  | toDen | away | refused (since : Nat) | forwarded (ord : Nat) | answered (outcome : Nat)
deriving DecidableEq, Repr

/-- A delivery in flight (R360): receiver's name, register, tag, words, the sender's package and group with its core and context (of one from another
package, the contexts at its two ends, for the answer), the number the sender's package has for it, and where it stands. -/
structure Delivery where
  name : Word64
  vt : Reg
  tag : Tag
  words : List Word
  sender : Nat
  spkg : Nat
  score : Nat := 0
  sctx : Nat := 0
  ictx : Nat := 0
  back : Nat := 0
  stage : DlvStage := .toDen
deriving DecidableEq, Repr

/-- The life of a tile (R430). -/
inductive TileState where
  | none | unsealed | sealed | dropped | recomputing | failed | refused | pinned
deriving DecidableEq, Repr

/-- A source or target of a recipe: address and size in bytes (R429). -/
structure TileRef where
  va : Nat := 0
  size : Nat := 0
deriving DecidableEq, Repr

/-- An access that waits, or has waited, for a tile's recomputation (R424): an outstanding load or store of a group, a group's instruction, an instance
of a core's request engine, a packet of another package, a read through a function's window. -/
inductive TileUser where
  | load (grp id : Nat)
  | store (grp id : Nat)
  | group (grp : Nat) (pc : Pc)
  | engine (core inst : Nat)
  | remote (src seq : Nat)
  | window (id : Nat)
deriving DecidableEq, Repr

/-- A recipe record (R429). `fault` is what its slice failed with (R435), `again` asks for a second run (R438), `wants` lists core and level of the demand misses that wait for a start (R433), `pool` is the pool of the code
object whose slice it is, `waits` the accesses whose miss started or joined the recomputation, `users` those that waited for the last one (R424) and `kept` the
bytes that it left for them (R426), `byp` says that a store to the target has bypassed the L2 (R439). -/
structure Recipe where
  src : List TileRef := []
  tgt : TileRef := {}
  slice : Nat := 0
  arg : Word := 0
  stime : Nat := 0
  refc : Nat := 0
  pinc : Nat := 0
  ocore : Nat := 0
  depth : Nat := 0
  rpin : Bool := false
  state : TileState := .none
  rcnt : Nat := 0
  fault : Nat × Nat := (0, 0)
  finfo : Word := 0
  again : Bool := false
  wants : List (Nat × Nat) := []
  pool : Nat × Nat := (0, 0)
  waits : List TileUser := []
  users : List TileUser := []
  kept : List Byte := []
  byp : Bool := false
deriving DecidableEq, Repr

/-- A point write of the hub that a reserved chunk holds (R456): where it goes, its bytes, and the MSI-X vector that follows it (R475). -/
structure HubWrite where
  pa : Nat
  bytes : List Byte
  vec : Option (Nat × Nat) := none
deriving DecidableEq, Repr

/-- What the host has posted to a function and has still to take effect (R476, R477): the sectors of a write through the window, or the value of a tail
register and its page. -/
structure Posted where
  id : Nat
  fn : Nat
  pieces : List (Nat × List Byte) := []
  tail : Option (Nat × Word) := none
deriving DecidableEq, Repr

/-- A read of the host through the window that is not answered yet (R426, R476): its function, the address in the context and its length. -/
structure HostRead where
  id : Nat
  fn : Nat
  va : Nat
  len : Nat
deriving DecidableEq, Repr

/-- A core image (R415, R418): its number, where it lies in the save pool and the room it takes there, its plan, stage and former core, its
crews and groups, when it was written, and whether it waits for a balancer move's rectangle (R312). `eng` holds what the request block's
entries do not: the groups, formats and numbers of the engine's entries (log 86). `done` says that it has been written, `into` the core onto which it
is being restored (R390). -/
structure Image where
  id : Nat
  va : Nat
  room : Nat
  plan : Nat
  stage : Nat
  core : Nat
  crews : List Nat := []
  groups : List Nat := []
  time : Nat := 0
  moved : Bool := false
  eng : Engine := {}
  done : Bool := false
  into : Option Nat := none
deriving DecidableEq, Repr

/-- A context (R405, R411, R423, R474). `teardown` says that it is being torn down (R422); `objects` holds, by the address of an object's base table, the length of its pool and whether its code
is Suava code, as the loader reported them (R45, log 40); `placed` holds the ranges of physical memory where the loader put something for it, with
their lengths and whether they are its own (R47, R49). -/
structure Context where
  live : Bool := false
  fn : Nat := 0
  root : Nat := 0
  frames : List (Nat × Nat) := []
  tenant : Option Nat := none
  peers : List ((Nat × Nat) × List (Nat × Window)) := []
  ccb : Ccb := ⟨0, 4, 0, 0, 1000, 200, 0, false, false, false⟩
  reports : Nat := 0
  staterr : Nat := 0
  rpterr : Nat := 0
  late : List LateFault := []
  quota : Nat := 0
  stime : Nat := 0
  recipes : Tab Recipe := []
  objects : List (Nat × Nat × Bool) := []
  placed : List (Nat × Nat × Bool) := []
  images : List Image := []
  teardown : Bool := false
  finals : List (Nat × Nat × List Byte) := []
deriving DecidableEq, Repr

/-- A function of the host port (R474 to R478). `task` says what its command still waits for: the teardown of a context, or, with 64, a change of the life
cycle (log 14). -/
structure Func where
  mcmd : BitVec 512 := 0
  mresp : BitVec 512 := 0
  code : BitVec 16 := 0
  result : Byte := 0
  busy : Bool := true
  wbase : Word64 := 0
  winErr : Nat := 0
  ctx : Option Nat := none
  task : Option Nat := none
deriving DecidableEq, Repr

/-- A fabric port (R462, R465, R468, R469): its counters, the buffer counts it holds for its peer's receiver, by virtual channel, and when each
last reached zero. -/
structure Port where
  up : Bool := false
  hdrfix : Nat := 0
  hdrdrop : Nat := 0
  badkind : Nat := 0
  linkreplay : Nat := 0
  detour : Nat := 0
  buf0 : Nat := 32
  buf1 : Nat := 32
  buf2 : Nat := 32
  dry0 : Nat := 0
  dry1 : Nat := 0
  dry2 : Nat := 0
deriving DecidableEq, Repr

/-- A packet's copy kept until its acknowledgement (R471): its own number, the packet, its resends, the time of the last send, whether it waits to
leave (R469, R470), whether it has left once and so has its sequence number (R472), and whether it holds a reservation. -/
structure Copy where
  id : Nat
  pkt : Packet
  resends : Nat := 0
  sent : Nat := 0
  waiting : Bool := true
  numbered : Bool := false
  taken : Bool := false
deriving DecidableEq, Repr

/-- What a sender keeps per target (R463, R470 to R472): next sequence number, unacknowledged copies and the number of the next one, free
reservations, and the column of the detour it routes by. -/
structure Target where
  next : Word := 0
  copies : List Copy := []
  made : Nat := 0
  free : Nat := 16
  detour : Option Nat := none
deriving DecidableEq, Repr

/-- Bytes sent to a slot that another package holds, until that package has answered (R263, R322, R334): the core and the number of the instance or drain
that writes them, the sector of an instance, the slot with the pipe's key and package, and the group, crew and program counter of the command. -/
structure SlotWrite where
  core : Nat
  op : Nat
  sector : Option Nat
  dst : Nat
  lkey : Nat
  slot : Nat
  off : Nat
  grp : Nat
  crew : Nat
  pc : Pc
deriving DecidableEq, Repr

/-- What a target keeps per source (R472): the lowest number not applied and the map of applied numbers above it. -/
structure Source where
  low : Word := 0
  map : Word64 := 0
deriving DecidableEq, Repr

/-- The life-cycle states (R482). -/
inductive Life where
  | manufacture | provisioned | deployed | returned
deriving DecidableEq, Repr

/-- The package's own agents (R481 to R492). `up` says bring-up has ended; `lynx` that Lynx runs; `tdem` and `pdem` are the thermal and the power
demand on the clock step, `cool` and `calm` the times since which each may fall; `sampled` is when Lynx last sampled, `hot` the time since which the
junctions stand at 100 degrees or above at step 4; `linking` says that bring-up has come to its step 6; `pkg`, `cols` and `rows` are the place in the pod (R461); `held` says that the regulators hold the package
in reset. `version` is the installed firmware, `image` one accepted for the next reset, `trip` the time of a thermal trip Badger keeps.
`keysSealed` says that the device keys are sealed, `owner` is the number of the owner key that Badger holds (log 99). -/
structure Pkg where
  up : Bool := false
  linking : Bool := false
  lynx : Bool := false
  life : Life := .manufacture
  keysSealed : Bool := false
  owner : Nat := 1
  pending : Option Life := none
  meas : Bool := false
  wipe : Bool := true
  ncore : Nat := 0
  tjmax : Nat := 0
  therm : Nat := 0
  step : Nat := 0
  tdem : Nat := 0
  pdem : Nat := 0
  cool : Option Nat := none
  calm : Option Nat := none
  sampled : Option Nat := none
  hot : Option Nat := none
  pkg : Nat := 0
  cols : Nat := 1
  rows : Nat := 1
  held : Bool := false
  version : Nat := 0
  image : Option Nat := none
  trip : Option Nat := none
deriving DecidableEq, Repr

/-- An entry of the error log (R486): structure, address, time. -/
structure LogEntry where
  what : Nat
  addr : Nat
  time : Nat
deriving DecidableEq, Repr

end Sys2Proof.Machine
end

