-- ==== Sys2Proof/Machine/State.lean ====
section
/-! DEFINITION. The whole state of the machine as plain data, its reasons to stop, and its state after reset. -/
namespace Sys2Proof.Machine

/-- Why the machine stops with a fault. -/
inductive Fault where
  /-- Raised by the execution of an instruction word while `State.cur` names no group: there is no machine to run it on. Safe. -/
  | noGroup
deriving DecidableEq, Repr

/-- Why the machine refuses an instruction. -/
inductive Refusal where
  /-- Raised by the dispatch for an instruction without a meaning; no instruction is refused so. Safe. -/
  | notModelled (mnemonic : String)
deriving DecidableEq, Repr

/-- What acts next (log 2): an event of an agent, a lane that selects or issues, the fill of a line of a core's instruction cache (R201, log 11), a
packet that waits at its home slice (R366), one that waits for its next hop (R469), the return of a buffer count of a port's channel (R469), a link-level
replay on a port (R465), what is heard of a link between two other packages (R463), or the passing of nanoseconds. -/
inductive Action where
  | event (e : Instr)
  | issue (grp : Nat)
  | fetch (core line : Nat)
  | home (src seq : Nat)
  | pass (src dst seq : Nat)
  | buffer (port vc : Nat)
  | replay (port : Nat)
  | farLink (a b : Nat) (up : Bool)
  | barRead (fn bar off len : Nat)
  | time (ns : Nat)
deriving DecidableEq, Repr

/-- The state of the Dalaux. Tables are keyed by the numbers the spec gives (core 16 y + x, context, function, port, queue, package) or by
the model's own serial numbers (groups, crews, plans, walks, flights, deliveries), which `serial` hands out. `now` is the package
timestamp, `phase` the eighths of a clock cycle passed since the last whole one (R490); `agenda`, `cur`, `turn`, `fresh` and `serial` are the
model's own (logs 2 and 3).
`parked` lists the packets from other packages that wait at their home slices, in the order of their arrival (R366); `transit` the packets that wait
until their next hop has a count: those for another package, in a port's buffer, and this package's own acknowledgements (R469). `freed` lists the buffers of this
package's receivers that have been freed, by port and channel, whose counts return to the senders; `linksDown` the links between other packages that are down as far as
is known here (R463), `beacon` the sets of Beacon slices that the grants of this cycle have claimed (R448), `answers` what host reads have returned, by function, `slotWrites` the bytes on their way to slots of other packages, `reds` the packets
whose packed reduction has reached its home slice (R191). -/
structure State where
  now : Nat := 0
  phase : Nat := 0
  agenda : List Action := []
  cur : Nat := 0
  turn : Nat := 0
  fresh : Nat := 0
  serial : Nat := 1
  mem : Memory := []
  badSec : List Nat := []
  groups : Tab Group := []
  cores : Tab Core := []
  crews : Tab Crew := []
  plans : Tab Plan := []
  ctxs : Tab Context := []
  ctr : Tab Nat := []
  stlb : Tab (List Xlat) := []
  walks : Tab Walk := []
  missq : Tab (List Miss) := []
  wcache : Tab (List UpperEntry) := []
  l2 : Tab L2Line := []
  dir : Tab Dir := []
  bypass : Tab Nat := []
  watches : List (Nat × Nat) := []
  flights : List Flight := []
  grants : Nat := 0
  beacon : List (List Nat) := []
  resvs : Nat := 0
  den : Tab DenEntry := []
  denFree : List Nat := []
  denNext : Nat := 0
  refused : List (Nat × Nat × Nat) := []
  dlvs : Tab Delivery := []
  queues : Tab Queue := []
  invals : Tab Inval := []
  funcs : Tab Func := []
  msix : List (Nat × Nat) := []
  answers : List (Nat × Bool × List Byte) := []
  hub : List HubWrite := []
  posted : List Posted := []
  reads : List HostRead := []
  ports : Tab Port := []
  targets : Tab Target := []
  sources : Tab Source := []
  outbox : List (Nat × Packet) := []
  parked : List Packet := []
  transit : List (Option (Nat × Nat) × Packet) := []
  freed : List (Nat × Nat) := []
  linksDown : List (Nat × Nat) := []
  slotWrites : Tab SlotWrite := []
  reds : List (Nat × Nat) := []
  tenants : Tab Nat := []
  pcnt : Tab Nat := []
  errLog : List LogEntry := []
  pkg : Pkg := {}
deriving DecidableEq, Repr

/-- The machine right after reset: every field at the value the spec states, or the value a log entry names. -/
def State.reset : State := {}

end Sys2Proof.Machine
end

