-- ==== Sys2Proof/Machine/Operands.lean ====
section
/-! DEFINITION. Operand forms: reading and writing vector registers under their shape tags, predicates, active sets. -/
namespace Sys2Proof.Machine

/-- The tag of a register in a shape map (R35). Code 0b11 never stands in a stage's own map (R36); in that of Suava code it marks the registers
that Suava code does not have (R71). -/
def tagOf (sh : BitVec 256) (r : Reg) : Tag :=
  match (sh.extractLsb' (2 * r.toNat) 2).toNat with
  | 0 => .u
  | 1 => .a
  | _ => .g

/-- The storage words of a tag (R35). -/
def Tag.words : Tag → Nat
  | .u => 1
  | .a => 2
  | .g => 32

/-- Whether a group of a shape map has a register (R71). -/
def hasReg (sh : BitVec 256) (r : Nat) : Bool := sh.extractLsb' (2 * r) 2 != 3

/-- The storage words of a register (R35, R71). -/
def regWords (sh : BitVec 256) (r : Nat) : Nat := if hasReg sh r then (tagOf sh (BitVec.ofNat 7 r)).words else 0

/-- The storage per group of a shape map (R36). -/
def shapeWords (sh : BitVec 256) : Nat := ((List.range 128).map (regWords sh)).sum

/-- R71: the shape of Suava code, whatever .shape says: v0 to v63 are G-tagged, and there are no others. -/
def suavaShape : BitVec 256 := BitVec.allOnes 128 ++ 0xAAAAAAAAAAAAAAAAAAAAAAAAAAAAAAAA#128

/-- The key of storage word `i` of register `r`. -/
def regKey (r : Reg) (i : Nat) : Nat := 32 * r.toNat + i

/-- Storage word `i` of register `r`; a register starts at zero (R97). -/
def regWord (v : Tab Word) (r : Reg) (i : Nat) : Word := getT 0 v (regKey r i)

/-- Element `t` of a register (R97). -/
def readElem (sh : BitVec 256) (v : Tab Word) (r : Reg) (t : Nat) : Word :=
  match tagOf sh r with
  | .u => regWord v r 0
  | .a => regWord v r 0 + regWord v r 1 * BitVec.ofNat 32 t
  | .g => regWord v r t

/-- The threads of a set, in ascending order. -/
def threads (S : Mask) : List Nat := (List.range 32).filter fun t => S.getLsbD t

/-- The lowest thread of a set; 0 of the empty set. -/
def lowest (S : Mask) : Nat := (threads S).headD 0

/-- The set of one thread. -/
def oneThread (t : Nat) : Mask := BitVec.ofNat 32 (2 ^ t)

/-- The set of the threads that satisfy a test. -/
def maskOf (p : Nat → Bool) : Mask := (List.range 32).foldl (fun m t => if p t then m ||| oneThread t else m) 0

/-- The trailing zero bits of a number below 2^5, and the odd rest. -/
def oddPart : Nat → Nat → Nat × Nat
  | 0, n => (0, n)
  | f + 1, n => if n % 2 = 0 then ((oddPart f (n / 2)).1 + 1, (oddPart f (n / 2)).2) else (0, n)

/-- The inverse of an odd number modulo 2^32, by five Newton steps from the number itself. -/
def invOdd (o : Word) : Word :=
  let f := fun (x : Word) => x * (2 - o * x)
  f (f (f (f (f o))))

/-- R98: the smallest s with delta * s = diff modulo 2^32, for delta from 1 to 31, if there is one. -/
def strideFor (delta : Nat) (diff : Word) : Option Word :=
  let (k, o) := oddPart 5 delta
  if diff.toNat % 2 ^ k ≠ 0 then none
  else some (BitVec.ofNat 32 ((BitVec.ofNat 32 (diff.toNat / 2 ^ k) * invOdd (BitVec.ofNat 32 o)).toNat % 2 ^ (32 - k)))

/-- R98: base and stride of an A destination, or none where the values do not fit and fit is 0; R99 where fit is 1. -/
def fitA (r : Nat → Word) (ts : List Nat) (fit : Bool) : Option (Word × Word) :=
  match ts with
  | [] => none
  | t0 :: rest =>
    let at0 := fun (s : Word) => (r t0 - s * BitVec.ofNat 32 t0, s)
    match rest with
    | [] => some (at0 0)
    | t1 :: _ =>
      match strideFor (t1 - t0) (r t1 - r t0) with
      | none => if fit then some (at0 0) else none
      | some s =>
        if fit || ts.all (fun t => r t == r t0 + s * BitVec.ofNat 32 (t - t0)) then some (at0 s) else none

/-- R98, R99: the registers with results `r` of the threads `S` written to `d`; none is a shape fault. An empty set writes nothing. -/
def writeVec (sh : BitVec 256) (v : Tab Word) (d : Reg) (r : Nat → Word) (S : Mask) (fit : Bool) : Option (Tab Word) :=
  match threads S with
  | [] => some v
  | t0 :: rest =>
    match tagOf sh d with
    | .g => some ((t0 :: rest).foldl (fun v t => setT v (regKey d t) (r t)) v)
    | .u => if fit || (t0 :: rest).all (fun t => r t == r t0) then some (setT v (regKey d 0) (r t0)) else none
    | .a =>
      match fitA r (t0 :: rest) fit with
      | some (b, s) => some (setT (setT v (regKey d 0) b) (regKey d 1) s)
      | none => none

/-- The storage words of a register, as a delivery carries them (R360). -/
def storage (sh : BitVec 256) (v : Tab Word) (r : Reg) : List Word :=
  (List.range (tagOf sh r).words).map fun i => regWord v r i

/-- A register's storage words replaced from the first on (R361). -/
def putWords (v : Tab Word) (r : Reg) : Nat → List Word → Tab Word
  | _, [] => v
  | i, w :: ws => putWords (setT v (regKey r i) w) r (i + 1) ws

/-- A predicate register: p7 reads all ones (R104). -/
def readPred (p : Tab Mask) (q : Pred) : Mask := if q = 7 then BitVec.allOnes 32 else getT 0 p q.toNat

/-- R104: the bits of the threads `S` written, the others kept; a write to p7 is ignored. -/
def writePred (p : Tab Mask) (q : Pred) (b S : Mask) : Tab Mask :=
  if q = 7 then p else setT p q.toNat ((readPred p q &&& ~~~S) ||| (b &&& S))

/-- R105: the active set of an instruction other than BRA, BRD, LOOP and CALL. -/
def activeSet (r : Regs) (g : Guard) : Mask :=
  r.amask &&& (if g.neg then ~~~(readPred r.p g.p) else readPred r.p g.p)

/-- The register after `r`. -/
def Reg.succ (r : Reg) : Reg := r + 1

/-- The register `n` after `r`. -/
def regAt (r : Reg) (n : Nat) : Reg := BitVec.ofNat 7 (r.toNat + n)

/-- The 64-bit value of a register pair for one thread (R159). -/
def readPair (sh : BitVec 256) (v : Tab Word) (r : Reg) (t : Nat) : Word64 :=
  readElem sh v (regAt r 1) t ++ readElem sh v r t

end Sys2Proof.Machine
end

