-- ==== Sys2Proof/Machine/Use.lean ====
section
/-! DEFINITION. What each instruction uses: the registers it reads and writes (R358), its uniform operands (R101), whether it is irrevocable
(R445), whether its guard selects the threads that transfer control (R105), whether a recipe slice may hold it (R434), its lane cycles. -/
namespace Sys2Proof

/-- The data registers of an access (R161). -/
def Size.regs : Size → Nat
  | .b64 => 2
  | .b128 => 4
  | _ => 1

/-- The operand registers of an atomic operation (R175). -/
def AOp.operandRegs (o : AOp) : Nat :=
  match o with
  | .cas64 => 4
  | .cas32 => 2
  | o => if o.wide then 2 else 1

/-- The registers of an old value (R175). -/
def AOp.destRegs (o : AOp) : Nat := if o.wide then 2 else 1

end Sys2Proof

namespace Sys2Proof.Machine

/-- How long an instruction occupies its lane (R103, R121, R143), `fixed` where it depends on the operands' values (R353). -/
inductive Cost where
  | one
  | vec (factor : Nat)
  | redg
  | qcvt
  | fixed (n : Nat)
deriving DecidableEq, Repr

/-- What an instruction uses. -/
structure Use where
  g : Guard := ⟨7, false⟩
  reads : List Reg := []
  writes : List Reg := []
  uni : List Reg := []
  cost : Cost := .one
  irr : Bool := false
  ctl : Bool := false
  forbid : Bool := false
  bad : Bool := false
deriving DecidableEq, Repr

/-- `n` registers from one on. -/
def regsFrom (r : Reg) (n : Nat) : List Reg := (List.range n).map (regAt r)

/-- fmt.afmt (R77). -/
def fmtA (f : Word) : Nat := (f.extractLsb' 28 4).toNat

/-- fmt.bfmt (R77). -/
def fmtB (f : Word) : Nat := (f.extractLsb' 24 4).toNat

/-- fmt.acc (R77). -/
def fmtAcc (f : Word) : Nat := (f.extractLsb' 22 2).toNat

/-- fmt.round (R77). -/
def fmtRound (f : Word) : Nat := (f.extractLsb' 19 3).toNat

/-- fmt.fsr (R77). -/
def fmtFsr (f : Word) : Bool := f.getLsbD 18

/-- fmt.zsi (R77). -/
def fmtZsi (f : Word) : Bool := f.getLsbD 17

/-- fmt.dup (R77). -/
def fmtDup (f : Word) : Bool := f.getLsbD 16

/-- fmt.scl (R77). -/
def fmtScl (f : Word) : Nat := (f.extractLsb' 14 2).toNat

/-- fmt.dmap (R77). -/
def fmtDmap (f : Word) : Reg := f.extractLsb' 7 7

/-- The duplication-map pair, where fmt.dup is set (R95). -/
def dupPair (f : Word) : List Reg := if fmtDup f then [fmtDmap f, regAt (fmtDmap f) 1] else []

/-- The output registers of QCVT (R156): two for BF16 and FP16. -/
def qcvtRegs (f : Word) : Nat := if fmtA f < 2 then 2 else 1

/-- The faults of R156 that fmt decides: an odd destination pair, a destination beyond v127, duplication with T2, and a destination that
overlaps the map. -/
def qcvtBad (f : Word) (d : Reg) : Bool :=
  (qcvtRegs f == 2 && !d.even) || decide (127 < d.toNat + qcvtRegs f - 1) ||
  (fmtDup f && fmtA f == 6) ||
  (regsFrom d (qcvtRegs f)).any fun r => (dupPair f).contains r

/-- What an instruction uses, given fmt. -/
def useOf (fmt : Word) : Instr → Use
  | .iaddA g d a b _ => { g := g, reads := [a, b], writes := [d], cost := (.vec 1) }
  | .iaddI g d a _ _ => { g := g, reads := [a], writes := [d], cost := (.vec 1) }
  | .isub g d a b _ => { g := g, reads := [a, b], writes := [d], cost := (.vec 1) }
  | .imulA g d a b _ => { g := g, reads := [a, b], writes := [d], cost := (.vec 1) }
  | .imulI g d a _ _ => { g := g, reads := [a], writes := [d], cost := (.vec 1) }
  | .imulh g d a b _ _ => { g := g, reads := [a, b], writes := [d], cost := (.vec 1) }
  | .imad g d a b c _ => { g := g, reads := [a, b, c], writes := [d], cost := (.vec 1) }
  | .idiv g d a b _ _ => { g := g, reads := [a, b], writes := [d], cost := (.vec 1) }
  | .irem g d a b _ _ => { g := g, reads := [a, b], writes := [d], cost := (.vec 1) }
  | .imin g d a b _ _ => { g := g, reads := [a, b], writes := [d], cost := (.vec 1) }
  | .imax g d a b _ _ => { g := g, reads := [a, b], writes := [d], cost := (.vec 1) }
  | .iabs g d a _ => { g := g, reads := [a], writes := [d], cost := (.vec 1) }
  | .ineg g d a _ => { g := g, reads := [a], writes := [d], cost := (.vec 1) }
  | .andA g d a b _ => { g := g, reads := [a, b], writes := [d], cost := (.vec 1) }
  | .andI g d a _ _ => { g := g, reads := [a], writes := [d], cost := (.vec 1) }
  | .orA g d a b _ => { g := g, reads := [a, b], writes := [d], cost := (.vec 1) }
  | .orI g d a _ _ => { g := g, reads := [a], writes := [d], cost := (.vec 1) }
  | .xorA g d a b _ => { g := g, reads := [a, b], writes := [d], cost := (.vec 1) }
  | .xorI g d a _ _ => { g := g, reads := [a], writes := [d], cost := (.vec 1) }
  | .not g d a _ => { g := g, reads := [a], writes := [d], cost := (.vec 1) }
  | .popc g d a _ => { g := g, reads := [a], writes := [d], cost := (.vec 1) }
  | .clz g d a _ => { g := g, reads := [a], writes := [d], cost := (.vec 1) }
  | .brev g d a _ => { g := g, reads := [a], writes := [d], cost := (.vec 1) }
  | .shlA g d a b _ => { g := g, reads := [a, b], writes := [d], cost := (.vec 1) }
  | .shlI g d a _ _ => { g := g, reads := [a], writes := [d], cost := (.vec 1) }
  | .shrA g d a b _ => { g := g, reads := [a, b], writes := [d], cost := (.vec 1) }
  | .shrI g d a _ _ => { g := g, reads := [a], writes := [d], cost := (.vec 1) }
  | .sarA g d a b _ => { g := g, reads := [a, b], writes := [d], cost := (.vec 1) }
  | .sarI g d a _ _ => { g := g, reads := [a], writes := [d], cost := (.vec 1) }
  | .bfx g d a f _ _ => { g := g, reads := [a, f], writes := [d], cost := (.vec 1) }
  | .bfi g d a b f _ => { g := g, reads := [a, b, f], writes := [d], cost := (.vec 1) }
  | .lea g d a b _ _ _ => { g := g, reads := [a, regAt a 1, b], writes := [d, regAt d 1], cost := (.vec 1) }
  | .isetpA g _ a b _ _ _ _ => { g := g, reads := [a, b], cost := (.vec 1) }
  | .isetpI g _ a _ _ _ => { g := g, reads := [a], cost := (.vec 1) }
  | .sel g d a b _ _ _ => { g := g, reads := [a, b], writes := [d], cost := (.vec 1) }
  | .mov g d a _ => { g := g, reads := [a], writes := [d], cost := (.vec 1) }
  | .movi g d _ _ => { g := g, writes := [d], cost := (.vec 1) }
  | .movs g d _ _ => { g := g, writes := [d], cost := (.vec 1) }
  | .pand g _ _ _ => { g := g, cost := (.vec 1) }
  | .por g _ _ _ => { g := g, cost := (.vec 1) }
  | .pxor g _ _ _ => { g := g, cost := (.vec 1) }
  | .pnot g _ _ => { g := g, cost := (.vec 1) }
  | .vote g d _ m _ _ => { g := g, writes := (if m == .ballot then [d] else []), cost := (.vec 1) }
  | .shfl g d a b _ _ => { g := g, reads := [a, b], writes := [d], cost := (.vec 1) }
  | .redg g d a _ _ _ => { g := g, reads := [a], writes := [d], cost := .redg }
  | .faddA g d a b _ _ => { g := g, reads := [a, b], writes := [d], cost := (.vec 1) }
  | .faddI g d a _ _ _ => { g := g, reads := [a], writes := [d], cost := (.vec 1) }
  | .fsub g d a b _ _ => { g := g, reads := [a, b], writes := [d], cost := (.vec 1) }
  | .fmulA g d a b _ _ => { g := g, reads := [a, b], writes := [d], cost := (.vec 1) }
  | .fmulI g d a _ _ _ => { g := g, reads := [a], writes := [d], cost := (.vec 1) }
  | .ffma g d a b c _ _ => { g := g, reads := [a, b, c], writes := [d], cost := (.vec 1) }
  | .fmin g d a b _ => { g := g, reads := [a, b], writes := [d], cost := (.vec 1) }
  | .fmax g d a b _ => { g := g, reads := [a, b], writes := [d], cost := (.vec 1) }
  | .fsetpA g _ a b _ _ _ => { g := g, reads := [a, b], cost := (.vec 1) }
  | .fsetpI g _ a _ _ => { g := g, reads := [a], cost := (.vec 1) }
  | .frcp g d a _ _ => { g := g, reads := [a], writes := [d], cost := (.vec 2) }
  | .frsq g d a _ _ => { g := g, reads := [a], writes := [d], cost := (.vec 2) }
  | .fexp2 g d a _ _ => { g := g, reads := [a], writes := [d], cost := (.vec 4) }
  | .flog2 g d a _ _ => { g := g, reads := [a], writes := [d], cost := (.vec 4) }
  | .fcvt g d a _ _ _ _ _ _ => { g := g, reads := [a, d], writes := [d], cost := (.vec 1) }
  | .icvt g d a _ _ _ _ _ _ => { g := g, reads := [a, d], writes := [d], cost := (.vec 1) }
  | .qcvt g d a b c _ _ _ => { g := g, reads := [a, regAt a 1, regAt a 2, regAt a 3, b, c] ++ dupPair fmt, writes := (regsFrom d (qcvtRegs fmt) ++ dupPair fmt), uni := ([b, c] ++ dupPair fmt), cost := .qcvt, bad := (qcvtBad fmt d) }
  | .hadd2 g d a b _ _ _ => { g := g, reads := [a, b], writes := [d], cost := (.vec 1) }
  | .hmul2 g d a b _ _ _ => { g := g, reads := [a, b], writes := [d], cost := (.vec 1) }
  | .hfma2 g d a b c _ _ _ => { g := g, reads := [a, b, c], writes := [d], cost := (.vec 1) }
  | .ldg g d n _ sz _ _ _ => { g := g, reads := [n, regAt n 1], writes := (regsFrom d sz.regs), cost := (.vec 1) }
  | .stg g d n _ sz => { g := g, reads := ([n, regAt n 1] ++ regsFrom d sz.regs), cost := (.vec 1) }
  | .ldl g d n _ sz _ _ => { g := g, reads := [n], writes := (regsFrom d sz.regs), cost := (.vec 1), forbid := true }
  | .stl g d n _ sz => { g := g, reads := (n :: regsFrom d sz.regs), cost := (.vec 1), forbid := true }
  | .ldk g d _ h _ _ => { g := g, reads := h.toList, writes := [d], uni := h.toList, cost := (.vec 1) }
  | .atomg g d n x _ op _ => { g := g, reads := ([n, regAt n 1] ++ regsFrom x op.operandRegs), writes := (regsFrom d op.destRegs), cost := (.vec 1), irr := true, forbid := true }
  | .atoml g d n x _ op _ => { g := g, reads := (n :: regsFrom x op.operandRegs), writes := (regsFrom d op.destRegs), cost := (.vec 1), irr := true, forbid := true }
  | .red g n x _ op => { g := g, reads := ([n, regAt n 1] ++ regsFrom x op.operandRegs), cost := (.vec 1), forbid := true }
  | .fence g _ => { g := g, irr := true }
  | .chunk g => { g := g }
  | .chkst g d _ => { g := g, writes := [d], cost := (.vec 1) }
  | .pfg g n _ _ => { g := g, reads := [n, regAt n 1], cost := (.vec 1) }
  | .cwb g n _ => { g := g, reads := [n, regAt n 1], cost := (.vec 1) }
  | .cinv g n _ _ => { g := g, reads := [n, regAt n 1], cost := (.vec 1) }
  | .mwait g n _ vc => { g := g, reads := ([n, regAt n 1] ++ vc.toList), uni := vc.toList, irr := true, forbid := true }
  | .mldp g vb => { g := g, reads := [vb], uni := [vb], irr := true, forbid := true }
  | .mswap g => { g := g, irr := true, forbid := true }
  | .mstr g vn va vg vz => { g := g, reads := ([vn, va, vg] ++ vz.toList), uni := ([vn, va, vg] ++ vz.toList), irr := true, forbid := true }
  | .mstrp g vn va vg vz => { g := g, reads := ([vn, va, vg] ++ vz.toList), uni := ([vn, va, vg] ++ vz.toList), irr := true, forbid := true }
  | .mdrn g vd vg vx vs _ _ _ _ _ _ => { g := g, reads := [vd, vg, vx, vs], uni := [vd, vg, vx, vs], irr := true, forbid := true }
  | .mzero g vg => { g := g, reads := [vg], uni := [vg], irr := true, forbid := true }
  | .mdup g vm => { g := g, reads := [vm, regAt vm 1], uni := [vm, regAt vm 1], irr := true, forbid := true }
  | .kick g _ h => { g := g, reads := h.toList, uni := h.toList, irr := true, forbid := true }
  | .binit g vb vn => { g := g, reads := [vb, vn], uni := [vb, vn], irr := true, forbid := true }
  | .arrive g vb vn vs => { g := g, reads := (vb :: (vn.toList ++ vs.toList)), uni := (vb :: (vn.toList ++ vs.toList)), irr := true, forbid := true }
  | .bexp g vb vs => { g := g, reads := [vb, vs], uni := [vb, vs], irr := true, forbid := true }
  | .btest g vd vb _ _ => { g := g, reads := [vb], writes := [vd], uni := [vb], irr := true, forbid := true }
  | .bwait g vb vp => { g := g, reads := [vb, vp], uni := [vb, vp], irr := true, forbid := true }
  | .prsv g vd _ h _ => { g := g, reads := h.toList, writes := [vd], uni := h.toList, irr := true, forbid := true }
  | .ctak g vd _ h _ => { g := g, reads := h.toList, writes := [vd], uni := h.toList, irr := true, forbid := true }
  | .pcmt g vt => { g := g, reads := [vt], uni := [vt], irr := true, forbid := true }
  | .crel g vt => { g := g, reads := [vt], uni := [vt], irr := true, forbid := true }
  | .pstat g vd _ _ h _ => { g := g, reads := h.toList, writes := [vd], uni := h.toList, irr := true, forbid := true }
  | .launch g _ h => { g := g, reads := h.toList, uni := h.toList, irr := true, forbid := true }
  | .setfmt g a => { g := g, reads := [a], uni := [a] }
  | .getfmt g d _ => { g := g, writes := [d], cost := (.vec 1) }
  | .csrr g d _ _ => { g := g, writes := [d], cost := (.vec 1) }
  | .csrw g _ a _ => { g := g, reads := [a], uni := [a] }
  | .gname g d _ => { g := g, writes := [d, regAt d 1] }
  | .arm g _ vn => { g := g, reads := (vn.toList ++ vn.toList.map (regAt · 1)), uni := (vn.toList ++ vn.toList.map (regAt · 1)), irr := true, forbid := true }
  | .armif g _ vn => { g := g, reads := (vn.toList ++ vn.toList.map (regAt · 1)), uni := (vn.toList ++ vn.toList.map (regAt · 1)), irr := true, forbid := true }
  | .regput g _ vn vs => { g := g, reads := [vn, regAt vn 1, vs], uni := [vn, regAt vn 1], irr := true, forbid := true }
  | .holdq g d _ _ => { g := g, writes := [d] }
  | .rld g d vp vo sz _ _ => { g := g, reads := [vp, vo], writes := (regsFrom d sz.regs), cost := (.vec 1), irr := true, forbid := true }
  | .rst g d vp vo sz => { g := g, reads := ([vp, vo] ++ regsFrom d sz.regs), cost := (.vec 1), irr := true, forbid := true }
  | .ratom g d vp vo vx op _ => { g := g, reads := ([vp, vo] ++ regsFrom vx op.operandRegs), writes := (regsFrom d op.destRegs), cost := (.vec 1), irr := true, forbid := true }
  | .rred g vp vo vx op => { g := g, reads := ([vp, vo] ++ regsFrom vx op.operandRegs), cost := (.vec 1), irr := true, forbid := true }
  | .tfence g => { g := g, irr := true }
  | .phint g _ h => { g := g, reads := h.toList, uni := h.toList }
  | .pmcr g d _ _ _ => { g := g, writes := [d], forbid := true }
  | .rcpdef g d vh _ _ _ => { g := g, reads := [vh], writes := [d], uni := [vh], irr := true, forbid := true }
  | .rseal g vt => { g := g, reads := [vt, regAt vt 1], uni := [vt, regAt vt 1], irr := true, forbid := true }
  | .rdrop g vt => { g := g, reads := [vt, regAt vt 1], uni := [vt, regAt vt 1], irr := true, forbid := true }
  | .rpin g vt vz => { g := g, reads := [vt, regAt vt 1, vz], uni := [vt, regAt vt 1, vz], irr := true, forbid := true }
  | .runpin g vt vz => { g := g, reads := [vt, regAt vt 1, vz], uni := [vt, regAt vt 1, vz], irr := true, forbid := true }
  | .bra g _ => { g := g, ctl := true }
  | .brd g _ => { g := g, ctl := true }
  | .join => {}
  | .loop g va _ _ => { g := g, reads := [va], writes := [va], ctl := true }
  | .call g _ => { g := g, ctl := true }
  | .ret g => { g := g }
  | .exit g => { g := g }
  | .nop g => { g := g }
  | .yield g => { g := g }
  | .trap g _ => { g := g, irr := true, forbid := true }
  | .rett => {}
  | .bkpt g _ => { g := g, forbid := true }
  | .sleep g _ _ => { g := g, forbid := true }
  | .issueSelect _ _ => {}
  | .loadComplete _ _ => {}
  | .chunkCommit _ => {}
  | .streamStoreApply _ => {}
  | .reductionApply _ _ => {}
  | .mwaitResume _ => {}
  | .sleepExpire _ => {}
  | .pageWalkComplete _ => {}
  | .l2Evict _ => {}
  | .matrixDispatch _ => {}
  | .matrixComplete _ _ => {}
  | .mstrpPairDiscard _ => {}
  | .recordFetch _ => {}
  | .instanceStart _ => {}
  | .sectorLand _ _ _ => {}
  | .instanceComplete _ _ => {}
  | .pcmtTakeEffect _ _ _ => {}
  | .crelTakeEffect _ _ _ => {}
  | .throttleRelay _ _ => {}
  | .crewExit _ => {}
  | .sinkArrival _ => {}
  | .balancerSample _ => {}
  | .planRevisionPublish _ => {}
  | .planRevisionApply _ => {}
  | .shadowProbe _ _ => {}
  | .deadlockDeclare _ _ => {}
  | .forcedDrainTimeout _ => {}
  | .qtailWrite _ _ _ => {}
  | .qcfgWrite _ _ _ => {}
  | .registerWrite _ _ _ => {}
  | .launchPacket _ => {}
  | .drainPacket _ => {}
  | .invalidatePacket _ => {}
  | .invalidationComplete _ => {}
  | .ageTick _ => {}
  | .launchSelect _ => {}
  | .namedCrewStart _ => {}
  | .hintDeadline _ => {}
  | .saveComplete _ => {}
  | .restore _ _ => {}
  | .deliveryArrive _ => {}
  | .deliveryLand _ => {}
  | .deliveryResend _ => {}
  | .deliveryAck _ => {}
  | .nameRelease _ => {}
  | .holdWatchdog => {}
  | .recomputeStart _ _ _ _ => {}
  | .recomputeComplete _ _ => {}
  | .recomputeFail _ _ => {}
  | .sealedTileError _ _ => {}
  | .softError _ _ _ _ => {}
  | .fabricPacketReceive _ _ => {}
  | .e2eTimeout _ _ => {}
  | .e2eAck _ _ => {}
  | .routeDetour _ => {}
  | .linkTrain _ _ => {}
  | .hostWindowWrite _ _ _ => {}
  | .hostWindowRead _ _ _ => {}
  | .createContext _ _ _ => {}
  | .teardown _ _ => {}
  | .writeCcb _ _ _ => {}
  | .setQuota _ _ _ => {}
  | .bindPeer _ _ _ _ _ => {}
  | .bindTenant _ _ _ => {}
  | .readCounter _ => {}
  | .updateFirmware _ _ _ => {}
  | .lifecycleToken _ _ => {}
  | .thermalSample _ _ => {}
  | .stepFall => {}
  | .clockStepChange => {}
  | .lynxRestart => {}
  | .powerGood _ _ _ => {}
  | .voltageOutOfRange _ => {}
  | .wipeComplete => {}
  | .storeComplete _ _ => {}
  | .badCommand _ => {}

end Sys2Proof.Machine
end

