-- ==== Sys2Proof/Machine/Flags.lean ====
section
/-! DEFINITION. The flag bits of flg (R81), the rounding modes (R77, R141), and the two directions in which a value is rounded (R83). -/
namespace Sys2Proof.Machine

/-- The flag bits of R81. -/
def flagNv : Word := 1
def flagDz : Word := 2
def flagOf : Word := 4
def flagUf : Word := 8
def flagNx : Word := 16
def flagSat : Word := 32
def flagTcode : Word := 64
def flagPoison : Word := 128
def flagDlvdrop : Word := 256

/-- A flag raised or not. -/
def flagIf (b : Bool) (f : Word) : Word := if b then f else 0

/-- A rounding mode (R77). -/
inductive Rounding where
  | rne | rtz | rup | rdn | rna
deriving DecidableEq, Repr

/-- fmt.round as a mode; fmt never holds a reserved code (R79). -/
def roundOfFmt (f : Word) : Rounding :=
  match fmtRound f with
  | 0 => .rne
  | 1 => .rtz
  | 2 => .rup
  | 3 => .rdn
  | _ => .rna

/-- R141: the governing mode. -/
def governing (f : Word) (r : Rnd) : Rounding :=
  match r with
  | .fmt => roundOfFmt f
  | .rne => .rne
  | .rtz => .rtz
  | .rup => .rup
  | .rdn => .rdn
  | .rna => .rna

/-- R83: whether a magnitude whose remainder is `r` of `b` goes up to the next integer; `odd` tells the parity of the integer below. -/
def roundsUp (mode : Rounding) (neg odd : Bool) (r b : Nat) : Bool :=
  r != 0 &&
  match mode with
  | .rne => decide (b < 2 * r) || (2 * r == b && odd)
  | .rna => decide (b ≤ 2 * r)
  | .rtz => false
  | .rup => !neg
  | .rdn => neg

/-- The magnitude num / den × 2^sh rounded to an integer, and whether that is inexact. -/
def roundRatio (mode : Rounding) (neg : Bool) (num den : Nat) (sh : Int) : Nat × Bool :=
  let a := if 0 ≤ sh then num * 2 ^ sh.toNat else num
  let b := if 0 ≤ sh then den else den * 2 ^ (-sh).toNat
  let q := a / b
  let r := a % b
  (if roundsUp mode neg (q % 2 == 1) r b then q + 1 else q, r != 0)

/-- R83: whether an overflow gives an infinity. -/
def overflowsToInf (mode : Rounding) (neg : Bool) : Bool :=
  match mode with
  | .rne | .rna => true
  | .rtz => false
  | .rup => !neg
  | .rdn => neg

end Sys2Proof.Machine
end

