-- ==== Sys2Proof/Machine/FloatFmt.lean ====
section
/-! DEFINITION. Number formats as exact values: reading, rounding, arithmetic and conversion (R72 to R76, R83 to R89, R146 to R151). -/
namespace Sys2Proof.Machine

/-- A floating-point format (R72): its exponent and fraction widths, its bias, its largest finite value, and whether it is E4M3, which has no infinity
(R73). -/
structure FFmt where
  e : Nat
  p : Nat
  bias : Nat
  max : Nat
  e4m3 : Bool := false
deriving DecidableEq, Repr

/-- R72, R73. -/
def fp32 : FFmt := { e := 8, p := 23, bias := 127, max := (2 ^ 24 - 1) * 2 ^ 104 }
def fp16 : FFmt := { e := 5, p := 10, bias := 15, max := 65504 }
def bf16 : FFmt := { e := 8, p := 7, bias := 127, max := (2 ^ 8 - 1) * 2 ^ 120 }
def e4m3 : FFmt := { e := 4, p := 3, bias := 7, max := 448, e4m3 := true }
def e5m2 : FFmt := { e := 5, p := 2, bias := 15, max := 57344 }

/-- The bits of a format. -/
def FFmt.width (f : FFmt) : Nat := 1 + f.e + f.p

/-- A value: a NaN, an infinity, or (-1)^neg × m × 2^e. -/
inductive FVal where
  | nan (signalling : Bool)
  | inf (neg : Bool)
  | fin (neg : Bool) (m : Nat) (e : Int)
deriving DecidableEq, Repr

/-- A sign bit in place. -/
def FFmt.signBit (f : FFmt) (neg : Bool) : Nat := b2n neg * 2 ^ (f.e + f.p)

/-- The canonical NaN of a format (R74). -/
def FFmt.nanBits (f : FFmt) : Nat := if f.e4m3 then 0x7F else (2 ^ f.e - 1) * 2 ^ f.p + 2 ^ (f.p - 1)

/-- The code of an infinity; ±448 in E4M3 (R87). -/
def FFmt.infBits (f : FFmt) (neg : Bool) : Nat := f.signBit neg + (if f.e4m3 then 0x7E else (2 ^ f.e - 1) * 2 ^ f.p)

/-- The code of the largest finite value. -/
def FFmt.maxBits (f : FFmt) (neg : Bool) : Nat := f.signBit neg + (if f.e4m3 then 0x7E else (2 ^ f.e - 1) * 2 ^ f.p - 1)

/-- The value of a code, subnormals read as zeros with `zsi` (R72, R73, R84). -/
def readFloat (f : FFmt) (zsi : Bool) (x : Nat) : FVal :=
  let neg := bitN x (f.e + f.p)
  let ef := bitsN x f.p f.e
  let fr := bitsN x 0 f.p
  if f.e4m3 && ef == 15 && fr == 7 then .nan false
  else if !f.e4m3 && ef == 2 ^ f.e - 1 then (if fr = 0 then .inf neg else .nan (!bitN fr (f.p - 1)))
  else if ef = 0 then .fin neg (if zsi then 0 else fr) (1 - (f.bias : Int) - f.p)
  else .fin neg (2 ^ f.p + fr) ((ef : Int) - f.bias - f.p)

/-- Whether n × 2^q exceeds a limit. -/
def exceeds (n : Nat) (q : Int) (lim : Nat) : Bool :=
  if 0 ≤ q then decide (lim < n * 2 ^ q.toNat) else decide (lim * 2 ^ (-q).toNat < n)

/-- The exponent of the leading bit of num / den, both above zero. -/
def leadExp (num den : Nat) : Int :=
  let k : Int := (Nat.log2 num : Int) - Nat.log2 den
  let low := if 0 ≤ k then num < den * 2 ^ k.toNat else num * 2 ^ (-k).toNat < den
  if low then k - 1 else k

/-- R83, R84, R87: the code and flags of the non-zero value ±num / den × 2^e rounded once. A finite value that saturates to 448 sets nx beside sat, also
where it lies exactly on one of the steps of 32 above 448, for which R87 names sat alone (DESIGN CHOICE, log 89). -/
def roundTo (f : FFmt) (fsr : Bool) (mode : Rounding) (neg : Bool) (num den : Nat) (e : Int) : Nat × Word :=
  let lead := leadExp num den + e
  let emin : Int := 1 - (f.bias : Int)
  let free := roundRatio mode neg num den (e - (lead - f.p))
  let tiny := decide (lead + (if 2 ^ (f.p + 1) ≤ free.1 then 1 else 0) < emin)
  let q := (if lead < emin then emin else lead) - f.p
  let r := roundRatio mode neg num den (e - q)
  if exceeds r.1 q f.max then
    if f.e4m3 then (f.maxBits neg, flagSat ||| flagNx)
    else ((if overflowsToInf mode neg then f.infBits neg else f.maxBits neg), flagOf ||| flagNx)
  else if fsr && r.1 != 0 && decide (r.1 < 2 ^ f.p) then (f.signBit neg, flagUf ||| flagNx)
  else (f.signBit neg + (q + f.p + f.bias - 1).toNat * 2 ^ f.p + r.1, flagIf r.2 flagNx ||| flagIf (tiny && r.2) flagUf)

/-- A value as a code of a format, rounded once (R74, R83, R87). -/
def packFloat (f : FFmt) (fsr : Bool) (mode : Rounding) : FVal → Nat × Word
  | .nan s => (f.nanBits, flagIf s flagNv)
  | .inf neg => (f.infBits neg, flagIf f.e4m3 flagSat)
  | .fin neg m e => if m = 0 then (f.signBit neg, 0) else roundTo f fsr mode neg m 1 e

/-! ### Arithmetic -/

/-- Whether a value is a NaN, and a signalling one. -/
def FVal.isNan : FVal → Bool
  | .nan _ => true
  | _ => false
def FVal.isSig : FVal → Bool
  | .nan s => s
  | _ => false

/-- Whether a value is an infinity, and a zero. -/
def FVal.isInf : FVal → Bool
  | .inf _ => true
  | _ => false
def FVal.isZero : FVal → Bool
  | .fin _ m _ => m == 0
  | _ => false

/-- The sign of a value that is no NaN. -/
def FVal.neg : FVal → Bool
  | .nan _ => false
  | .inf n => n
  | .fin n _ _ => n

/-- The value with its sign turned. -/
def FVal.negate : FVal → FVal
  | .nan s => .nan s
  | .inf n => .inf (!n)
  | .fin n m e => .fin (!n) m e

/-- The magnitude of a value. -/
def FVal.abs : FVal → FVal
  | .nan s => .nan s
  | .inf _ => .inf false
  | .fin _ m e => .fin false m e

/-- A finite value as an integer times 2^e, for an e not above its own exponent. -/
def FVal.scaled (e : Int) : FVal → Int
  | .fin n m x => (if n then -1 else 1) * (m * 2 ^ (x - e).toNat : Nat)
  | _ => 0

/-- The exponent of a finite value. -/
def FVal.expo : FVal → Int
  | .fin _ _ e => e
  | _ => 0

/-- The exact product of two values without the case 0 × ∞. -/
def mulExact (x y : FVal) : FVal :=
  match x, y with
  | .fin a m e, .fin b n k => .fin (a != b) (m * n) (e + k)
  | x, y => .inf (x.neg != y.neg)

/-- An integer times 2^e as a value; `zneg` is the sign of a zero. -/
def ofScaled (zneg : Bool) (i e : Int) : FVal := if i = 0 then .fin zneg 0 e else .fin (decide (i < 0)) i.natAbs e

/-- The exact sum of two values that are no NaNs and no opposite infinities (R83, R146). -/
def addExact (mode : Rounding) (x y : FVal) : FVal :=
  match x, y with
  | .fin a m e, .fin b n k =>
    let lo := if e ≤ k then e else k
    ofScaled (if m == 0 && n == 0 && a == b then a else mode == .rdn) ((FVal.fin a m e).scaled lo + (FVal.fin b n k).scaled lo) lo
  | .inf a, _ => .inf a
  | _, y => y

/-- The canonical NaN. -/
def nanResult (f : FFmt) (nv : Bool) : Nat × Word := (f.nanBits, flagIf nv flagNv)

/-- R145, R146: a sum rounded once. -/
def addFloat (f : FFmt) (fsr : Bool) (mode : Rounding) (x y : FVal) : Nat × Word :=
  if x.isNan || y.isNan then nanResult f (x.isSig || y.isSig)
  else if x.isInf && y.isInf && x.neg != y.neg then nanResult f true
  else packFloat f fsr mode (addExact mode x y)

/-- Whether a product is 0 × ∞. -/
def zeroTimesInf (x y : FVal) : Bool := (x.isInf && y.isZero) || (x.isZero && y.isInf)

/-- R145, R146: a product rounded once. -/
def mulFloat (f : FFmt) (fsr : Bool) (mode : Rounding) (x y : FVal) : Nat × Word :=
  if x.isNan || y.isNan then nanResult f (x.isSig || y.isSig)
  else if zeroTimesInf x y then nanResult f true
  else packFloat f fsr mode (mulExact x y)

/-- R145, R146: a multiply-add rounded once. -/
def fmaFloat (f : FFmt) (fsr : Bool) (mode : Rounding) (x y z : FVal) : Nat × Word :=
  if !x.isNan && !y.isNan && zeroTimesInf x y then nanResult f true
  else if x.isNan || y.isNan || z.isNan then nanResult f (x.isSig || y.isSig || z.isSig)
  else addFloat f fsr mode (mulExact x y) z

/-- Whether x < y, and whether x = y, for values that are no NaNs; the zeros are equal. -/
def ltFloat (x y : FVal) : Bool :=
  match x, y with
  | .fin a m e, .fin b n k =>
    let lo := if e ≤ k then e else k
    decide ((FVal.fin a m e).scaled lo < (FVal.fin b n k).scaled lo)
  | .inf a, .inf b => a && !b
  | .inf a, _ => a
  | _, y => !y.neg
def eqFloat (x y : FVal) : Bool := !ltFloat x y && !ltFloat y x

/-- R147: the smaller (`least`) or larger of two values; -0 counts as less than +0. -/
def minmaxFloat (least : Bool) (f : FFmt) (fsr : Bool) (x y : FVal) : Nat × Word :=
  let nv := x.isSig || y.isSig
  let pick := fun (v : FVal) => let r := packFloat f fsr .rne v; (r.1, r.2 ||| flagIf nv flagNv)
  if x.isNan && y.isNan then nanResult f nv
  else if x.isNan then pick y
  else if y.isNan then pick x
  else
    let xFirst := if eqFloat x y then x.neg || !y.neg else ltFloat x y
    pick (if xFirst == least then x else y)

/-- R148: the result of a comparison and nv. -/
def compareFloat (c : FCond) (x y : FVal) : Bool × Word :=
  let nan := x.isNan || y.isNan
  let sig := x.isSig || y.isSig
  match c with
  | .eq => (!nan && eqFloat x y, flagIf sig flagNv)
  | .ne => (nan || !eqFloat x y, flagIf sig flagNv)
  | .lt => (!nan && ltFloat x y, flagIf nan flagNv)
  | .le => (!nan && !ltFloat y x, flagIf nan flagNv)
  | .gt => (!nan && ltFloat y x, flagIf nan flagNv)
  | .ge => (!nan && !ltFloat x y, flagIf nan flagNv)
  | .num => (!nan, flagIf sig flagNv)
  | .nan => (nan, flagIf sig flagNv)

/-! ### Reciprocal, root, exponential, logarithm (R150, R151) -/

/-- The value just above n × 2^e: it rounds as every value strictly between n × 2^e and (n + 1) × 2^e does, n having more bits than any
format. -/
def roundSticky (f : FFmt) (fsr : Bool) (mode : Rounding) (neg : Bool) (n : Nat) (e : Int) : Nat × Word :=
  roundTo f fsr mode neg (2 * n + 1) 1 (e - 1)

/-- R150, R151. -/
def rcpFloat (fsr : Bool) (mode : Rounding) (x : FVal) : Nat × Word :=
  match x with
  | .nan s => nanResult fp32 s
  | .inf n => (fp32.signBit n, 0)
  | .fin n m e => if m = 0 then (fp32.infBits n, flagDz) else roundTo fp32 fsr mode n 1 m (-e)

/-- The integer square root, found bit by bit from bit `k - 1` down. -/
def isqrt (x : Nat) : Nat → Nat
  | 0 => 0
  | k + 1 =>
    let hi := isqrt (x / 4) k
    if (2 * hi + 1) * (2 * hi + 1) ≤ x then 2 * hi + 1 else 2 * hi

/-- R150, R151: the root of 2^120 / m is formed as an integer with more than 40 bits; it is exact only where m is an even power of two. -/
def rsqFloat (fsr : Bool) (mode : Rounding) (x : FVal) : Nat × Word :=
  match x with
  | .nan s => nanResult fp32 s
  | .inf n => if n then nanResult fp32 true else (0, 0)
  | .fin n m e =>
    if m = 0 then (fp32.infBits n, flagDz)
    else if n then nanResult fp32 true
    else
      let m' := if e % 2 = 0 then m else 2 * m
      let e' := if e % 2 = 0 then e else e - 1
      let r := isqrt (2 ^ 160 / m') 81
      if r * r * m' = 2 ^ 160 then roundTo fp32 fsr mode false r 1 (-80 - e' / 2)
      else roundSticky fp32 fsr mode false r (-80 - e' / 2)

/-- Bits after the point of the fixed-point numbers of FEXP2. -/
def expBits : Nat := 400

/-- ln 2 in fixed point: the sum of 1 / (k 2^k). -/
def ln2Fixed : Nat := (List.range 410).foldl (fun s k => s + 2 ^ expBits / ((k + 1) * 2 ^ (k + 1))) 0

/-- The first `n` terms from term `k` on of the exponential series of t, `term` being term `k`. -/
def expSeries (t : Nat) : Nat → Nat → Nat → Nat
  | 0, _, _ => 0
  | n + 1, k, term => term + expSeries t n (k + 1) (term * t / 2 ^ expBits / (k + 1))

/-- 2^(a / b) in fixed point with 300 bits after the point, for 0 < a < b. -/
def exp2Fixed (a b : Nat) : Nat := expSeries (ln2Fixed * a / b) 110 0 (2 ^ expBits) / 2 ^ (expBits - 300)

/-- R150, R151. An argument of 128 or more overflows; one below -200 lies under half of every subnormal. -/
def exp2Float (fsr : Bool) (mode : Rounding) (x : FVal) : Nat × Word :=
  match x with
  | .nan s => nanResult fp32 s
  | .inf n => if n then (0, 0) else (fp32.infBits false, 0)
  | .fin n m e =>
    let b : Nat := if 0 ≤ e then 1 else 2 ^ (-e).toNat
    let a : Int := (if n then -1 else 1) * (if 0 ≤ e then m * 2 ^ e.toNat else m : Nat)
    let i := a / b
    if 128 ≤ i then roundTo fp32 fsr mode false 1 1 200
    else if i < -200 then roundTo fp32 fsr mode false 1 1 (-300)
    else if a % b = 0 then roundTo fp32 fsr mode false 1 1 i
    else roundSticky fp32 fsr mode false (exp2Fixed (a % b).toNat b) (i - 300)

/-- Bits after the point of the fixed-point numbers of FLOG2. -/
def logBits : Nat := 700

/-- The first `n` bits after the point of log2 of y / 2^700, for a y from 1 up to 2: each squaring brings one bit. -/
def logSeries : Nat → Nat → Nat → Nat
  | 0, _, acc => acc
  | n + 1, y, acc =>
    let z := y * y / 2 ^ logBits
    if 2 ^ (logBits + 1) ≤ z then logSeries n (z / 2) (2 * acc + 1) else logSeries n z (2 * acc)

/-- R150, R151. -/
def log2Float (fsr : Bool) (mode : Rounding) (x : FVal) : Nat × Word :=
  match x with
  | .nan s => nanResult fp32 s
  | .inf n => if n then nanResult fp32 true else (fp32.infBits false, 0)
  | .fin n m e =>
    if m = 0 then (fp32.infBits true, flagDz)
    else if n then nanResult fp32 true
    else
      let k := Nat.log2 m
      let E : Int := k + e
      if m = 2 ^ k then packFloat fp32 fsr mode (ofScaled false E 0)
      else
        let v := E * 2 ^ 301 + (2 * logSeries 300 (m * 2 ^ logBits / 2 ^ k) 0 + 1 : Nat)
        roundTo fp32 fsr mode (decide (v < 0)) v.natAbs 1 (-301)

/-! ### Conversions (R85 to R89) -/

/-- The floating-point format of an element format. -/
def ffmtOf (e : Elem) : Option FFmt :=
  match e with
  | .f32 => some fp32
  | .f16 => some fp16
  | .bf16 => some bf16
  | .e4m3 => some e4m3
  | .e5m2 => some e5m2
  | _ => none

/-- The range of an integer format (R75); -1 to 1 for T2 (R88). -/
def intRange (e : Elem) : Int × Int :=
  match e with
  | .t2 => (-1, 1)
  | e => (-(2 ^ (e.width - 1) : Nat), (2 ^ (e.width - 1) : Nat) - 1)

/-- The value of a code of an integer format (R75, R76). -/
def readInt (e : Elem) (x : Nat) : Int :=
  match e with
  | .t2 => match x % 4 with | 1 => 1 | 3 => -1 | _ => 0
  | e => let w := e.width; let y := x % 2 ^ w; if y < 2 ^ (w - 1) then y else (y : Int) - (2 ^ w : Nat)

/-- The code of an integer of a format's range. -/
def intBits (e : Elem) (x : Int) : Nat := (x % (2 ^ e.width : Nat)).toNat

/-- An integer saturated into a format (R88, R89). -/
def saturate (e : Elem) (x : Int) : Nat × Word :=
  let r := intRange e
  if x < r.1 then (intBits e r.1, flagSat) else if r.2 < x then (intBits e r.2, flagSat) else (intBits e x, 0)

/-- R88, R89: the value ±num / den × 2^e rounded to an integer format. -/
def toInt (dst : Elem) (mode : Rounding) (neg : Bool) (num den : Nat) (e : Int) : Nat × Word :=
  let r := roundRatio mode neg num den e
  let s := saturate dst (if neg then -(r.1 : Int) else r.1)
  (s.1, s.2 ||| flagIf r.2 flagNx)

/-- The value of a code of any format. -/
def readValue (src : Elem) (zsi : Bool) (x : Nat) : FVal :=
  match ffmtOf src with
  | some f => readFloat f zsi x
  | none => ofScaled false (readInt src x) 0

/-- A value converted into a format (R85). -/
def packValue (dst : Elem) (fsr : Bool) (mode : Rounding) (v : FVal) : Nat × Word :=
  match ffmtOf dst with
  | some f => packFloat f fsr mode v
  | none =>
    match v with
    | .nan _ => (0, flagNv)
    | .inf n => (intBits dst (if n then (intRange dst).1 else (intRange dst).2), flagSat)
    | .fin n m e => toInt dst mode n m 1 e

/-- R85: the conversion of a code, with the flags; a T2 source of code 0b10 sets tcode (R76). -/
def convert (src dst : Elem) (zsi fsr : Bool) (mode : Rounding) (x : Nat) : Nat × Word :=
  let r := packValue dst fsr mode (readValue src zsi x)
  (r.1, r.2 ||| flagIf (src == .t2 && x % 4 == 2) flagTcode)

end Sys2Proof.Machine
end

