-- ==== Sys2Proof/Machine/Atomic.lean ====
section
/-! DEFINITION. The operations of atomics and reductions (R175, R176). -/
namespace Sys2Proof.Machine

/-- A sum of two floating-point encodings, rounded once under fmt (R176). -/
def atomAdd (f : FFmt) (fmt : Word) (m x : Nat) : Nat :=
  (addFloat f (fmtFsr fmt) (roundOfFmt fmt) (readFloat f (fmtZsi fmt) m) (readFloat f (fmtZsi fmt) x)).1

/-- The smaller or larger of two binary32 encodings, as FMIN and FMAX (R147). -/
def atomMinMax (least : Bool) (fmt : Word) (m x : Nat) : Nat :=
  (minmaxFloat least fp32 (fmtFsr fmt) (readFloat fp32 (fmtZsi fmt) m) (readFloat fp32 (fmtZsi fmt) x)).1

/-- Half `h` of a packed sum (R176). -/
def addHalf (f : FFmt) (fmt : Word) (m x : Nat) (h : Nat) : Nat := atomAdd f fmt (bitsN m (16 * h) 16) (bitsN x (16 * h) 16)

/-- The format of the halves of a packed operation, if it is one. -/
def halvesOf : AOp → Option FFmt
  | .addBf16x2 => some bf16
  | .addF16x2 => some fp16
  | _ => none

/-- The smaller or larger of two words as signed numbers. -/
def pickSigned (least : Bool) (w m x : Nat) : Nat :=
  let a := (BitVec.ofNat w m).toInt
  let b := (BitVec.ofNat w x).toInt
  if (if least then decide (b < a) else decide (a < b)) then x else m

/-- R175: the value that an operation puts at an address that holds `m`, with operand `x` and, for compare and swap, `y`. -/
def applyOp (op : AOp) (fmt : Word) (m x y : Nat) : Nat :=
  match op with
  | .addU32 => (m + x) % 2 ^ 32
  | .addU64 => (m + x) % 2 ^ 64
  | .minS32 => pickSigned true 32 m x
  | .maxS32 => pickSigned false 32 m x
  | .minS64 => pickSigned true 64 m x
  | .maxS64 => pickSigned false 64 m x
  | .minU32 | .minU64 => min m x
  | .maxU32 | .maxU64 => max m x
  | .and32 | .and64 => m &&& x
  | .or32 | .or64 => m ||| x
  | .xor32 | .xor64 => m ^^^ x
  | .exch32 | .exch64 => x
  | .cas32 | .cas64 => if m = x then y else m
  | .addF32 => atomAdd fp32 fmt m x
  | .addBf16x2 => addHalf bf16 fmt m x 0 + 65536 * addHalf bf16 fmt m x 1
  | .addF16x2 => addHalf fp16 fmt m x 0 + 65536 * addHalf fp16 fmt m x 1
  | .minF32 => atomMinMax true fmt m x
  | .maxF32 => atomMinMax false fmt m x

end Sys2Proof.Machine
end

