-- ==== Sys2Proof/Config.lean ====
section
/-! DEFINITION. What an implementation fixes and the spec leaves open: constants without a body, so that no proof can see their values. -/
namespace Sys2Proof

/-- R446: the hash functions of the signatures are not architected. Whether, in signature field `field`, the bit of a written key and the bit
of a read key coincide although the keys differ. Equal keys always coincide. (Log 9.) -/
opaque Config.sigAlias (field : Nat) (written read : Nat) : Bool

/-- A value the spec does not state, drawn afresh each time: applied to the counter `fresh` of the state. (Log 3.) -/
opaque Config.freeWord (n : Nat) : Word

/-- A bit the spec does not state, drawn afresh each time: applied to the counter `fresh` of the state. (Log 3.) -/
opaque Config.freeBit (n : Nat) : Bool

end Sys2Proof
end

