-- ==== Sys2Proof/Machine/Chunk.lean ====
section
/-! DEFINITION. Access to the parts of the state, and chunks: signatures, opening, closing, squashing (R445 to R456). -/
namespace Sys2Proof.Machine

/-- The group at a key; a blank group where none is. -/
def State.grp (s : State) (k : Nat) : Group := getT {} s.groups k

/-- The state with a group written. -/
def State.setGrp (s : State) (k : Nat) (g : Group) : State := { s with groups := setT s.groups k g }

/-- The group whose instruction runs. -/
def State.me (s : State) : Group := s.grp s.cur

/-- The state with the running group written. -/
def State.setMe (s : State) (g : Group) : State := s.setGrp s.cur g

/-- The core 16 y + x. -/
def State.core (s : State) (c : Nat) : Core := getT {} s.cores c

/-- The state with a core written. -/
def State.setCore (s : State) (c : Nat) (x : Core) : State := { s with cores := setT s.cores c x }

/-- The context of a number. -/
def State.ctx (s : State) (c : Nat) : Context := getT {} s.ctxs c

/-- The state with a context written. -/
def State.setCtx (s : State) (c : Nat) (x : Context) : State := { s with ctxs := setT s.ctxs c x }

/-- The key of a performance counter: context, core and code (R214). -/
def ctrKey (ctx core code : Nat) : Nat := (ctx * 256 + core) * 65536 + code

/-- A counter raised, modulo 2^64 (R214). -/
def State.count (s : State) (ctx core code n : Nat) : State :=
  { s with ctr := setT s.ctr (ctrKey ctx core code) ((getT 0 s.ctr (ctrKey ctx core code) + n) % 2 ^ 64) }

/-- A counter of the running group's core and context raised. -/
def State.countMe (s : State) (code n : Nat) : State := s.count s.me.place.ctx s.me.place.core code n

/-- A number for a key (R446). -/
def Key.num : Key → Nat
  | .glob l => 2 * l
  | .loc c l => 2 * (8192 * c + l) + 1

/-- R446: a write signature overlaps a read signature when the two share a set bit in each of the four fields. -/
def sigOverlap (wr rd : List Key) : Bool :=
  (List.range 4).all fun f => wr.any fun w => rd.any fun r => w == r || Config.sigAlias f w.num r.num

/-- The uncommitted chunks of a group, oldest first (R447). -/
def Group.chunks (g : Group) : List Chunk := g.clo.toList ++ g.opn.toList

/-- Whether a chunk holds an instruction. -/
def Chunk.busy (c : Chunk) : Bool := c.count != 0

/-- Whether the group has an uncommitted chunk with an instruction in it. -/
def Group.uncommitted (g : Group) : Bool := g.clo.isSome || g.opn.any Chunk.busy

/-- The local line of a local address (R446). -/
def locKey (core a : Nat) : Key := .loc core (a / 128)

/-- The line of a physical address (R446). -/
def lineOf (pa : Nat) : Nat := pa / 128

/-- The distinct 16-byte rows of a chunk's undo log (R446). -/
def Chunk.rows (c : Chunk) : Nat := (c.undo.map fun e => e.1 / 16).eraseDups.length

/-- The words of the checkpoint store a chunk uses (R446): a register by its tag, a row 5. -/
def Chunk.words (sh : BitVec 256) (c : Chunk) : Nat :=
  (c.wrote.map fun r => (tagOf sh r).words).sum + 5 * c.rows

/-- The words in use in the checkpoint store of a lane (R446); a recompute context's group shares its lane's store. -/
def laneWords (s : State) (core lane : Nat) : Nat :=
  (s.groups.map fun e =>
    if e.2.live && e.2.place.core == core && e.2.place.lane == lane
    then (e.2.chunks.map (Chunk.words e.2.place.shape)).sum else 0).sum

/-- The open chunk of a group, opened if nothing has issued since the last close (R445). It starts with the group's limit, or, as the rerun of a
squashed chunk, with what that chunk has come to (R109, R447, R455, R456). -/
def openChunk (g : Group) : Group :=
  match g.opn with
  | some _ => g
  | none =>
    let run := g.again.getD (0, g.regs.lim, none)
    { g with
      cno := g.cno + 1, again := none
      opn := some { no := g.cno + 1, start := g.pc, ckpt := g.regs, sq := run.1, lim := run.2.1, resv := run.2.2 } }

/-- A change to the open chunk, if there is one. -/
def Group.onOpen (g : Group) (f : Chunk → Chunk) : Group := { g with opn := g.opn.map f }

/-- R445, R447: the open chunk closes. One without instructions leaves nothing; while an older chunk is uncommitted the close waits. -/
def closeChunk (g : Group) : Group :=
  match g.opn with
  | none => g
  | some c =>
    if c.busy then
      match g.clo with
      | none => { g with clo := some c, opn := none }
      | some _ => { g with closeReq := true }
    else { g with opn := none }

/-- The L1 that holds a line for a core: its own, or the member of its fused cluster (R222, R225). -/
def l1Home (s : State) (core line : Nat) : Nat :=
  if (s.core core).fused then
    16 * (core / 16 / 2 * 2 + line % 8 / 4) + (core % 16 / 4 * 4 + line % 4)
  else core

/-- The lines of a group's chunks that stay SpecDirty when only the chunks in `left` remain. -/
def dirtyLines (cs : List Chunk) : List Nat := (cs.map fun c => c.sd.map Prod.fst).flatten

/-- R453: SpecDirty lines of a group become Invalid. -/
def dropLines (s : State) (k core : Nat) (lines : List Nat) : State :=
  lines.foldl (fun s l =>
    let h := l1Home s core l
    let c := s.core h
    s.setCore h { c with l1 := c.l1.filter fun x => !(x.line == l && x.owner == some k) }) s

/-- A byte of local memory written without further effect, with its block's initialised bit set (R172). -/
def pokeLocal (c : Core) (a : Nat) (b : Byte) : Core :=
  { c with lm := writeByte c.lm a b, inited := c.inited ||| BitVec.ofNat 256 (2 ^ (a / 4096)) }

/-- R453: an undo log written back. -/
def undoAll (c : Core) (u : List (Nat × Byte)) : Core :=
  u.foldl (fun c e => { c with lm := writeByte c.lm e.1 e.2 }) c

/-- R206: where a clause has ended, a throttled lane is to idle for as long as the clause has held it. -/
def throttled (thr : Bool) (g : Group) : Group :=
  if g.clause.isNone then { g with idle := if thr then g.idle + g.held else g.idle, held := 0 } else g

/-- A group that slept at the end of its clause goes on at the next one; the clause's yield bit acts now (R57). -/
def wakeNext (k : Nat) (s : State) : State :=
  let g := s.grp k
  s.setGrp k { g with status := .waiting, yielded := g.yielded || g.wakeYield, wakeYield := false }

/-- R455: the effective limit after a squash that counts. -/
def halve (sq lim : Nat) : Nat := if sq % 4 = 0 then max 1 (lim / 2) else lim

/-- R452, R453, R455: the chunk `no` of group `k` and every later one squashed; `counts` is false for the squash of R435. The group reruns
from the older chunk's first instruction. -/
def squash (counts : Bool) (k no : Nat) (s : State) : State :=
  let g := s.grp k
  let gone := g.chunks.filter fun c => decide (no ≤ c.no)
  match gone with
  | [] => s
  | c0 :: _ =>
    let keep := g.chunks.filter fun c => decide (c.no < no)
    let kept := dirtyLines keep
    let s := dropLines s k g.place.core ((dirtyLines gone).filter fun l => !kept.contains l)
    let s := s.setCore g.place.core (gone.reverse.foldl (fun c ch => undoAll c ch.undo) (s.core g.place.core))
    let sq := if counts then c0.sq + 1 else c0.sq
    let lim := if counts then halve sq c0.lim else c0.lim
    let reserve := lim == 1 && c0.resv.isNone
    let g' : Group := { g with
      regs := c0.ckpt, pc := c0.start, entry := .rerun, clause := none, hold := none, pend := none, closeReq := false, exiting := false, xlate := []
      opn := none
      clo := g.clo.filter fun c => decide (c.no < no)
      loads := (g.loads.filter fun l => decide (l.chunk < no)).map fun l =>
        { l with newer := l.newer.filter fun e => decide (e.2 < no) }
      stores := g.stores.filter fun x => decide (x.chunk < no)
      again := some (sq, lim, if reserve then some s.resvs else c0.resv)
      status := match g.status with
        | .suspended .stopped => .suspended .stopped
        | _ => .waiting }
    let s := { s with resvs := if reserve then s.resvs + 1 else s.resvs }
    (s.setGrp k (throttled (s.core g.place.core).thr g')).count g.place.ctx g.place.core 0x202 1

/-- Every uncommitted chunk of a group squashed. -/
def squashAll (counts : Bool) (k : Nat) (s : State) : State :=
  match (s.grp k).chunks with
  | [] => s
  | c :: _ => squash counts k c.no s

/-- R449, R452: every uncommitted chunk of a group other than `k` whose read signature overlaps the written keys is squashed. -/
def broadcast (k : Nat) (keys : List Key) (s : State) : State :=
  s.groups.foldl (fun s e =>
    if e.1 == k then s else
    match e.2.chunks.find? fun c => sigOverlap keys c.rd with
    | some c => squash true e.1 c.no s
    | none => s) s

/-- R456: whether a commit or point write of group `k` with these keys must wait for a reserved chunk of another group; `mine` is the
reservation number of the writer's own chunk, if it has one, and `bytes` are the local bytes of `core` a point write covers. -/
def heldByReserved (s : State) (k : Nat) (mine : Option Nat) (keys : List Key) (core : Nat) (bytes : List Nat) : Bool :=
  s.groups.any fun e =>
    e.1 != k && e.2.live && e.2.chunks.any fun c =>
      match c.resv with
      | none => false
      | some n =>
        (match mine with | some m => decide (n < m) | none => true) &&
        (sigOverlap keys c.rd || (e.2.place.core == core && bytes.any fun a => c.undo.any fun u => u.1 == a))

/-- R451: every uncommitted chunk whose undo log holds one of the written bytes of the core's local memory is squashed. -/
def squashUndo (k core : Nat) (bytes : List Nat) (s : State) : State :=
  s.groups.foldl (fun s e =>
    if e.1 == k || e.2.place.core != core then s else
    match e.2.chunks.find? fun c => c.undo.any fun u => bytes.contains u.1 with
    | some c => squash true e.1 c.no s
    | none => s) s

/-- R451: a point write to local memory. -/
def pointLocal (k core a : Nat) (bs : List Byte) (s : State) : State :=
  let addrs := (List.range bs.length).map (a + ·)
  let s := squashUndo k core addrs s
  let s := broadcast k ((addrs.map (locKey core)).eraseDups) { s with grants := s.grants + 1 }
  s.setCore core ((addrs.zip bs).foldl (fun c e => pokeLocal c e.1 e.2) (s.core core))

/-- R171: a local byte as another group than `k` may see it: the committed value where another group's uncommitted chunk has written it. -/
def readLocalFor (s : State) (k core a : Nat) : Byte :=
  match s.groups.findSome? fun e =>
    if e.1 == k || e.2.place.core != core then none
    else e.2.chunks.findSome? fun c => (c.undo.find? fun u => u.1 == a).map Prod.snd with
  | some b => b
  | none => readByte (s.core core).lm a

/-- Bytes of local memory as `readLocalFor` gives them. -/
def readLocalBytes (s : State) (k core a n : Nat) : List Byte :=
  (List.range n).map fun i => readLocalFor s k core (a + i)

/-- R171: the uncommitted chunk of another group that has written one of these local bytes, if any: group and chunk number. -/
def localConflict (s : State) (k core : Nat) (bytes : List Nat) : Option (Nat × Nat) :=
  s.groups.findSome? fun e =>
    if e.1 == k || e.2.place.core != core then none
    else (e.2.chunks.find? fun c => c.undo.any fun u => bytes.contains u.1).map fun c => (e.1, c.no)

/-- R171: one byte written in place by the open chunk of group `k`, its old value entered in the undo log and its line in the write
signature. -/
def storeLocalByte (k core : Nat) (s : State) (e : Nat × Byte) : State :=
  let g := s.grp k
  let c := s.core core
  let old := readByte c.lm e.1
  let g := g.onOpen fun ch => { ch with
    undo := if (ch.undo.any fun u => u.1 == e.1) then ch.undo else (e.1, old) :: ch.undo
    wr := if ch.wr.contains (locKey core e.1) then ch.wr else locKey core e.1 :: ch.wr }
  (s.setGrp k g).setCore core (pokeLocal c e.1 e.2)

/-- Bytes written by the open chunk of group `k`; outside every chunk a point write (R123, R451). -/
def storeLocal (k core : Nat) (s : State) (a : Nat) (bs : List Byte) : State :=
  if (s.grp k).opn.isNone then pointLocal k core a bs s
  else (((List.range bs.length).map (a + ·)).zip bs).foldl (storeLocalByte k core) s

/-- R54: the outstanding stores of a group, instruction by instruction: those on their way to the L1, the streaming ones its chunks hold and those
released that their home slice has not taken. -/
def storesOut (s : State) (k : Nat) : Nat :=
  let g := s.grp k
  let isStore := fun (o : HeldOp) => match o with | .store _ => true | .red .. => false
  let held := (g.chunks.map fun c => (c.held.filter fun h => isStore h.op).map Held.ins).flatten
  let fl := (s.flights.filter fun f => f.grp == k && isStore f.op).map Flight.ins
  ((g.stores.map OutStore.ins) ++ held ++ fl).eraseDups.length

/-- Whether the group's open chunk holds a streaming store or a reduction. -/
def Group.holdsStore (g : Group) : Bool := g.opn.any fun c => !c.held.isEmpty

/-- R54: the reductions of a group that no commit has released yet. -/
def redsHeld (g : Group) : Nat :=
  (g.chunks.map fun c => (c.held.filter fun h => match h.op with | .red .. => true | .store _ => false).length).sum

/-- Flags ORed into flg and into the checkpoints of the chunks that began after chunk `no`; a group that has ended discards them (R82). Data of
a load of chunk `no` raises its flag so: a squash of that chunk takes it back (R81). -/
def orFlagsFrom (no k : Nat) (f : Word) (s : State) : State :=
  let g := s.grp k
  if g.live && g.status != .ended then
    let up := fun (r : Regs) => { r with flg := r.flg ||| f }
    let fix := fun (c : Chunk) => if no < c.no then { c with ckpt := up c.ckpt } else c
    s.setGrp k { g with regs := up g.regs, opn := g.opn.map fix, clo := g.clo.map fix }
  else s

/-- R446: a word of a register file changed where it stands, seen through the checkpoints: a chunk that has written register `r` holds its own copy. -/
def inCell (r : Reg) (f : Tab Word → Tab Word) (g : Group) : Group :=
  let new := g.opn.any fun c => c.wrote.contains r
  let up := fun (c : Chunk) => if c.wrote.contains r then c else { c with ckpt := { c.ckpt with v := f c.ckpt.v } }
  { g with regs := { g.regs with v := f g.regs.v }, opn := g.opn.map up, clo := if new then g.clo else g.clo.map up }

/-- R110, R360: flags ORed into flg and into the checkpoint copies; a group that has ended discards them (R82). -/
def orFlags (k : Nat) (f : Word) (s : State) : State :=
  let g := s.grp k
  if g.live && g.status != .ended then
    let up := fun (r : Regs) => { r with flg := r.flg ||| f }
    s.setGrp k { g with
      regs := up g.regs
      opn := g.opn.map fun c => { c with ckpt := up c.ckpt }
      clo := g.clo.map fun c => { c with ckpt := up c.ckpt } }
  else s

end Sys2Proof.Machine
end

