-- ==== Sys2Proof/Machine/MemOps.lean ====
section
/-! DEFINITION. Global memory: places, translation, caches and directory, point writes and watches (R4, R219 to R242, R451). -/
namespace Sys2Proof.Machine

/-- The compute die of a core 16 y + x (R4): an 8 by 8 quarter of the mesh. -/
def dieOf (core : Nat) : Nat := core % 16 / 8 + 2 * (core / 128)

/-- The cluster of a core, 8 × die + its place row by row within the die (R5, R226). -/
def clusterOf (core : Nat) : Nat := 8 * dieOf core + (core / 16 % 8 / 2 * 2 + core % 8 / 4)

/-- R220: whether a range of physical addresses is backed. -/
def backed (pa len : Nat) : Bool :=
  decide (pa + len ≤ 0x8000000000) || (decide (0x100000000000 ≤ pa) && decide (pa + len ≤ 0x120000000000))

/-- R221: the home slice of a physical address. -/
def homeSlice (pa : Nat) : Nat :=
  if pa < 0x8000000000 then 64 * (bitsN pa 36 3 / 2) + (bitsN pa 7 6 ^^^ bitsN pa 13 6)
  else bitsN pa 7 8 ^^^ bitsN pa 15 8

/-- The memory-fault causes of R404. -/
def causeNonCanonical : Nat := 1
def causeMisaligned : Nat := 2
def causeNoTranslation : Nat := 3
def causeBadEntry : Nat := 4
def causeReadOnly : Nat := 5
def causeIsolation : Nat := 6
def causePoolIndex : Nat := 7
def causePoolKind : Nat := 8
def causePoolUnmapped : Nat := 9

/-- Global memory as its home slices return it: a sector with an uncorrectable error reads as zeros (R168, R232). -/
def State.homeMem (s : State) : Memory := if s.badSec.isEmpty then s.mem else s.mem.filter fun e => !s.badSec.contains (e.1 / 32)

/-- The levels of a page-table walk (R234): low bit of the index, its width, whether a leaf is allowed, whether it must be a leaf, the size of
the next table. -/
def walkLevels : List (Nat × Nat × Bool × Bool × Nat) :=
  [(48, 9, false, false, 4096), (39, 9, false, false, 4096), (30, 9, true, false, 256), (25, 5, true, false, 512),
   (19, 6, true, true, 1)]

/-- A page-table entry that a walk may use (R235): a page, or the address of the next table. -/
inductive Pte where
  | page (x : Xlat)
  | next (table : Nat)

/-- The address of the entry of a table that serves a virtual address at a level (R234). -/
def pteAt (table va : Nat) (l : Nat × Nat × Bool × Bool × Nat) : Nat := table + 8 * bitsN va l.1 l.2.1

/-- R235, R236: the entry of a table that serves an address at a level, or the cause of R404. `frames` are the ranges the isolation table allows. -/
def readPte (m : Memory) (frames : List (Nat × Nat)) (ctx va : Nat) (l : Nat × Nat × Bool × Bool × Nat) (table : Nat) : Except Nat Pte :=
  let (lo, _, leafOk, leafOnly, next) := l
  let e := readLE m (pteAt table va l) 8
  let frame := bitsN e 8 48 * 256
  let size := 2 ^ lo
  if !bitN e 0 then .error causeNoTranslation
  else if bitsN e 56 8 ≠ 0 ∨ bitsN e 1 3 ≠ 0 then .error causeBadEntry
  else if bitN e 5 then
    if !leafOk ∨ frame % size ≠ 0 ∨ (bitN e 6 ∧ bitN e 7) ∨ !backed frame size then .error causeBadEntry
    else if !(frames.any fun f => decide (f.1 ≤ frame) && decide (frame + size ≤ f.1 + f.2)) then .error causeIsolation
    else .ok (.page { ctx := ctx, va := va / size * size, size := size, pa := frame, drop := bitN e 7, stream := bitN e 6, write := bitN e 4 })
  else if leafOnly ∨ bitN e 6 ∨ bitN e 7 ∨ frame % next ≠ 0 ∨ !backed frame next then .error causeBadEntry
  else .ok (.next frame)

/-- R234 to R236: the walk over the levels that remain from the table at `table`, with the cause of R404 where it fails. -/
def walkFrom (m : Memory) (frames : List (Nat × Nat)) (ctx va : Nat) :
    List (Nat × Nat × Bool × Bool × Nat) → Nat → Except Nat Xlat
  | [], _ => .error causeBadEntry
  | l :: rest, table =>
    match readPte m frames ctx va l table with
    | .error c => .error c
    | .ok (.page x) => .ok x
    | .ok (.next t) => walkFrom m frames ctx va rest t

/-- R234: the translation the page tables of a context give a virtual address now; an address above the 57 bits of R9 is not canonical. -/
def walk (s : State) (ctx va : Nat) : Except Nat Xlat :=
  if 2 ^ 57 ≤ va then .error causeNonCanonical
  else walkFrom s.homeMem (s.ctx ctx).frames ctx va walkLevels (s.ctx ctx).root

/-- Whether a translation covers an address. -/
def Xlat.covers (x : Xlat) (va : Nat) : Bool := decide (x.va ≤ va) && decide (va < x.va + x.size)

/-- The translation among a list that covers an address of a context (R238). -/
def findXlat (l : List Xlat) (ctx va : Nat) : Option Xlat :=
  l.find? fun x => x.ctx == ctx && decide (x.va ≤ va) && decide (va < x.va + x.size)

/-- R238, R239: what the L1 TLB of a core, or else its die's shared TLB, holds for an address. -/
def tlbLookup (s : State) (core ctx va : Nat) : Option Xlat :=
  match findXlat (s.core core).tlb ctx va with
  | some x => some x
  | none => findXlat (getT [] s.stlb (dieOf core)) ctx va

/-- An entry put first in a TLB of a given size; the oldest leaves when it is full (log 76). -/
def tlbPut (n : Nat) (x : Xlat) (l : List Xlat) : List Xlat := (x :: l.filter fun y => y != x).take n

/-- R239: an L1 TLB filled. -/
def fillL1Tlb (s : State) (core : Nat) (x : Xlat) : State :=
  s.setCore core { s.core core with tlb := tlbPut 512 x (s.core core).tlb }

/-- The set of a translation in a shared TLB of 4096 sets of 8 ways (R238, log 76). -/
def stlbSet (x : Xlat) : Nat := x.va / x.size % 4096

/-- An entry put first in a shared TLB; of a full set the oldest entry leaves. -/
def stlbPut (x : Xlat) (l : List Xlat) : List Xlat :=
  let others := l.filter fun y => y != x
  let peers := others.filter fun y => stlbSet y == stlbSet x
  x :: (if peers.length < 8 then others else others.filter fun y => some y != peers.getLast?)

/-- R239: an access that the die's shared TLB answers fills its core's L1 TLB. -/
def hitFills (s : State) (core ctx va : Nat) : State :=
  match findXlat (s.core core).tlb ctx va, findXlat (getT [] s.stlb (dieOf core)) ctx va with
  | none, some x => fillL1Tlb s core x
  | _, _ => s

/-- R239: a die's shared TLB filled. -/
def fillShared (s : State) (die : Nat) (x : Xlat) : State :=
  { s with stlb := setT s.stlb die (stlbPut x (getT [] s.stlb die)) }

/-- The 512 KiB page of an address: the smallest page a walk serves (R234). -/
def pageOf (va : Nat) : Nat := va / 524288

/-- R239: whether two addresses of a context lie in one page, as its tables stand. -/
def samePage (s : State) (ctx a b : Nat) : Bool :=
  pageOf a == pageOf b || (match walk s ctx a with | .ok x => x.covers b | .error _ => false)

/-- The walks in progress on a die. -/
def dieWalks (s : State) (die : Nat) : List (Nat × Walk) := s.walks.filter fun w => w.2.die == die

/-- R239: a miss of a core, for a group of it or for its engines, joins the die's walk for the page, starts one on a free walker, or enters the miss
queue; with the queue full it is not taken, and its requester, which holds, tries again. -/
def startWalk (s : State) (core ctx va : Nat) (grp : Option Nat) : State :=
  let die := dieOf core
  let queue := getT [] s.missq die
  match (dieWalks s die).find? fun w => w.2.ctx == ctx && samePage s ctx w.2.va va with
  | some (k, w) =>
    { s with walks := setT s.walks k { w with cores := (core :: w.cores).eraseDups, groups := (grp.toList ++ w.groups).eraseDups
                                              engines := if grp.isNone then (core :: w.engines).eraseDups else w.engines } }
  | none =>
    let m : Miss := { ctx := ctx, va := va, core := core, grp := grp }
    if (dieWalks s die).length < 64 then
      { s with walks := setT s.walks s.serial { die := die, ctx := ctx, va := va, cores := [core], groups := grp.toList
                                                engines := if grp.isNone then [core] else [] }
               serial := s.serial + 1 }
    else if queue.contains m || decide (256 ≤ queue.length) then s
    else { s with missq := setT s.missq die (queue ++ [m]) }

/-- The physical address a translation gives a virtual one. -/
def Xlat.phys (x : Xlat) (va : Nat) : Nat := x.pa + (va - x.va)

/-- A sharer's number in the directory (R226): a core, or 256 + cluster for a fused L1. -/
def sharerOf (s : State) (core : Nat) : Nat := if (s.core core).fused then 256 + clusterOf core else core

/-- The cluster of a sharer. -/
def sharerCluster (a : Nat) : Nat := if a < 256 then clusterOf a else a - 256

/-- R227: a fill by sharer `a`. -/
def Dir.fill (d : Dir) (a : Nat) : Dir :=
  match d with
  | .uncached => .exact [a]
  | .exact l =>
    if l.contains a then .exact l else if l.length < 4 then .exact (l ++ [a])
    else .vector ((a :: l).foldl (fun v b => v ||| BitVec.ofNat 32 (2 ^ sharerCluster b)) 0)
  | .vector v => .vector (v ||| BitVec.ofNat 32 (2 ^ sharerCluster a))

/-- The parts of a range of a context's memory, page by page: physical address, length, and offset in the range. -/
def rangeParts (s : State) (ctx va len : Nat) : List (Nat × Nat × Nat) :=
  let cut := min (va + len) ((pageOf va + 1) * 524288)
  ([(va, cut - va, 0), (cut, va + len - cut, cut - va)].filter fun p => decide (0 < p.2.1)).filterMap fun p =>
    match walk s ctx p.1 with | .ok x => some (x.phys p.1, p.2.1, p.2.2) | .error _ => none

/-- R322: whether this package holds only the producer side of a pipe, whose slots are another package's. -/
def Pipe.remote (p : Pipe) : Bool := p.link && !p.lside

/-- R305, R306: the parts of the header arrays of the pipes whose slots this package holds, those of ring slots that are not open among them. -/
def headerParts (s : State) : List (Nat × Nat × Nat) :=
  s.plans.flatMap fun e => e.2.pipes.flatMap fun q =>
    if q.remote then []
    else rangeParts s e.2.ctx q.mem.thdrVa (64 * q.depth) ++ rangeParts s e.2.ctx q.mem.rhdrVa (64 * q.ringCap)

/-- R306: the bits of byte `i` of a slot header that a write changes. -/
def headerMask (i : Nat) : Byte := if i < 37 then 0 else if i = 37 then 0xF0 else if i = 39 then 0xE3 else 0xFF

/-- R306: the byte that a write of `b` leaves at an address: the bits of a slot header that ignore writes stay. -/
def keptByte (m : Memory) (parts : List (Nat × Nat × Nat)) (pa : Nat) (b : Byte) : Byte :=
  match parts.find? fun p => decide (p.1 ≤ pa) && decide (pa < p.1 + p.2.1) with
  | some p =>
    let k := headerMask ((p.2.2 + (pa - p.1)) % 64)
    (b &&& k) ||| (readByte m pa &&& ~~~k)
  | none => b

/-- The bytes that a write leaves, from an address upwards (R306). -/
def keptBytes (s : State) (pa : Nat) (bs : List Byte) : List Byte :=
  match headerParts s with
  | [] => bs
  | parts => bs.mapIdx fun i b => keptByte s.mem parts (pa + i) b

/-- The lines of `n` bytes of a context's memory from a virtual address on, as its page tables place them. -/
def vaLines (s : State) (ctx va n : Nat) : List Nat :=
  (List.range ((n + 127) / 128)).filterMap fun i =>
    match walk s ctx (va + 128 * i) with | .ok x => some (lineOf (x.phys (va + 128 * i))) | .error _ => none

/-- The width in bits of an element of the code of R153. -/
def elemWidth (code : Nat) : Nat :=
  match code with
  | 0 => 32 | 1 => 16 | 2 => 16 | 3 => 8 | 4 => 8 | 5 => 32 | 6 => 16 | 7 => 8 | 8 => 4 | _ => 2

/-- The row pitch of a pipe's tiles (R305). -/
def Pipe.pitch (p : Pipe) : Nat := ((p.cols * elemWidth p.fmt.toNat + 7) / 8 + 15) / 16 * 16

/-- The tile size of a pipe (R305). -/
def Pipe.tileSize (p : Pipe) : Nat := p.rows * p.pitch

/-- The slot stride of a pipe (R305). -/
def Pipe.stride (p : Pipe) : Nat := (p.tileSize + 4095) / 4096 * 4096

/-- R230: whether a recipe record pins its tile: a source without a recipe of its own, or a tile pinned by RPIN or by a refusal. -/
def Recipe.pins (r : Recipe) : Bool :=
  r.rpin || decide (0 < r.pinc) || (decide (0 < r.refc) && (r.state == .none || r.state == .refused || r.state == .pinned))

/-- R230: whether a line is pinned. -/
def pinnedLine (s : State) (line : Nat) : Bool :=
  (s.ctxs.any fun c => c.2.recipes.any fun r => r.2.pins && (vaLines s c.1 r.2.tgt.va r.2.tgt.size).contains line) ||
  (s.plans.any fun p => p.2.pipes.any fun q => !q.remote &&
    ((vaLines s p.2.ctx q.mem.tileVa (q.depth * q.stride)).contains line || (vaLines s p.2.ctx q.mem.thdrVa (q.depth * 64)).contains line))

/-- R226, R227: the directory entry of a line changed. -/
def setDir (s : State) (line : Nat) (d : Dir) : State := { s with dir := setT s.dir line d }

/-- R223, R227: the Clean copies of a line in every L1 but one sharer's discarded; SpecDirty lines keep their bytes. -/
def invalidateL1 (s : State) (line : Nat) (but : Option Nat) : State :=
  { s with cores := mapT (fun c x =>
      if some (if x.fused then 256 + clusterOf c else c) = but then x
      else { x with l1 := x.l1.filter fun e => e.line != line || e.owner.isSome }) s.cores }

/-- The record of the recipe whose target holds a virtual address (R429), with its key. -/
def recipeAt (c : Context) (va : Nat) : Option (Nat × Recipe) :=
  c.recipes.find? fun e => decide (e.2.tgt.va ≤ va) && decide (va < e.2.tgt.va + e.2.tgt.size)

/-- A recipe record of a context changed. -/
def onRecipe (ctx rec' : Nat) (f : Recipe → Recipe) (s : State) : State :=
  let c := s.ctx ctx
  match findT c.recipes rec' with
  | some e => s.setCtx ctx { c with recipes := setT c.recipes rec' (f e) }
  | none => s

/-- R432: the states of a tile whose lines carry its mark at their home slices. -/
def TileState.marked : TileState → Bool
  | .sealed | .dropped | .recomputing | .failed => true
  | _ => false

/-- R432: the record of the tile whose mark a line carries: its context, its key and itself. -/
def markOn (s : State) (line : Nat) : Option (Nat × Nat × Recipe) :=
  s.ctxs.findSome? fun c => (c.2.recipes.find? fun r => r.2.state.marked && (vaLines s c.1 r.2.tgt.va r.2.tgt.size).contains line).map fun r => (c.1, r)

/-- R429, R432: the record that an access of a context at an address meets: its own tile's, or, through another mapping of the frame (R237), that of the
tile whose mark the line carries. -/
def tileAt (s : State) (ctx va : Nat) : Option (Nat × Nat × Recipe) :=
  let mine := recipeAt (s.ctx ctx) va
  if mine.any fun e => e.2.state.marked then mine.map (ctx, ·)
  else match walk s ctx va with
  | .ok x => (markOn s (lineOf (x.phys va))).orElse fun _ => mine.map (ctx, ·)
  | .error _ => mine.map (ctx, ·)

/-- R430: lines that leave the L2 and every L1 unwritten. -/
def loseLines (lines : List Nat) (s : State) : State :=
  let s := lines.foldl (fun s l => setDir (invalidateL1 s l none) l .uncached) s
  { s with l2 := s.l2.filter fun x => !lines.contains x.1
           badSec := s.badSec.filter fun b => !lines.contains (b / 4) }

/-- R378, R424, R430: every line of a sealed tile leaves the L2 and every L1 unwritten. -/
def dropTile (ctx rec' : Nat) (s : State) : State :=
  let c := s.ctx ctx
  match findT c.recipes rec' with
  | none => s
  | some e =>
    let s := loseLines (vaLines s ctx e.tgt.va e.tgt.size) s
    s.setCtx ctx { s.ctx ctx with recipes := setT c.recipes rec' { e with state := .dropped } }

/-- The sealed tiles that a line belongs to: context and record. -/
def sealedTiles (s : State) (line : Nat) : List (Nat × Nat) :=
  (s.ctxs.map fun c => (c.2.recipes.filter fun r => r.2.state == .sealed && (vaLines s c.1 r.2.tgt.va r.2.tgt.size).contains line).map fun r =>
    (c.1, r.1)).flatten

/-- R186, R227, R229: a line removed from the L2 and, through the directory, from every L1. -/
def removeL2 (line : Nat) (s : State) : State :=
  let s := invalidateL1 s line none
  { s with l2 := delT s.l2 line, dir := delT s.dir line }

/-- R229: a line evicted from the L2; a line of a sealed tile takes the whole tile with it (R430). -/
def evictLine (line : Nat) (s : State) : State :=
  match sealedTiles s line with
  | (c, r) :: _ => dropTile c r s
  | [] => removeL2 line s

/-- The slice and set of a line (R221). -/
def l2Set (line : Nat) : Nat × Nat :=
  (homeSlice (128 * line), if line < 0x100000000 then bitsN line 6 10 else bitsN line 8 10)

/-- The lines present in a line's set (R229). -/
def l2Peers (s : State) (line : Nat) : List (Nat × L2Line) := s.l2.filter fun e => l2Set e.1 == l2Set line

/-- R231: an absent line whose set is all pinned bypasses the L2. -/
def bypasses (s : State) (line : Nat) : Bool :=
  (findT s.l2 line).isNone && decide (16 ≤ ((l2Peers s line).filter fun e => pinnedLine s e.1).length)

/-- R229: of some lines of a full set the one its slice replaces: the least recently used one that is not pinned. -/
def l2Victim (s : State) (peers : List (Nat × L2Line)) : Option Nat :=
  let free := peers.filter fun e => !pinnedLine s e.1
  (free.find? fun e => free.all fun o => decide (e.2.use ≤ o.2.use)).map Prod.fst

/-- R229: room made in a line's set for the line, if it is absent and the 16 ways are in use. -/
def makeRoom (line : Nat) (s : State) : State :=
  if (findT s.l2 line).isSome || decide ((l2Peers s line).length < 16) then s
  else match l2Victim s (l2Peers s line) with
  | some v => evictLine v s
  | none => s

/-- R229, R231: a line present in its slice and most recently used, or a bypass counted. -/
def touchL2 (s : State) (line : Nat) (dirty : Bool) : State :=
  if bypasses s line then { s with bypass := setT s.bypass (homeSlice (128 * line)) (getT 0 s.bypass (homeSlice (128 * line)) + 1) }
  else
    let s := makeRoom line s
    let old := getT { dirty := false, use := 0 } s.l2 line
    { s with l2 := setT s.l2 line { dirty := old.dirty || dirty, use := s.fresh }, fresh := s.fresh + 1 }

/-- R183, R442: a write to a line fires its watches, and every group parked on it resumes at its next clause. -/
def fireWatch (line : Nat) (s : State) : State :=
  let hit := s.watches.filter fun w => w.1 == line
  let s := { s with watches := s.watches.filter fun w => w.1 != line }
  hit.foldl (fun s w =>
    let g := s.grp w.2
    if g.status = .suspended (.mwait line) then wakeNext w.2 s else s) s

/-- Bytes of global memory (R220). -/
def readGlobal (s : State) (pa n : Nat) : List Byte := readBytes s.mem pa n

/-- Whether a byte lies in a sector with an uncorrectable error. -/
def badAt (s : State) (pa : Nat) : Bool := s.badSec.contains (pa / 32)

/-- Bytes of global memory as their home slice returns them: an uncorrectable sector reads as zeros (R168, R232). -/
def readHome (s : State) (pa n : Nat) : List Byte :=
  (List.range n).map fun i => if badAt s (pa + i) then 0 else readByte s.mem (pa + i)

/-- The 32-byte sectors that `n` bytes from `pa` touch. -/
def sectorsOf (pa n : Nat) : List Nat := (List.range n).map (fun i => (pa + i) / 32) |>.eraseDups

/-- Bytes written to global memory. A sector written whole no longer carries an uncorrectable error (R232); the reserved bits of a slot header ignore
the write (R306). -/
def writeGlobal (s : State) (pa : Nat) (bs : List Byte) : State :=
  { s with mem := writeBytes s.mem pa (keptBytes s pa bs)
           badSec := s.badSec.filter fun c => !(decide (pa ≤ 32 * c) && decide (32 * c + 32 ≤ pa + bs.length)) }

/-- R231, R403: whether writing these bytes of a line that bypasses the L2 is an uncorrectable write at the backing memory: a sector of which only a
part is written has an uncorrectable error (log 21). -/
def badWrite (s : State) (pas : List Nat) : Bool :=
  (pas.map (· / 32)).eraseDups.any fun sec =>
    s.badSec.contains sec && bypasses s (sec / 4) && (List.range 32).any fun i => !pas.contains (32 * sec + i)

/-- The lines that `n` bytes from `pa` touch. -/
def linesOf (pa n : Nat) : List Nat := (List.range n).map (fun i => (pa + i) / 128) |>.eraseDups

/-- Whether two byte ranges meet. -/
def overlaps (a n b m : Nat) : Bool := decide (a < b + m) && decide (b < a + n)

/-- The value a reduction leaves at its address: the whole, or one half of a packed word (R179, R191). -/
def reduceValue (op : AOp) (fmt : Word) (half m x : Nat) : Nat :=
  if half = 2 then applyOp op fmt m x 0
  else match halvesOf op with
  | some f => m - bitsN m (16 * half) 16 * 2 ^ (16 * half) + addHalf f fmt m x half * 2 ^ (16 * half)
  | none => m

/-- A flight put among others in the order of their arrival at the slice. -/
def insertArrived (f : Flight) : List Flight → List Flight
  | [] => [f]
  | x :: xs => if f.arrived.getD 0 ≤ x.arrived.getD 0 then f :: x :: xs else x :: insertArrived f xs

/-- R191: the halves that have reached the slice of some bytes and are still to be applied there, in the order of their arrival. -/
def arrivedAt (s : State) (pa n : Nat) : List Flight :=
  (s.flights.filter fun f => f.arrived.isSome && overlaps f.pa 4 pa n).foldr insertArrived []

/-- The L1 copies of the lines of some bytes invalidated through the directory (R227). -/
def dropCopies (pa n : Nat) (s : State) : State :=
  (linesOf pa n).foldl (fun s l => setDir (invalidateL1 s l none) l .uncached) s

/-- R179: the bytes of an applied reduction, which invalidates every L1 copy of its line and fires its watches (R442). -/
def reduceWrite (pa : Nat) (bs : List Byte) (s : State) : State :=
  let lines := linesOf pa bs.length
  let s := writeGlobal (dropCopies pa bs.length s) pa bs
  let s := lines.foldl (fun s l => touchL2 s l true) s
  lines.foldl (fun s l => fireWatch l s) s

/-- A released reduction, or the half of one, applied to the value that stands (R179, R191). -/
def applyRed (s : State) (f : Flight) : State :=
  match f.op with
  | .red op x fmt => reduceWrite f.pa (leBytes op.bytes (reduceValue op fmt f.half (readLE s.mem f.pa op.bytes) x.toNat)) s
  | .store _ => s

/-- R191, R454: what reached the slice before a write of some bytes is applied before it. -/
def settleArrived (pa n : Nat) (s : State) : State :=
  match arrivedAt s pa n with
  | [] => s
  | fs => { fs.foldl applyRed s with flights := s.flights.filter fun f => !fs.contains f }

/-- R451: a point write to coherent global memory by group `k` (0 for an agent without a group): readers' chunks are squashed, every sharer is
invalidated, the bytes are written and watches fire. -/
def pointGlobal (k pa : Nat) (bs : List Byte) (s : State) : State :=
  let lines := linesOf pa bs.length
  let s := broadcast k (lines.map Key.glob) (settleArrived pa bs.length s)
  let s := writeGlobal s pa bs
  let s := lines.foldl (fun s l => touchL2 (setDir (invalidateL1 s l none) l .uncached) l true) s
  let s := lines.foldl (fun s l => fireWatch l s) s
  { s with grants := s.grants + 1 }

/-- A write at its home slice outside the order (R169, R179, R457): no signature; watches fire (R442). -/
def homeWrite (pa : Nat) (bs : List Byte) (s : State) : State :=
  let lines := linesOf pa bs.length
  let s := writeGlobal (settleArrived pa bs.length s) pa bs
  let s := lines.foldl (fun s l => touchL2 s l true) s
  lines.foldl (fun s l => fireWatch l s) s

/-- R169, R457: a write to a streaming location. -/
def streamWrite (pa : Nat) (bs : List Byte) (s : State) : State := homeWrite pa bs s

/-- R177: an atomic's write to a streaming location: every L1 copy goes, and it takes a place in the order; no signature names the bytes (R457). -/
def atomStream (pa : Nat) (bs : List Byte) (s : State) : State :=
  let s := homeWrite pa bs (dropCopies pa bs.length s)
  { s with grants := s.grants + 1 }

/-- The life of the tile that holds an address; `none` where no record exists (R430, R432). -/
def tileState (s : State) (ctx va : Nat) : TileState :=
  match tileAt s ctx va with
  | some e => e.2.2.state
  | none => .none

/-- R426: the bytes that the last recomputation of a tile has left for an access that waited for it, once the tile no longer holds them. -/
def tileCopy (s : State) (ctx va pa n : Nat) (who : TileUser) : Option (List Byte) :=
  match tileAt s ctx va with
  | some (c, _, e) =>
    if e.users.contains who && e.state != .sealed then
      some ((e.kept.drop (128 * (vaLines s c e.tgt.va e.tgt.size).idxOf (lineOf pa) + pa % 128)).take n)
    else none
  | none => none

/-- R168, R232, R426: what an access reads at a home slice, and whether an uncorrectable error met it. -/
def readFor (s : State) (ctx va pa n : Nat) (who : TileUser) : List Byte × Bool :=
  match tileCopy s ctx va pa n who with
  | some bs => (bs, false)
  | none => (readHome s pa n, (sectorsOf pa n).any s.badSec.contains)

/-- R437: a tile whose home slice refuses writes that do not come from its own slice. -/
def TileState.refusesWrites : TileState → Bool
  | .sealed | .dropped | .recomputing => true
  | _ => false

/-- R456: whether a point write of the hub must wait: a reserved chunk is in its way, or another that waits for the same line. -/
def hubHeld (s : State) (pa n : Nat) : Bool :=
  (s.hub.any fun h => (linesOf pa n).any (linesOf h.pa h.bytes.length).contains) || heldByReserved s 0 none ((linesOf pa n).map Key.glob) 0 []

/-- R456: a point write of the hub, which the hub keeps where it must wait. -/
def hubWrite (pa : Nat) (bs : List Byte) (s : State) : State :=
  if hubHeld s pa bs.length then { s with hub := s.hub ++ [{ pa := pa, bytes := bs }] } else pointGlobal 0 pa bs s

/-- One of the writes that the hub keeps is made, with its vector, if it may be. -/
def serveOne (s : State) (h : HubWrite) : State :=
  if hubHeld s h.pa h.bytes.length then { s with hub := s.hub ++ [h] }
  else
    let t := pointGlobal 0 h.pa h.bytes s
    { t with msix := t.msix ++ h.vec.toList }

/-- R456: the writes that the hub keeps are made, as far as reserved chunks let them. -/
def serveHub (s : State) : State := s.hub.foldl serveOne { s with hub := [] }

/-- A byte-by-byte write through a context's page tables by an agent of the hub (R346, R412): none where a page is missing, bad or
read-only. -/
def writeVirtual (s : State) (ctx va : Nat) (bs : List Byte) : Option State :=
  match walk s ctx va with
  | .ok x => if x.write then some (if x.stream then streamWrite (x.phys va) bs s else hubWrite (x.phys va) bs s) else none
  | .error _ => none

/-- A read through a context's page tables by an agent of the hub. -/
def readVirtual (s : State) (ctx va n : Nat) : Option (List Byte) :=
  match walk s ctx va with
  | .ok x => some (readHome s (x.phys va) n)
  | .error _ => none

end Sys2Proof.Machine
end

