-- ==== Sys2Proof/Machine/Ops.lean ====
section
/-! DEFINITION. The shared operations of execution: what precedes and follows an instruction, holds, faults, taking a trap and returning from
it, the reconvergence stack, reports, the end of a group. -/
namespace Sys2Proof.Machine

/-- What a step answers. -/
abbrev Res := Host.Outcome State Fault Refusal

/-- The stall codes of R217 that hold a lane. -/
def stallDlv : Nat := 0x7
def stallMq : Nat := 0x8
def stallScoreboard : Nat := 0x9
def stallSlot : Nat := 0xA
def stallBank : Nat := 0xB
def stallChunk : Nat := 0xC
def stallFence : Nat := 0x14

/-! ### The clause and the program counter -/

/-- The place of the program counter in the clause (R58). -/
def Group.wordIx (g : Group) : Nat :=
  match g.clause with
  | some c => (g.pc - c.first).toNat / 8
  | none => 0

/-- The uniform mark of the instruction (R58). -/
def Group.uniMark (g : Group) : Bool :=
  match g.clause with
  | some c => c.hdr.getLsbD (16 + g.wordIx)
  | none => false

/-- Whether the instruction is the last of its clause (R52). -/
def Group.atLast (g : Group) : Bool :=
  match g.clause with
  | some c => decide ((c.hdr.extractLsb' 52 4).toNat ≤ g.wordIx)
  | none => false

/-- R57: what follows the last instruction of a clause. The chunk closes first, then the lane is given up. -/
def leaveClause (now : Nat) (g : Group) : Group :=
  match g.clause with
  | none => { g with status := .waiting, entry := .header }
  | some c =>
    let g := if c.hdr.getLsbD 34 then closeChunk g else g
    { g with clause := none, status := .waiting, entry := .header, last := now, yielded := g.yielded || c.hdr.getLsbD 35, shut := g.closeReq }

/-- Whether the clause being issued gives the lane up at its end (R57). -/
def Group.yields (g : Group) : Bool := match g.clause with | some c => c.hdr.getLsbD 35 | none => false

/-- The lane cycles of an instruction (R103, R121, R143). -/
def laneCycles (u : Use) (g : Group) (S : Mask) : Nat :=
  let flat := (u.reads ++ u.writes).all fun r => tagOf g.place.shape r != .g
  let pairs := ((List.range 16).filter fun k => S.getLsbD (2 * k) || S.getLsbD (2 * k + 1)).length
  let one := g.uniMark || S == 0 || flat
  match u.cost with
  | .one => 1
  | .vec f => f * (if one then 1 else pairs)
  | .redg => if one then 1 else 16 + ((threads S).length - 1)
  | .qcvt => 64
  | .fixed n => n

/-- R356, R358: what a write by the group's own instruction does to a register's hold bits. -/
def clearPoison (h : Tab HoldBits) (ws : List Reg) : Tab HoldBits :=
  mapT (fun k b => if ws.any (fun r => r.toNat == k) && b.poison then { b with poison := false, cause := 0 } else b) h

/-- R102: outstanding loads learn that an instruction of chunk `no` has written these registers. -/
def overwrite (no : Nat) (ws : List Reg) (l : Load) : Load :=
  { l with newer := (ws.filter fun r => (regsFrom l.dst l.nreg).contains r).map (·, no) ++ l.newer }

/-- The number of the open chunk; 0 outside every chunk. -/
def Group.chunkNo (g : Group) : Nat := match g.opn with | some c => c.no | none => 0

/-- The lane cycles of an instruction entered in its group: they hold the lane (R206) and have still to pass (R103). -/
def Group.spend (n : Nat) (g : Group) : Group := { g with held := g.held + n, debt := g.debt + n }

/-- Whether the stage of the running group's core is throttled (R206). -/
def State.thr (s : State) : Bool := (s.core s.me.place.core).thr

/-- A completed instruction that has written `ws`: it counts in the open chunk (R445) and the program counter moves on. -/
def completed (ws : List Reg) (g : Group) : Group :=
  { g with
    opn := g.opn.map fun c => { c with count := c.count + 1 }
    hold := none
    holds := clearPoison g.holds ws
    loads := g.loads.map (overwrite g.chunkNo ws)
    xlate := [] }

/-- The running group moves past its instruction; after the last of the clause R57 acts. -/
def stepPc (now : Nat) (g : Group) : Group :=
  let g' := { g with pc := g.pc + 8 }
  if g.atLast then leaveClause now g' else g'

/-- The instruction is complete: its lane cycles are charged, the group moves on. -/
def retire (u : Use) (S : Mask) (ws : List Reg) (s : State) : State :=
  (s.countMe 0 (laneCycles u s.me S)).setMe (throttled s.thr (stepPc s.now ((completed ws s.me).spend (laneCycles u s.me S))))

/-- The instruction is complete and control passes to `target`, the entry of a clause. -/
def jumpTo (u : Use) (S : Mask) (ws : List Reg) (target : Pc) (s : State) : State :=
  (s.countMe 0 (laneCycles u s.me S)).setMe
    (throttled s.thr { leaveClause s.now ((completed ws s.me).spend (laneCycles u s.me S)) with pc := target, entry := .header })

/-- R125: the instruction is complete and the group resumes an entry of its stack. R57 acts only where the instruction was the clause's last. -/
def resumeAt (u : Use) (S : Mask) (ws : List Reg) (target : Pc) (s : State) : State :=
  if s.me.atLast then jumpTo u S ws target s
  else (s.countMe 0 (laneCycles u s.me S)).setMe
    (throttled s.thr { (completed ws s.me).spend (laneCycles u s.me S) with
      clause := none, status := .waiting, pc := target, entry := .header, last := s.now })

/-- The instruction does not complete: the lane is held under a stall code and tries it again (R215). -/
def holdFor (code : Nat) (s : State) : State := s.setMe { s.me with hold := some code }

/-- The instruction does not complete: the group is suspended at it (R61, R200). -/
def suspendAt (why : Susp) (s : State) : State :=
  s.setMe (throttled s.thr
    { s.me with status := .suspended why, hold := none, clause := none, entry := .resume, last := s.now, wakeYield := s.me.yields })

/-- The instruction is complete and its group sleeps; it goes on at the next clause (R61, R200). -/
def sleepPast (why : Susp) (u : Use) (S : Mask) (s : State) : State :=
  let t := retire u S [] s
  t.setMe { t.me with status := .suspended why, clause := none, entry := .header, yielded := s.me.yielded, wakeYield := s.me.yields }

/-- The chunk closes and the lane is held until it has committed (R189, R445). -/
def closeAndHold (s : State) : State := holdFor stallChunk (s.setMe (closeChunk s.me))

/-! ### Reports (R411 to R414) -/

/-- The null name (R354). -/
def nullName : Word64 := BitVec.allOnes 64

/-- The 64 bytes of a report entry (R413). -/
def reportBytes (addr : Nat) (pc : Pc) (cls cause kind : Nat) (id : Ident) (thr info : Nat) : List Byte :=
  leBytes 64 (addr % 2 ^ 64 * 2 ^ 448 + pc.toNat * 2 ^ 400 + cls % 256 * 2 ^ 392 + cause % 256 * 2 ^ 384 + kind * 2 ^ 376
    + id.stage * 2 ^ 368 + id.core * 2 ^ 360 + thr * 2 ^ 352 + info % 2 ^ 32 * 2 ^ 320 + id.name.toNat * 2 ^ 256
    + id.tag * 2 ^ 224 + id.gid * 2 ^ 215)

/-- A write of a report through the context's translation; one that is refused is counted (R412). -/
def reportWrite (ctx va : Nat) (bs : List Byte) (s : State) : State :=
  match writeVirtual s ctx va bs with
  | some s' => s'
  | none => s.setCtx ctx { s.ctx ctx with rpterr := ((s.ctx ctx).rpterr + 1) % 2 ^ 64 }

/-- R411, R412: an entry added to the context's ring, and the count after it. -/
def addReport (ctx : Nat) (bs : List Byte) (s : State) : State :=
  let c := s.ctx ctx
  let k := c.reports
  let s := s.setCtx ctx { c with reports := k + 1 }
  let ring := c.ccb.rring / 64 * 64
  if ring = 0 then s
  else
    let s := reportWrite ctx (ring + 64 + 64 * (k % 2 ^ (max 4 (min 20 c.ccb.rlog)))) bs s
    reportWrite ctx ring (leBytes 64 ((k + 1) % 2 ^ 64)) s

/-- The identity of a group in a report (R413). -/
def identOf (s : State) (g : Group) : Ident :=
  { stage := g.place.stage, core := g.place.core, gid := g.place.gid, name := g.place.name
    tag := match findT s.plans g.place.plan with | some p => p.tag.toNat | none => 0 }

/-- A crew's count of report entries raised (R414). -/
def countReport (crew : Nat) (s : State) : State :=
  match findT s.crews crew with
  | some c => { s with crews := setT s.crews crew { c with reports := c.reports + 1 } }
  | none => s

/-- A report about a group; a fault that arose on another core names that core. -/
def reportGroup (g : Group) (kind cls cause addr : Nat) (pc : Pc) (thr info : Nat) (s : State) (core : Nat := g.place.core) : State :=
  countReport g.place.crew
    (addReport g.place.ctx (reportBytes addr pc cls cause kind { identOf s g with core := core } thr info) s)

/-! ### The end of a group -/

/-- R133, R388: the group is over. A named group's entry will be released with this cause; a save that was moving it has nothing left to move (R390). -/
def finishGroup (k : Nat) (cause : BitVec 2) (s : State) : State :=
  let g := s.grp k
  let s := s.setGrp k (throttled (s.core g.place.core).thr
    { g with status := .ended, hold := none, clause := none, opn := none, clo := none, closeReq := false
             pend := none, exiting := false, last := s.now, again := none })
  let s := { s with watches := s.watches.filter fun w => w.2 != k }
  let idx := (g.place.name.extractLsb' 32 24).toNat
  match findT s.den idx with
  | some e =>
    if e.grp == k && e.state != .free then
      { s with den := setT s.den idx { e with ending := some cause, state := if e.state == .moving then .resident else e.state } }
    else s
  | none => s

/-- R133: a group without threads ends once no chunk of it is uncommitted; until then its last chunk closes. -/
def exitGroup (k : Nat) (s : State) : State :=
  let g := s.grp k
  if g.uncommitted then
    s.setGrp k { closeChunk g with exiting := true, status := .waiting, clause := none, hold := none, shut := (closeChunk g).closeReq }
  else finishGroup k 1 s

/-- R408: the group is ended by an exact fault, with a report of kind 0x01. A slice keeps the fault for R435. -/
def endGroup (k cls cause : Nat) (f : Flt) (s : State) : State :=
  let g := s.grp k
  if g.place.slice.isSome then
    (finishGroup k 2 s).setGrp k { (finishGroup k 2 s).grp k with pend := some { f with cls := cls, cause := cause } }
  else finishGroup k 2 (reportGroup g 1 cls cause f.addr f.pc f.thr f.info.toNat s)

/-! ### The reconvergence stack (R122, R123) -/

/-- stk.cap (R108). -/
def stkCap (r : Regs) : Nat := (r.stk.extractLsb' 20 12).toNat

/-- 16 × stk.base (R108). -/
def stkBase (r : Regs) : Nat := 16 * (r.stk.extractLsb' 4 16).toNat

/-- The entries held and spilled. -/
def stkDepth (r : Regs) : Nat := r.stack.length + r.spilled

/-- The 128 bits of an entry (R122). -/
def entryBits (e : StackEntry) : BitVec 128 := e.fmt ++ e.mask ++ 0#12 ++ e.kind ++ e.target

/-- An entry read back exactly as it stands (R123). -/
def entryOf (b : BitVec 128) : StackEntry :=
  { fmt := b.extractLsb' 96 32, mask := b.extractLsb' 64 32, kind := b.extractLsb' 48 4, target := b.extractLsb' 0 48 }

/-- The target that marks a reconvergence entry (R122). -/
def reconv : Pc := BitVec.allOnes 48

/-- What a push ends in: done, beyond the capacity, or a spill onto bytes another group's chunk has written (R171). -/
inductive Push where
  | ok (s : State)
  | beyond
  | conflict (other : Nat × Nat)

/-- The bytes of the next `n` spill slots, where pushing `n` entries spills (R123). -/
def spillBytes (n : Nat) (g : Group) : List Nat :=
  let m := n - (32 - g.regs.stack.length)
  (List.range (16 * m)).map (stkBase g.regs + 16 * g.regs.spilled + ·)

/-- R123: an entry pushed; the oldest held entry is spilled when the lane holds 32. -/
def pushEntry (k : Nat) (e : StackEntry) (s : State) : Push :=
  let g := s.grp k
  let r := g.regs
  if 32 + stkCap r ≤ stkDepth r then .beyond
  else if r.stack.length < 32 then .ok (s.setGrp k { g with regs := { r with stack := e :: r.stack } })
  else
    let a := stkBase r + 16 * r.spilled
    match if g.opn.isSome then localConflict s k g.place.core ((List.range 16).map (a + ·)) else none with
    | some o => .conflict o
    | none =>
      let old := r.stack.getLastD e
      let s := storeLocal k g.place.core s a (leBytes 16 (entryBits old).toNat)
      let g := s.grp k
      .ok (s.setGrp k { g with regs := { g.regs with stack := e :: r.stack.dropLast, spilled := r.spilled + 1 } })

/-- R123: the newest entry popped, and the newest spilled one read back into the lane. -/
def popEntry (k : Nat) (s : State) : Option (StackEntry × State) :=
  let g := s.grp k
  match g.regs.stack with
  | [] => none
  | e :: rest =>
    if g.regs.spilled = 0 then some (e, s.setGrp k { g with regs := { g.regs with stack := rest } })
    else
      let j := g.regs.spilled - 1
      let a := stkBase g.regs + 16 * j
      let back := entryOf (BitVec.ofNat 128 (leNat (readLocalBytes s k g.place.core a 16)))
      let key := locKey g.place.core a
      let g := g.onOpen fun c => { c with rd := if c.rd.contains key then c.rd else key :: c.rd }
      some (e, s.setGrp k { g with regs := { g.regs with stack := rest ++ [back], spilled := j } })

/-- An entry without some threads. -/
def StackEntry.without (m : Mask) (e : StackEntry) : StackEntry := { e with mask := e.mask &&& ~~~m }

/-- The entries above the topmost CALL entry, and the rest of the list (R126). -/
def aboveCall (l : List StackEntry) : List StackEntry × List StackEntry := l.span fun e => e.kind != 2

/-- Spilled entry `j` of a group, as it stands in local memory (R123). -/
def spilledEntry (s : State) (k j : Nat) : StackEntry :=
  entryOf (BitVec.ofNat 128 (leNat (readLocalBytes s k (s.grp k).place.core (stkBase (s.grp k).regs + 16 * j) 16)))

/-- The numbers of the spilled entries that lose threads `m`, newest first: all of them, or with `ret` those above the topmost CALL entry. -/
def spilledHit (s : State) (k : Nat) (m : Mask) (ret : Bool) : List Nat :=
  let r := (s.grp k).regs
  if ret && r.stack.any (fun e => e.kind == 2) then []
  else
    let js := (List.range r.spilled).reverse
    let js := if ret then js.takeWhile fun j => (spilledEntry s k j).kind != 2 else js
    js.filter fun j => (spilledEntry s k j).mask &&& m != 0

/-- R126: the local bytes of the spilled entries that lose threads `m`. -/
def hitBytes (s : State) (k : Nat) (m : Mask) (ret : Bool) : List Nat :=
  (spilledHit s k m ret).flatMap fun j => (List.range 16).map (stkBase (s.grp k).regs + 16 * j + ·)

/-- R126: threads removed from the active mask and from the stack's entries, held or spilled: from every entry for threads that exit, from
those above the topmost CALL entry for threads that return (`ret`). With no CALL entry on the stack a partial return removes them from every entry, for
which R126 states nothing (DESIGN CHOICE, log 90). -/
def removeThreads (k : Nat) (m : Mask) (ret : Bool) (s : State) : State :=
  let g := s.grp k
  let r := g.regs
  let st := if ret then ((aboveCall r.stack).1.map (StackEntry.without m)) ++ (aboveCall r.stack).2
            else r.stack.map (StackEntry.without m)
  let s' := s.setGrp k { g with regs := { r with amask := r.amask &&& ~~~m, stack := st } }
  (spilledHit s k m ret).foldl (fun s' j =>
    storeLocal k g.place.core s' (stkBase r + 16 * j) (leBytes 16 (entryBits ((spilledEntry s k j).without m)).toNat)) s'

/-- What R125 comes to when a group's threads have changed: it goes on where it is, resumes an entry, ends, or has popped an entry of a reserved
kind. -/
inductive Settle where
  | stays (s : State)
  | resumes (s : State) (pc : Pc)
  | ends (s : State)
  | bad

/-- R125: the loop over the stack while no thread is active, over at most `n` entries. -/
def settle (k : Nat) : Nat → State → Settle
  | 0, s => if (s.grp k).regs.amask = 0 then .ends s else .stays s
  | n + 1, s =>
    if (s.grp k).regs.amask ≠ 0 then .stays s
    else match popEntry k s with
    | none => .ends s
    | some (e, s) =>
      if 3 < e.kind.toNat then .bad
      else if e.mask = 0 ∨ (e.kind = 0 ∧ e.target = reconv) then settle k n s
      else .resumes (s.setGrp k { s.grp k with regs := { (s.grp k).regs with amask := e.mask, fmt := e.fmt } }) e.target

/-! ### Faults and traps -/

/-- A fault of the running group at its instruction (R402). -/
def fltAt (g : Group) (cls cause : Nat) (info : Word := 0) (addr : Nat := 0) (fmask : Mask := 0) (thr : Nat := 0) : Flt :=
  { cls := cls, cause := cause, info := info, addr := addr, fmask := fmask, thr := thr, pc := g.pc, ret := g.pc }

/-- R407: the 32 bytes of the trap record. -/
def trapRecord (f : Flt) : List Byte :=
  leBytes 32 (f.addr % 2 ^ 64 * 2 ^ 192 + f.pc.toNat * 2 ^ 144 + f.cls % 256 * 2 ^ 136 + f.cause % 256 * 2 ^ 128
    + f.info.toNat * 2 ^ 96 + f.fmask.toNat * 2 ^ 64 + f.thr % 256 * 2 ^ 56)

/-- The sectors of the local memory of a core that an operation in flight writes, and those it reads (R172, R247). -/
def pendingWrites (c : Core) : List Nat :=
  ((c.eng.running ++ c.eng.waiting).map Inst.pwrite).flatten ++ (c.mat.queue ++ c.mat.run.map Prod.snd).flatMap MCmd.writes
def pendingReads (c : Core) : List Nat :=
  ((c.eng.running ++ c.eng.waiting).map Inst.pread).flatten ++ (c.mat.queue ++ c.mat.run.map Prod.snd).flatMap MCmd.reads

/-- R406: whether a write of the trap record would switch off a thread under R173. -/
def recordBlocked (c : Core) (b : Nat) : Bool :=
  (pendingWrites c ++ pendingReads c).any fun x => x == b / 32 || x == (b + 31) / 32

/-- R408, R410: what a fault comes to that is not taken as a trap: the group ends with it, or, for a late fault, an exit report is written and the group
goes on. -/
def untrapped (k cls cause : Nat) (f : Flt) (s : State) : State :=
  match f.late with
  | some core =>
    let g := s.grp k
    (reportGroup g 3 f.cls f.cause f.addr f.pc f.thr f.info.toNat s core).setGrp k
      (throttled (s.core g.place.core).thr { g with status := .waiting, clause := none, entry := .header })
  | none => endGroup k cls cause f s

/-- R406, R410: a trap taken, with no chunk of the group uncommitted. The entry and the record lie outside every chunk, and their writes are held
as point writes are (R456). -/
def takeTrap (k : Nat) (f : Flt) (s : State) : State :=
  let s := s.setGrp k { s.grp k with opn := none, pend := none, hold := none }
  let g := s.grp k
  let c := (s.ctx g.place.ctx).ccb
  let b := stkBase g.regs - 32
  if g.place.slice.isSome then untrapped k f.cls f.cause f s
  else if !c.ten || (f.late.isSome && !c.tlate) || decide (stkBase g.regs < 32) || recordBlocked (s.core g.place.core) b then untrapped k f.cls f.cause f s
  else
    let bytes := (List.range 32).map (b + ·) ++ (if stkDepth g.regs < 32 + stkCap g.regs then spillBytes 1 g else [])
    if heldByReserved s k none ((bytes.map (locKey g.place.core)).eraseDups) g.place.core bytes then
      s.setGrp k { g with pend := some f, hold := some stallChunk }
    else
    match pushEntry k { fmt := g.regs.fmt, mask := g.regs.amask, kind := 3, target := f.ret } s with
    | .ok s =>
      let s := pointLocal k g.place.core b (trapRecord f) s
      let g := s.grp k
      s.setGrp k (throttled (s.core g.place.core).thr { g with
        pc := BitVec.ofNat 48 c.tvec, clause := none, status := .waiting, entry := .header, entering := true, last := s.now
        regs := { g.regs with stored := 0 }, yielded := g.yielded || f.yields })
    | _ => untrapped k 4 1 (if f.late.isSome then f else { f with cls := 4, cause := 1 }) s

/-- R406: the running group takes a fault once its chunks have committed; a squash before that forgets it. -/
def raise (f : Flt) (s : State) : State :=
  if s.me.uncommitted then holdFor stallChunk (s.setMe { closeChunk s.me with pend := some f })
  else takeTrap s.cur f s

/-- A fault without per-thread checks: its fmask is the active set (R407). -/
def raiseAt (cls cause : Nat) (info : Word) (S : Mask) (s : State) : State := raise (fltAt s.me cls cause info 0 S (lowest S)) s

/-- R69, R403: the illegal-instruction fault, for the active set of the instruction (R407). -/
def illegal (S : Mask) (s : State) : State := raiseAt 1 0 0 S s

/-- R62, R105: the active set of a word that need not be an instruction, by the guard every word has; the opcodes of BRA, BRD, LOOP and CALL act for
the active mask. -/
def wordSet (w : Word64) (r : Regs) : Mask :=
  let op := (w.extractLsb' 55 9).toNat
  if op == 0x180 || op == 0x181 || op == 0x183 || op == 0x184 then r.amask
  else activeSet r { p := w.extractLsb' 52 3, neg := w.getLsbD 51 }

/-- R100, R403: the shape fault of a destination register. -/
def shapeFault (d : Reg) (S : Mask) (s : State) : State := raiseAt 3 0 (d.zeroExtend 32) S s

/-- R137, R403: a stack fault. -/
def stackFault (cause : Nat) (S : Mask) (s : State) : State := raiseAt 4 cause 0 S s

/-! ### Squashes the group brings on itself -/

/-- R167, R171, R456: the running group meets another group's uncommitted chunk. Its own open chunk is squashed and reruns once the other is
resolved; a reserved chunk squashes the other instead. -/
def meetChunk (other : Nat × Nat) (s : State) : State :=
  let g := s.me
  let o := s.grp other.1
  let theirs := (o.chunks.find? fun c => c.no == other.2).bind Chunk.resv
  let wins := match g.opn.bind Chunk.resv, theirs with
    | some m, some n => decide (m < n)
    | some _, none => true
    | none, _ => false
  if wins then
    let s := squash true other.1 other.2 s
    s.setGrp other.1 { s.grp other.1 with wait := some (s.cur, g.chunkNo) }
  else
    let s := squash true s.cur g.chunkNo s
    s.setMe { s.me with wait := some other }

/-! ### What precedes an instruction -/

/-- What comes of the checks before an instruction's own effect: the step is over, or the instruction acts with an active set. -/
inductive Pre where
  | stop (r : Res)
  | go (s : State) (S : Mask)

/-- Whether a register awaits data of an outstanding load (R56). -/
def Group.awaits (g : Group) (r : Reg) : Bool :=
  g.loads.any fun l => (regsFrom l.dst l.nreg).contains r && !(l.newer.any fun e => e.1 == r)

/-- The hold bits of a register (R356). -/
def Group.holdOf (g : Group) (r : Reg) : HoldBits := getT {} g.holds r.toNat

/-- R70: the opcodes that Suava code carries over. -/
def suavaCarried (op : Nat) : Bool :=
  decide (op < 0x40) || (decide (0x40 ≤ op) && decide (op ≤ 0x53)) || op == 0x58 || op == 0x59 ||
  (decide (0x80 ≤ op) && decide (op ≤ 0x83)) || (decide (0x88 ≤ op) && decide (op ≤ 0x8A)) || op == 0x90 ||
  (decide (0x140 ≤ op) && decide (op ≤ 0x143)) || (decide (0x180 ≤ op) && decide (op ≤ 0x188)) ||
  (decide (0x190 ≤ op) && decide (op ≤ 0x192))

/-- R70, R71: what Suava code may execute: a carried opcode whose register fields name v0 to v63. -/
def suavaOk (g : Group) (i : Instr) : Bool :=
  !g.place.suava ||
  ((match encode i with | some w => suavaCarried (w.extractLsb' 55 9).toNat | none => false) &&
   ((useOf g.regs.fmt i).reads ++ (useOf g.regs.fmt i).writes).all fun r => decide (r.toNat < 64))

/-- R69: the checks on the instruction word and on the registers its fields name, whatever the guard and the active mask. -/
def wordOk (g : Group) (i : Instr) : Bool :=
  i.wf && !(useOf g.regs.fmt i).bad && ((useOf g.regs.fmt i).uni.all fun r => tagOf g.place.shape r == .u) && suavaOk g i

/-- The words of the checkpoint store an instruction's first writes of registers need (R446). -/
def firstWrites (g : Group) (ws : List Reg) : List Reg :=
  match g.opn with
  | some c => ws.filter fun r => !c.wrote.contains r
  | none => ws

/-- R446: whether the lane's checkpoint store has room for `n` more words. -/
def storeRoom (s : State) (g : Group) (n : Nat) : Bool := decide (laneWords s g.place.core g.place.lane + n ≤ 1024)

/-- The active set an instruction is checked with: for BRA, BRD, LOOP and CALL the active mask (R105). -/
def setFor (u : Use) (r : Regs) : Mask := if u.ctl then r.amask else activeSet r u.g

/-- R105, R445: an instruction with an empty active set counts and has no effect. -/
def skip (u : Use) (s : State) : State := retire u 0 [] (s.setMe (openChunk s.me))

/-- R358, R56: the first obstacle among the registers an instruction uses: a held register, a poisoned one it reads, one that awaits a
load. -/
inductive Obstacle where
  | held (r : Reg)
  | poisoned (r : Reg)
  | load
deriving DecidableEq, Repr

/-- The obstacle an instruction meets, if any. -/
def obstacle (u : Use) (g : Group) : Option Obstacle :=
  match (u.reads ++ u.writes).find? fun r => (g.holdOf r).held with
  | some r => some (.held r)
  | none =>
    match u.reads.find? fun r => (g.holdOf r).poison with
    | some r => some (.poisoned r)
    | none => if u.reads.any g.awaits then some .load else none

/-- What an obstacle does to the running group: suspension (R358), an orphan-hold fault (R358, R403), a held lane (R56). -/
def meetObstacle (o : Obstacle) (S : Mask) (s : State) : State :=
  match o with
  | .held r => suspendAt (.held r) s
  | .poisoned r => raiseAt 0xB (s.me.holdOf r).cause.toNat (r.zeroExtend 32) S s
  | .load => holdFor stallScoreboard s

/-- R445: the effective limit reached before this instruction. -/
def Group.limitReached (g : Group) : Bool := g.opn.any fun c => decide (c.lim ≤ c.count)

/-- The last of the checks: the commit wait of an irrevocable instruction (R445), or room in the checkpoint store (R446); then the instruction
acts, inside the open chunk or outside every chunk. `rows` counts the local rows the instruction writes for the first time. -/
def enter (u : Use) (rows : Group → Nat) (S : Mask) (s : State) : Pre :=
  if u.irr then
    if s.me.uncommitted then .stop (.next (closeAndHold s))
    else .go (s.setMe { s.me with opn := none, hold := none }) S
  else
    let g := openChunk s.me
    let new := firstWrites g u.writes
    if storeRoom s g ((new.map fun r => (tagOf g.place.shape r).words).sum + 5 * rows g) then
      .go (s.setMe (g.onOpen fun c => { c with wrote := new ++ c.wrote })) S
    else .stop (.next (closeAndHold s))

/-- R446: how many of the local rows that hold these bytes the group's open chunk has not yet written. -/
def newRows (addrs : List Nat) (g : Group) : Nat :=
  let old : List Nat := match g.opn with | some c => c.undo.map (fun (e : Nat × Byte) => e.1 / 16) | none => []
  (((addrs.map (· / 16)).eraseDups).filter fun r => !old.contains r).length

/-- The checks in their order. -/
def prelude (i : Instr) (rows : Group → Nat) (s : State) : Pre :=
  let g := s.me
  if !g.live then .stop (.fault .noGroup)
  else match g.pend with
  | some f => if g.uncommitted then .stop (.next (closeAndHold s)) else .stop (.next (takeTrap s.cur f s))
  | none =>
    let u := useOf g.regs.fmt i
    let S := setFor u g.regs
    if g.loads.any Load.hold then .stop (.next (holdFor stallScoreboard s))
    else if !wordOk g i then .stop (.next (illegal S s))
    else if g.closeReq then .stop (.next (closeAndHold s))
    else
      let s := if g.limitReached then s.setMe (closeChunk g) else s
      if s.me.closeReq then .stop (.next (holdFor stallChunk s))
      else if S = 0 then .stop (.next (skip u s))
      else if u.forbid && g.place.slice.isSome then .stop (.next (raiseAt 0xC 4 0 S s))
      else match obstacle u s.me with
      | some o => .stop (.next (meetObstacle o S s))
      | none => enter u rows S s

/-- The lowest thread alone under a uniform mark, every active thread otherwise (R58). -/
def execSet (g : Group) (S : Mask) : Mask := if g.uniMark then oneThread (lowest S) else S

/-- R58: a result as every active thread is to have it. -/
def spread (g : Group) (S : Mask) (r : Nat → Word) : Nat → Word := if g.uniMark then fun _ => r (lowest S) else r

/-- R98: the running group's registers with one destination written, or none on a shape fault. -/
def writeReg (g : Group) (d : Reg) (r : Nat → Word) (S : Mask) (fit : Bool) : Option Group :=
  match writeVec g.place.shape g.regs.v d (spread g S r) S fit with
  | some v => some { g with regs := { g.regs with v := v } }
  | none => none

/-- The element of a register of the running group. -/
def Group.elem (g : Group) (r : Reg) (t : Nat) : Word := readElem g.place.shape g.regs.v r t

/-- The value of a U-tagged register. -/
def Group.uval (g : Group) (r : Reg) : Word := g.elem r 0

/-- The 64-bit value of a U-tagged pair. -/
def Group.upair (g : Group) (r : Reg) : Word64 := readPair g.place.shape g.regs.v r 0

/-- The end of an instruction that writes one register. -/
def finishWrite (u : Use) (d : Reg) (r : Nat → Word) (S : Mask) (fit : Bool) (s : State) : Res :=
  match writeReg s.me d r S fit with
  | some g => .next (retire u S u.writes (s.setMe g))
  | none => .next (shapeFault d S s)

/-- An instruction that computes one element per active thread and writes it to a vector register (R98, R103). -/
def vecOp (i : Instr) (d : Reg) (fit : Bool) (f : Group → Mask → Nat → Word) (s : State) : Res :=
  match prelude i (fun _ => 0) s with
  | .stop r => r
  | .go s S => finishWrite (useOf s.me.regs.fmt i) d (f s.me (execSet s.me S)) S fit s

/-- The bits of a predicate result, under the uniform mark those of the lowest active thread (R58). -/
def predBits (g : Group) (S : Mask) (b : Nat → Bool) : Mask :=
  if g.uniMark then (if b (lowest S) then BitVec.allOnes 32 else 0) else maskOf b

/-- An instruction that computes one bit per active thread and writes it to a predicate (R104). -/
def predOp (i : Instr) (p : Pred) (f : Group → Mask → Nat → Bool) (s : State) : Res :=
  match prelude i (fun _ => 0) s with
  | .stop r => r
  | .go s S =>
    let g := s.me
    .next (retire (useOf g.regs.fmt i) S []
      (s.setMe { g with regs := { g.regs with p := writePred g.regs.p p (predBits g S (f g (execSet g S))) S } }))

/-- The end of an instruction after which threads may be gone: R125 decides where the group goes on. `s0` is the state before the instruction. -/
def finishAfter (u : Use) (S : Mask) (ws : List Reg) (s0 s : State) : Res :=
  match settle s.cur (stkDepth s.me.regs + 1) s with
  | .stays s => .next (retire u S ws s)
  | .resumes s pc => .next (resumeAt u S ws pc s)
  | .ends s => .next (exitGroup s.cur (retire u S ws s))
  | .bad => .next (stackFault 3 S s0)

/-- An instruction that acts once per group, between its checks and its end. -/
def groupOp (i : Instr) (f : Use → Mask → State → Res) (s : State) : Res :=
  match prelude i (fun _ => 0) s with
  | .stop r => r
  | .go s S => f (useOf s.me.regs.fmt i) S s

end Sys2Proof.Machine
end

