-- ==== Sys2Proof/Machine/Control.lean ====
section
/-! DEFINITION. Control instructions (R127 to R134, R138). -/
namespace Sys2Proof.Machine

/-- The active threads that a guard selects: under a uniform mark the lowest active thread's guard decides for all (R138). -/
def guarded (g : Group) (gd : Guard) : Mask :=
  let B := activeSet g.regs gd
  if g.uniMark then (if B.getLsbD (lowest g.regs.amask) then g.regs.amask else 0) else B

/-- R65: the target of a branch, counted from the header of its clause. -/
def branchTarget (g : Group) (off : Word) : Pc :=
  (match g.clause with | some c => c.base | none => g.pc) + (off.signExtend 48 <<< 3)

/-- The address of the clause after the running group's instruction. -/
def nextClause (g : Group) : Pc := g.pc + 8

/-- The running group's active mask replaced. -/
def setActive (m : Mask) (s : State) : State := s.setMe { s.me with regs := { s.me.regs with amask := m } }

/-- R123, R446: the rows that pushing `n` entries writes for the first time. -/
def pushRows (n : Nat) (g : Group) : Nat := newRows (spillBytes n g) g

/-- R123, R137: entries pushed, the first of the list first, all or none; then the rest of the instruction. Where another group's chunk stands in the
way (R171), nothing of the instruction has happened. -/
def pushAll (S : Mask) : List StackEntry → State → (State → Res) → State → Res
  | [], _, k, s => k s
  | e :: es, s0, k, s =>
    match pushEntry s.cur e s with
    | .ok s => pushAll S es s0 k s
    | .beyond => .next (stackFault 1 S s0)
    | .conflict o => .next (meetChunk o s0)

/-- R127: the group goes on at the target with `B`, and `F` waits at the next clause. -/
def branchOn (u : Use) (B F : Mask) (target : Pc) (ws : List Reg) (s0 s : State) : Res :=
  let g := s.me
  let S := g.regs.amask
  let next := nextClause g
  if F = 0 then .next (jumpTo u S ws target s)
  else if B = 0 then .next (retire u S ws s)
  else
    let go := fun (s : State) => Host.Outcome.next (jumpTo u S ws target (setActive B s))
    match g.regs.stack with
    | e :: rest =>
      if e.kind == 1 && e.target == next then
        go (s.setMe { g with regs := { g.regs with stack := { e with mask := e.mask ||| F } :: rest } })
      else pushAll S [{ fmt := g.regs.fmt, mask := F, kind := 1, target := next }] s0 go s
    | [] => pushAll S [{ fmt := g.regs.fmt, mask := F, kind := 1, target := next }] s0 go s

/-- R127. -/
def execBra (g : Guard) (off : Word) (s : State) : Res :=
  match prelude (.bra g off) (pushRows 1) s with
  | .stop r => r
  | .go s _ =>
    let B := guarded s.me g
    branchOn (useOf s.me.regs.fmt (.bra g off)) B (s.me.regs.amask &&& ~~~B) (branchTarget s.me off) [] s s

/-- R128. -/
def execBrd (g : Guard) (off : Word) (s : State) : Res :=
  match prelude (.brd g off) (pushRows 2) s with
  | .stop r => r
  | .go s _ =>
    let u := useOf s.me.regs.fmt (.brd g off)
    let r := s.me.regs
    let B := guarded s.me g
    let F := r.amask &&& ~~~B
    let target := branchTarget s.me off
    let whole : StackEntry := { fmt := r.fmt, mask := r.amask, kind := 0, target := reconv }
    if F = 0 then pushAll r.amask [whole] s (fun s => .next (jumpTo u r.amask [] target s)) s
    else if B = 0 then pushAll r.amask [whole] s (fun s => .next (retire u r.amask [] s)) s
    else
      pushAll r.amask [whole, { fmt := r.fmt, mask := B, kind := 0, target := target }] s
        (fun s => .next (retire u r.amask [] (setActive F s))) s

/-- R129: the entry JOIN acts on, past pending entries without threads, over at most `n` entries; a cause of R137 where there is none. -/
def joinEntry (k : Nat) : Nat → State → Except Nat (StackEntry × State)
  | 0, _ => .error 2
  | n + 1, s =>
    match popEntry k s with
    | none => .error 2
    | some (e, s) =>
      if 3 < e.kind.toNat then .error 3
      else if e.kind ≠ 0 then .error 2
      else if e.target ≠ reconv ∧ e.mask = 0 then joinEntry k n s
      else .ok (e, s)

/-- R129. -/
def execJoin (s : State) : Res :=
  match prelude .join (fun _ => 0) s with
  | .stop r => r
  | .go s S =>
    let u := useOf s.me.regs.fmt .join
    match joinEntry s.cur (stkDepth s.me.regs) s with
    | .error c => .next (stackFault c S s)
    | .ok (e, t) =>
      let t := t.setMe { t.me with regs := { t.me.regs with amask := e.mask, fmt := e.fmt } }
      if e.target = reconv then finishAfter u S [] s t else .next (jumpTo u S [] e.target t)

/-- R130: the count of a thread after LOOP. -/
def loopCount (g : Group) (va : Reg) (t : Nat) : Word := g.elem va t - 1

/-- R130, R138. Where the count does not fit its register and the entry cannot be pushed either, the shape fault is the one raised; R137 gives no
order (DESIGN CHOICE, log 91). -/
def execLoop (g : Guard) (va : Reg) (off : Word) (fit : Bool) (s : State) : Res :=
  match prelude (.loop g va off fit) (pushRows 1) s with
  | .stop r => r
  | .go s S =>
    let u := useOf s.me.regs.fmt (.loop g va off fit)
    let G := s.me
    let C := guarded G g
    let count := fun t => if G.uniMark then loopCount G va (lowest S) else loopCount G va t
    let B := C &&& maskOf fun t => count t != 0
    match writeVec G.place.shape G.regs.v va count C fit with
    | none => .next (shapeFault va C s)
    | some v =>
      branchOn u B (S &&& ~~~B) (branchTarget G off) [va] s (s.setMe { G with regs := { G.regs with v := v } })

/-- R131. -/
def execCall (g : Guard) (off : Word) (s : State) : Res :=
  match prelude (.call g off) (pushRows 2) s with
  | .stop r => r
  | .go s S =>
    let u := useOf s.me.regs.fmt (.call g off)
    let G := s.me
    let C := guarded G g
    let F := S &&& ~~~C
    let back := nextClause G
    let entry := fun (k : BitVec 4) (m : Mask) => ({ fmt := G.regs.fmt, mask := m, kind := k, target := back } : StackEntry)
    if C = 0 then .next (retire u S [] s)
    else
      pushAll S ((if F = 0 then [] else [entry 1 F]) ++ [entry 2 C]) s
        (fun s => .next (jumpTo u S [] (branchTarget G off) (setActive C s))) s

/-- R126, R446: the rows that removing threads from spilled entries writes for the first time. -/
def removeRows (s : State) (m : Mask) (ret : Bool) (g : Group) : Nat :=
  newRows (hitBytes s s.cur m ret) g

/-- R126, R171: threads removed, then the rest of the instruction; another group's uncommitted chunk on the bytes of a spilled entry comes first. -/
def removeThen (m : Mask) (ret : Bool) (k : State → Res) (s : State) : Res :=
  match localConflict s s.cur s.me.place.core (hitBytes s s.cur m ret) with
  | some o => .next (meetChunk o s)
  | none => k (removeThreads s.cur m ret s)

/-- R132, R138. -/
def execRet (g : Guard) (s : State) : Res :=
  match prelude (.ret g) (removeRows s (guarded s.me g) true) s with
  | .stop r => r
  | .go s S =>
    let u := useOf s.me.regs.fmt (.ret g)
    let R := guarded s.me g
    if R = 0 then .next (retire u S [] s)
    else if R = s.me.regs.amask then
      match popEntry s.cur s with
      | none => .next (stackFault 2 R s)
      | some (e, t) =>
        if 3 < e.kind.toNat then .next (stackFault 3 R s)
        else if e.kind ≠ 2 then .next (stackFault 2 R s)
        else
          let t := setActive e.mask t
          if e.mask = 0 then finishAfter u S [] s t else .next (jumpTo u S [] e.target t)
    else removeThen R true (fun s => .next (retire u S [] s)) s

/-- R133, R138. -/
def execExit (g : Guard) (s : State) : Res :=
  match prelude (.exit g) (removeRows s (guarded s.me g) false) s with
  | .stop r => r
  | .go s S =>
    let u := useOf s.me.regs.fmt (.exit g)
    let R := guarded s.me g
    if R = 0 then .next (retire u S [] s)
    else removeThen R false (finishAfter u S [] s) s

/-- R134. -/
def execNop (g : Guard) (s : State) : Res := groupOp (.nop g) (fun u S s => .next (retire u S [] s)) s

/-- R57, R134. -/
def execYield (g : Guard) (s : State) : Res :=
  groupOp (.yield g) (fun u S s =>
    let s := retire u S [] s
    .next (s.setMe { s.me with yielded := true })) s

end Sys2Proof.Machine
end

