-- ==== Sys2Proof/Machine/Int.lean ====
section
/-! DEFINITION. Integer, logic, shift, field, address, compare and move instructions (R106, R111 to R117). -/
namespace Sys2Proof.Machine

/-! ### Operations on elements -/

/-- R112, IMULH: the high 32 bits of the 64-bit product. -/
def mulHigh (u : Bool) (a b : Word) : Word :=
  if u then BitVec.ofNat 32 (a.toNat * b.toNat / 2 ^ 32) else BitVec.ofInt 32 (a.toInt * b.toInt / 2 ^ 32)

/-- R113, IDIV. -/
def divide (u : Bool) (a b : Word) : Word :=
  if b = 0 then BitVec.allOnes 32
  else if u then BitVec.ofNat 32 (a.toNat / b.toNat) else BitVec.ofInt 32 (a.toInt.tdiv b.toInt)

/-- R113, IREM. -/
def remainder (u : Bool) (a b : Word) : Word :=
  if b = 0 then a
  else if u then BitVec.ofNat 32 (a.toNat % b.toNat) else BitVec.ofInt 32 (a.toInt.tmod b.toInt)

/-- Whether a lies below b, signed or unsigned. -/
def below (u : Bool) (a b : Word) : Bool := if u then decide (a.toNat < b.toNat) else decide (a.toInt < b.toInt)

/-- R112, IMIN. -/
def minWord (u : Bool) (a b : Word) : Word := if below u b a then b else a

/-- R112, IMAX. -/
def maxWord (u : Bool) (a b : Word) : Word := if below u a b then b else a

/-- R112, IABS. -/
def absWord (a : Word) : Word := if a.toInt < 0 then 0 - a else a

/-- R112, POPC. -/
def popCount (a : Word) : Word := BitVec.ofNat 32 ((List.range 32).filter fun i => a.getLsbD i).length

/-- R112, CLZ. -/
def leadingZeros (a : Word) : Word := BitVec.ofNat 32 (if a = 0 then 32 else 31 - Nat.log2 a.toNat)

/-- R112, BREV. -/
def bitReverse (a : Word) : Word := maskOf fun i => a.getLsbD (31 - i)

/-- R114, SHL: 0 for a count of 32 or more. -/
def shiftLeft (a b : Word) : Word := if 32 ≤ b.toNat then 0 else a <<< b.toNat

/-- R114, SHR: 0 for a count of 32 or more. -/
def shiftRight (a b : Word) : Word := if 32 ≤ b.toNat then 0 else a >>> b.toNat

/-- R114, SAR: the sign in every bit for a count of 32 or more. -/
def shiftArith (a b : Word) : Word :=
  if 32 ≤ b.toNat then (if a.toInt < 0 then BitVec.allOnes 32 else 0) else a.sshiftRight b.toNat

/-- R114: the position f[4:0] of a field. -/
def fieldPos (f : Word) : Nat := (f.extractLsb' 0 5).toNat

/-- R114: the width f[13:8] of a field, at most 32. -/
def fieldWidth (f : Word) : Nat := min 32 (f.extractLsb' 8 6).toNat

/-- R114, BFX: bits above bit 31 read as zero, or as the sign of a with .s; then the field is extended from its top bit. -/
def extractField (sgn : Bool) (a f : Word) : Word :=
  let w := fieldWidth f
  if w = 0 then 0
  else if sgn then
    let x := a.toInt / 2 ^ fieldPos f % 2 ^ w
    BitVec.ofInt 32 (if 2 ^ (w - 1) ≤ x then x - 2 ^ w else x)
  else BitVec.ofNat 32 (a.toNat / 2 ^ fieldPos f % 2 ^ w)

/-- R114, BFI: bits above bit 31 are not written. -/
def insertField (a b f : Word) : Word :=
  let m : Word := BitVec.ofNat 32 ((2 ^ fieldWidth f - 1) * 2 ^ fieldPos f)
  (b &&& ~~~m) ||| ((a <<< fieldPos f) &&& m)

/-- R115, LEA: the 64-bit address. -/
def leaSum (u : Bool) (n : Nat) (x : Word64) (b : Word) : Word64 :=
  x + ((if u then b.zeroExtend 64 else b.signExtend 64) <<< n)

/-- R116: the condition of ISETP. -/
def compareInt (c : Cond) (u : Bool) (a b : Word) : Bool :=
  match c with
  | .eq => a == b
  | .ne => a != b
  | .lt => below u a b
  | .le => !below u b a
  | .gt => below u b a
  | .ge => !below u a b

/-- R116: the result combined with a predicate. -/
def combine (k : Comb) (x q : Bool) : Bool :=
  match k with
  | .none => x
  | .and => x && q
  | .or => x || q
  | .xor => x != q

/-- R106, R434: a special register for a thread. -/
def special (s : State) (g : Group) (r : Sreg) (t : Nat) : Word :=
  let inSlice := g.place.slice.isSome
  let unlessSlice := fun (n : Nat) => if inSlice then (0 : Word) else BitVec.ofNat 32 n
  match r with
  | .tid => BitVec.ofNat 32 t
  | .gid => unlessSlice g.place.gid
  | .cx => unlessSlice (g.place.core % 16)
  | .cy => unlessSlice (g.place.core / 16)
  | .lane => unlessSlice g.place.lane
  | .stage => unlessSlice g.place.stage
  | .round => unlessSlice (s.core g.place.core).revision
  | .pkg => BitVec.ofNat 32 s.pkg.pkg
  | .name => if inSlice then BitVec.allOnes 32 else g.place.name.extractLsb' 32 32

/-! ### The instructions -/

/-- An operation on two registers (R112). -/
def op2 (i : Instr) (d a b : Reg) (fit : Bool) (f : Word → Word → Word) (s : State) : Res :=
  vecOp i d fit (fun g _ t => f (g.elem a t) (g.elem b t)) s

/-- An operation on one register (R112). -/
def op1 (i : Instr) (d a : Reg) (fit : Bool) (f : Word → Word) (s : State) : Res :=
  vecOp i d fit (fun g _ t => f (g.elem a t)) s

/-- R112. -/
def execIaddA (g : Guard) (d a b : Reg) (fit : Bool) (s : State) : Res := op2 (.iaddA g d a b fit) d a b fit (· + ·) s
/-- R112. -/
def execIaddI (g : Guard) (d a : Reg) (imm : Word) (fit : Bool) (s : State) : Res := op1 (.iaddI g d a imm fit) d a fit (· + imm) s
/-- R112. -/
def execIsub (g : Guard) (d a b : Reg) (fit : Bool) (s : State) : Res := op2 (.isub g d a b fit) d a b fit (· - ·) s
/-- R112. -/
def execImulA (g : Guard) (d a b : Reg) (fit : Bool) (s : State) : Res := op2 (.imulA g d a b fit) d a b fit (· * ·) s
/-- R112. -/
def execImulI (g : Guard) (d a : Reg) (imm : Word) (fit : Bool) (s : State) : Res := op1 (.imulI g d a imm fit) d a fit (· * imm) s
/-- R112. -/
def execImulh (g : Guard) (d a b : Reg) (u fit : Bool) (s : State) : Res := op2 (.imulh g d a b u fit) d a b fit (mulHigh u) s
/-- R112. -/
def execImad (g : Guard) (d a b c : Reg) (fit : Bool) (s : State) : Res :=
  vecOp (.imad g d a b c fit) d fit (fun g _ t => g.elem a t * g.elem b t + g.elem c t) s
/-- R113. -/
def execIdiv (g : Guard) (d a b : Reg) (u fit : Bool) (s : State) : Res := op2 (.idiv g d a b u fit) d a b fit (divide u) s
/-- R113. -/
def execIrem (g : Guard) (d a b : Reg) (u fit : Bool) (s : State) : Res := op2 (.irem g d a b u fit) d a b fit (remainder u) s
/-- R112. -/
def execImin (g : Guard) (d a b : Reg) (u fit : Bool) (s : State) : Res := op2 (.imin g d a b u fit) d a b fit (minWord u) s
/-- R112. -/
def execImax (g : Guard) (d a b : Reg) (u fit : Bool) (s : State) : Res := op2 (.imax g d a b u fit) d a b fit (maxWord u) s
/-- R112. -/
def execIabs (g : Guard) (d a : Reg) (fit : Bool) (s : State) : Res := op1 (.iabs g d a fit) d a fit absWord s
/-- R112. -/
def execIneg (g : Guard) (d a : Reg) (fit : Bool) (s : State) : Res := op1 (.ineg g d a fit) d a fit (0 - ·) s
/-- R112. -/
def execAndA (g : Guard) (d a b : Reg) (fit : Bool) (s : State) : Res := op2 (.andA g d a b fit) d a b fit (· &&& ·) s
/-- R112. -/
def execAndI (g : Guard) (d a : Reg) (imm : Word) (fit : Bool) (s : State) : Res := op1 (.andI g d a imm fit) d a fit (· &&& imm) s
/-- R112. -/
def execOrA (g : Guard) (d a b : Reg) (fit : Bool) (s : State) : Res := op2 (.orA g d a b fit) d a b fit (· ||| ·) s
/-- R112. -/
def execOrI (g : Guard) (d a : Reg) (imm : Word) (fit : Bool) (s : State) : Res := op1 (.orI g d a imm fit) d a fit (· ||| imm) s
/-- R112. -/
def execXorA (g : Guard) (d a b : Reg) (fit : Bool) (s : State) : Res := op2 (.xorA g d a b fit) d a b fit (· ^^^ ·) s
/-- R112. -/
def execXorI (g : Guard) (d a : Reg) (imm : Word) (fit : Bool) (s : State) : Res := op1 (.xorI g d a imm fit) d a fit (· ^^^ imm) s
/-- R112. -/
def execNot (g : Guard) (d a : Reg) (fit : Bool) (s : State) : Res := op1 (.not g d a fit) d a fit (~~~·) s
/-- R112. -/
def execPopc (g : Guard) (d a : Reg) (fit : Bool) (s : State) : Res := op1 (.popc g d a fit) d a fit popCount s
/-- R112. -/
def execClz (g : Guard) (d a : Reg) (fit : Bool) (s : State) : Res := op1 (.clz g d a fit) d a fit leadingZeros s
/-- R112. -/
def execBrev (g : Guard) (d a : Reg) (fit : Bool) (s : State) : Res := op1 (.brev g d a fit) d a fit bitReverse s
/-- R114. -/
def execShlA (g : Guard) (d a b : Reg) (fit : Bool) (s : State) : Res := op2 (.shlA g d a b fit) d a b fit shiftLeft s
/-- R114. -/
def execShlI (g : Guard) (d a : Reg) (imm : Word) (fit : Bool) (s : State) : Res := op1 (.shlI g d a imm fit) d a fit (shiftLeft · imm) s
/-- R114. -/
def execShrA (g : Guard) (d a b : Reg) (fit : Bool) (s : State) : Res := op2 (.shrA g d a b fit) d a b fit shiftRight s
/-- R114. -/
def execShrI (g : Guard) (d a : Reg) (imm : Word) (fit : Bool) (s : State) : Res := op1 (.shrI g d a imm fit) d a fit (shiftRight · imm) s
/-- R114. -/
def execSarA (g : Guard) (d a b : Reg) (fit : Bool) (s : State) : Res := op2 (.sarA g d a b fit) d a b fit shiftArith s
/-- R114. -/
def execSarI (g : Guard) (d a : Reg) (imm : Word) (fit : Bool) (s : State) : Res := op1 (.sarI g d a imm fit) d a fit (shiftArith · imm) s
/-- R114. -/
def execBfx (g : Guard) (d a f : Reg) (sgn fit : Bool) (s : State) : Res := op2 (.bfx g d a f sgn fit) d a f fit (extractField sgn) s
/-- R114. -/
def execBfi (g : Guard) (d a b f : Reg) (fit : Bool) (s : State) : Res :=
  vecOp (.bfi g d a b f fit) d fit (fun g _ t => insertField (g.elem a t) (g.elem b t) (g.elem f t)) s

/-- R98, R115: a pair of destinations, both checked before either is written. -/
def writePair (g : Group) (d : Reg) (r : Nat → Word64) (S : Mask) (fit : Bool) : Except Reg Group :=
  match writeReg g d (fun t => (r t).extractLsb' 0 32) S fit with
  | none => .error d
  | some g1 =>
    match writeReg g1 (regAt d 1) (fun t => (r t).extractLsb' 32 32) S fit with
    | none => .error (regAt d 1)
    | some g2 => .ok g2

/-- R115. -/
def execLea (g : Guard) (d a b : Reg) (n : BitVec 5) (u fit : Bool) (s : State) : Res :=
  groupOp (.lea g d a b n u fit) (fun use S s =>
    let g := s.me
    match writePair g d (fun t => leaSum u n.toNat (readPair g.place.shape g.regs.v a t) (g.elem b t)) S fit with
    | .error r => .next (shapeFault r S s)
    | .ok g => .next (retire use S use.writes (s.setMe g))) s

/-- R116. -/
def execIsetpA (g : Guard) (p : Pred) (a b : Reg) (c : Cond) (u : Bool) (k : Comb) (q : Pred) (s : State) : Res :=
  predOp (.isetpA g p a b c u k q) p
    (fun g _ t => combine k (compareInt c u (g.elem a t) (g.elem b t)) ((readPred g.regs.p q).getLsbD t)) s

/-- R116. -/
def execIsetpI (g : Guard) (p : Pred) (a : Reg) (imm : Word) (c : Cond) (u : Bool) (s : State) : Res :=
  predOp (.isetpI g p a imm c u) p (fun g _ t => compareInt c u (g.elem a t) imm) s

/-- R117. -/
def execSel (g : Guard) (d a b : Reg) (p : Pred) (n fit : Bool) (s : State) : Res :=
  vecOp (.sel g d a b p n fit) d fit
    (fun g _ t => if (readPred g.regs.p p).getLsbD t != n then g.elem a t else g.elem b t) s

/-- R117. -/
def execMov (g : Guard) (d a : Reg) (fit : Bool) (s : State) : Res := op1 (.mov g d a fit) d a fit id s

/-- R117. -/
def execMovi (g : Guard) (d : Reg) (imm : Word) (fit : Bool) (s : State) : Res := vecOp (.movi g d imm fit) d fit (fun _ _ _ => imm) s

/-- R106, R117. -/
def execMovs (g : Guard) (d : Reg) (r : Sreg) (fit : Bool) (s : State) : Res :=
  vecOp (.movs g d r fit) d fit (fun g _ t => special s g r t) s

end Sys2Proof.Machine
end

