-- ==== Sys2Proof/Machine/Float.lean ====
section
/-! DEFINITION. Floating-point, conversion and reduction instructions (R121, R140 to R158). -/
namespace Sys2Proof.Machine

/-- A result with its flags. -/
abbrev FRes := Nat × Word

/-- The flags of an instruction entered in flg when it completes (R81, R144). -/
def raiseFlags (f : Word) (g : Group) : Group := { g with regs := { g.regs with flg := g.regs.flg ||| f } }

/-- R81: the flags of the threads of a set. -/
def flagsOf (E : Mask) (f : Nat → Word) : Word := (threads E).foldl (fun w t => w ||| f t) 0

/-- An instruction that computes one element and its flags per active thread (R140, R142). -/
def floatOp (i : Instr) (d : Reg) (fit : Bool) (f : Group → Nat → FRes) (s : State) : Res :=
  match prelude i (fun _ => 0) s with
  | .stop r => r
  | .go s S =>
    let g := s.me
    let u := useOf g.regs.fmt i
    match writeReg g d (fun t => BitVec.ofNat 32 (f g t).1) S fit with
    | some g' => .next (retire u S u.writes (s.setMe (raiseFlags (flagsOf (execSet g S) fun t => (f g t).2) g')))
    | none => .next (shapeFault d S s)

/-- An element read as binary32 (R140). -/
def Group.f32 (g : Group) (r : Reg) (t : Nat) : FVal := readFloat fp32 (fmtZsi g.regs.fmt) (g.elem r t).toNat

/-- A 32-bit immediate read as binary32. -/
def Group.immF32 (g : Group) (imm : Word) : FVal := readFloat fp32 (fmtZsi g.regs.fmt) imm.toNat

/-- fmt.fsr of a group. -/
def Group.fsr (g : Group) : Bool := fmtFsr g.regs.fmt

/-- The governing mode (R141). -/
def Group.mode (g : Group) (r : Rnd) : Rounding := governing g.regs.fmt r

/-- R145. -/
def execFaddA (g : Guard) (d a b : Reg) (r : Rnd) (fit : Bool) (s : State) : Res :=
  floatOp (.faddA g d a b r fit) d fit (fun g t => addFloat fp32 g.fsr (g.mode r) (g.f32 a t) (g.f32 b t)) s
/-- R145. -/
def execFaddI (g : Guard) (d a : Reg) (imm : Word) (r : Rnd) (fit : Bool) (s : State) : Res :=
  floatOp (.faddI g d a imm r fit) d fit (fun g t => addFloat fp32 g.fsr (g.mode r) (g.f32 a t) (g.immF32 imm)) s
/-- R145. -/
def execFsub (g : Guard) (d a b : Reg) (r : Rnd) (fit : Bool) (s : State) : Res :=
  floatOp (.fsub g d a b r fit) d fit (fun g t => addFloat fp32 g.fsr (g.mode r) (g.f32 a t) (g.f32 b t).negate) s
/-- R145. -/
def execFmulA (g : Guard) (d a b : Reg) (r : Rnd) (fit : Bool) (s : State) : Res :=
  floatOp (.fmulA g d a b r fit) d fit (fun g t => mulFloat fp32 g.fsr (g.mode r) (g.f32 a t) (g.f32 b t)) s
/-- R145. -/
def execFmulI (g : Guard) (d a : Reg) (imm : Word) (r : Rnd) (fit : Bool) (s : State) : Res :=
  floatOp (.fmulI g d a imm r fit) d fit (fun g t => mulFloat fp32 g.fsr (g.mode r) (g.f32 a t) (g.immF32 imm)) s
/-- R145. -/
def execFfma (g : Guard) (d a b c : Reg) (r : Rnd) (fit : Bool) (s : State) : Res :=
  floatOp (.ffma g d a b c r fit) d fit (fun g t => fmaFloat fp32 g.fsr (g.mode r) (g.f32 a t) (g.f32 b t) (g.f32 c t)) s
/-- R147. -/
def execFmin (g : Guard) (d a b : Reg) (fit : Bool) (s : State) : Res :=
  floatOp (.fmin g d a b fit) d fit (fun g t => minmaxFloat true fp32 g.fsr (g.f32 a t) (g.f32 b t)) s
/-- R147. -/
def execFmax (g : Guard) (d a b : Reg) (fit : Bool) (s : State) : Res :=
  floatOp (.fmax g d a b fit) d fit (fun g t => minmaxFloat false fp32 g.fsr (g.f32 a t) (g.f32 b t)) s

/-- A comparison into a predicate (R148, R149). -/
def compareOp (i : Instr) (p : Pred) (c : FCond) (k : Comb) (q : Pred) (f : Group → Nat → FVal × FVal) (s : State) : Res :=
  match prelude i (fun _ => 0) s with
  | .stop r => r
  | .go s S =>
    let g := s.me
    let res := fun t => compareFloat c (f g t).1 (f g t).2
    let bits := predBits g S fun t => combine k (res t).1 ((readPred g.regs.p q).getLsbD t)
    let g' := { g with regs := { g.regs with p := writePred g.regs.p p bits S } }
    .next (retire (useOf g.regs.fmt i) S [] (s.setMe (raiseFlags (flagsOf (execSet g S) fun t => (res t).2) g')))

/-- R148. -/
def execFsetpA (g : Guard) (p : Pred) (a b : Reg) (c : FCond) (k : Comb) (q : Pred) (s : State) : Res :=
  compareOp (.fsetpA g p a b c k q) p c k q (fun g t => (g.f32 a t, g.f32 b t)) s
/-- R148. -/
def execFsetpI (g : Guard) (p : Pred) (a : Reg) (imm : Word) (c : FCond) (s : State) : Res :=
  compareOp (.fsetpI g p a imm c) p c .none 0 (fun g t => (g.f32 a t, g.immF32 imm)) s

/-- R150. -/
def execFrcp (g : Guard) (d a : Reg) (r : Rnd) (fit : Bool) (s : State) : Res :=
  floatOp (.frcp g d a r fit) d fit (fun g t => rcpFloat g.fsr (g.mode r) (g.f32 a t)) s
/-- R150. -/
def execFrsq (g : Guard) (d a : Reg) (r : Rnd) (fit : Bool) (s : State) : Res :=
  floatOp (.frsq g d a r fit) d fit (fun g t => rsqFloat g.fsr (g.mode r) (g.f32 a t)) s
/-- R150. -/
def execFexp2 (g : Guard) (d a : Reg) (r : Rnd) (fit : Bool) (s : State) : Res :=
  floatOp (.fexp2 g d a r fit) d fit (fun g t => exp2Float g.fsr (g.mode r) (g.f32 a t)) s
/-- R150. -/
def execFlog2 (g : Guard) (d a : Reg) (r : Rnd) (fit : Bool) (s : State) : Res :=
  floatOp (.flog2 g d a r fit) d fit (fun g t => log2Float g.fsr (g.mode r) (g.f32 a t)) s

/-! ### Packed halves (R152) -/

/-- The format of a packed type. -/
def halfFmt : HType → FFmt
  | .bf16x2 => bf16
  | .f16x2 => fp16

/-- Half `h` of an element. -/
def half (x : Word) (h : Nat) : Nat := bitsN x.toNat (16 * h) 16

/-- R152: a result of two halves, each formed on its own, the flags ORed. -/
def packHalves (f : Nat → FRes) : FRes := ((f 0).1 + 65536 * (f 1).1, (f 0).2 ||| (f 1).2)

/-- Half `h` of an element as a value. -/
def Group.half (g : Group) (ty : HType) (r : Reg) (t h : Nat) : FVal :=
  readFloat (halfFmt ty) (fmtZsi g.regs.fmt) (Sys2Proof.Machine.half (g.elem r t) h)

/-- R152. -/
def execHadd2 (g : Guard) (d a b : Reg) (ty : HType) (r : Rnd) (fit : Bool) (s : State) : Res :=
  floatOp (.hadd2 g d a b ty r fit) d fit
    (fun g t => packHalves fun h => addFloat (halfFmt ty) g.fsr (g.mode r) (g.half ty a t h) (g.half ty b t h)) s
/-- R152. -/
def execHmul2 (g : Guard) (d a b : Reg) (ty : HType) (r : Rnd) (fit : Bool) (s : State) : Res :=
  floatOp (.hmul2 g d a b ty r fit) d fit
    (fun g t => packHalves fun h => mulFloat (halfFmt ty) g.fsr (g.mode r) (g.half ty a t h) (g.half ty b t h)) s
/-- R152. -/
def execHfma2 (g : Guard) (d a b c : Reg) (ty : HType) (r : Rnd) (fit : Bool) (s : State) : Res :=
  floatOp (.hfma2 g d a b c ty r fit) d fit
    (fun g t => packHalves fun h => fmaFloat (halfFmt ty) g.fsr (g.mode r) (g.half ty a t h) (g.half ty b t h) (g.half ty c t h)) s

/-! ### Conversions (R154, R155) -/

/-- Part `i` of an element of a format (R153). -/
def readPart (e : Elem) (i : Nat) (x : Word) : Nat := bitsN x.toNat (e.width * i) e.width

/-- An element with part `i` of a format replaced (R155). -/
def writePart (e : Elem) (i : Nat) (y : Word) (q : Nat) : Word :=
  let m : Word := BitVec.ofNat 32 ((2 ^ e.width - 1) * 2 ^ (e.width * i))
  (y &&& ~~~m) ||| BitVec.ofNat 32 (q * 2 ^ (e.width * i))

/-- R155: the element and the flags of a conversion for one thread. -/
def convertElem (g : Group) (d a : Reg) (dst src : Elem) (outp inp : BitVec 4) (r : Rnd) (t : Nat) : FRes :=
  let q := convert src dst (fmtZsi g.regs.fmt) g.fsr (g.mode r) (readPart src inp.toNat (g.elem a t))
  ((writePart dst outp.toNat (g.elem d t) q.1).toNat, q.2)

/-- R154, R155. -/
def execFcvt (g : Guard) (d a : Reg) (dst src : Elem) (outp inp : BitVec 4) (r : Rnd) (fit : Bool) (s : State) : Res :=
  floatOp (.fcvt g d a dst src outp inp r fit) d fit (fun g t => convertElem g d a dst src outp inp r t) s
/-- R154, R155. -/
def execIcvt (g : Guard) (d a : Reg) (dst src : Elem) (outp inp : BitVec 4) (r : Rnd) (fit : Bool) (s : State) : Res :=
  floatOp (.icvt g d a dst src outp inp r fit) d fit (fun g t => convertElem g d a dst src outp inp r t) s

/-! ### Group reductions (R121) -/

/-- One combination step of REDG. -/
def combineStep (g : Group) (op : RedgOp) (x y : Word) : FRes :=
  let v := fun (w : Word) => readFloat fp32 (fmtZsi g.regs.fmt) w.toNat
  match op with
  | .iadd => ((x + y).toNat, 0)
  | .imin => ((minWord false x y).toNat, 0)
  | .imax => ((maxWord false x y).toNat, 0)
  | .umin => ((minWord true x y).toNat, 0)
  | .umax => ((maxWord true x y).toNat, 0)
  | .and => ((x &&& y).toNat, 0)
  | .or => ((x ||| y).toNat, 0)
  | .xor => ((x ^^^ y).toNat, 0)
  | .fadd => addFloat fp32 g.fsr (roundOfFmt g.regs.fmt) (v x) (v y)
  | .fmin => minmaxFloat true fp32 g.fsr (v x) (v y)
  | .fmax => minmaxFloat false fp32 g.fsr (v x) (v y)

/-- R121: the inclusive prefixes of the remaining threads after `acc`, in ascending order, with the flags raised on the way. -/
def scanFrom (g : Group) (op : RedgOp) (a : Nat → Word) (acc : Word) : List Nat → List (Nat × Word) × Word × Word
  | [] => ([], acc, 0)
  | t :: ts =>
    let c := combineStep g op acc (a t)
    let r := scanFrom g op a (BitVec.ofNat 32 c.1) ts
    ((t, BitVec.ofNat 32 c.1) :: r.1, r.2.1, c.2 ||| r.2.2)

/-- R121: the result for each thread and the flags. -/
def reduceGroup (g : Group) (op : RedgOp) (scan : Bool) (a : Nat → Word) (E : Mask) : (Nat → Word) × Word :=
  match threads E with
  | [] => (fun _ => 0, 0)
  | t0 :: ts =>
    let r := scanFrom g op a (a t0) ts
    ((fun t => if scan then getT (a t0) r.1 t else r.2.1), r.2.2)

/-- R121. -/
def execRedg (g : Guard) (d a : Reg) (op : RedgOp) (scan fit : Bool) (s : State) : Res :=
  groupOp (.redg g d a op scan fit) (fun u S s =>
    let g := s.me
    let r := reduceGroup g op scan (g.elem a) (execSet g S)
    match writeReg g d r.1 S fit with
    | some g' => .next (retire u S u.writes (s.setMe (raiseFlags r.2 g')))
    | none => .next (shapeFault d S s)) s

/-! ### Quantisation (R156 to R158) -/

/-- Entry `e` of a duplication map: the channel it names, if it is valid (R95). -/
def mapEntry (m : Word64) (e : Nat) : Option Nat :=
  if m.getLsbD (8 * e + 7) then some (bitsN m.toNat (8 * e) 7) else none

/-- The valid entries of a map that name a channel. -/
def copiesOf (m : Word64) (ch : Nat) : Nat := ((List.range 8).filter fun e => mapEntry m e == some ch).length

/-- R157: a map with an entry for a channel, in the lowest free place, if there is one. -/
def allocEntry (m : Word64) (ch : Nat) : Word64 :=
  match (List.range 8).find? fun e => (mapEntry m e).isNone with
  | none => m
  | some e => BitVec.ofNat 64 (m.toNat - bitsN m.toNat (8 * e) 8 * 2 ^ (8 * e) + (128 + ch) * 2 ^ (8 * e))

/-- R157: whether |x| > th; false if either is a NaN. The comparison sets no flag, also where the threshold is a signalling NaN (DESIGN CHOICE,
log 92). -/
def outlier (x th : FVal) : Bool := !x.isNan && !th.isNan && ltFloat th.abs x.abs

/-- R157: the map after the allocation. -/
def allocMap (x : Nat → FVal) (th : FVal) (m : Word64) : Word64 :=
  (List.range 120).foldl (fun m ch => if outlier (x ch) th && copiesOf m ch == 0 then allocEntry m ch else m) m

/-- R157: x × s / n rounded once to the target. -/
def scaleTo (dst : Elem) (fsr : Bool) (mode : Rounding) (x s : FVal) (n : Nat) : FRes :=
  if x.isNan || s.isNan then
    let r := packValue dst fsr mode (.nan (x.isSig || s.isSig)); r
  else if zeroTimesInf x s then ((packValue dst fsr mode (.nan true)).1, flagNv)
  else match mulExact x s with
  | .fin neg m e =>
    match ffmtOf dst with
    | some f => if m = 0 then (f.signBit neg, 0) else roundTo f fsr mode neg m n e
    | none => toInt dst mode neg m n e
  | v => packValue dst fsr mode v

/-- The target format of QCVT (R78, R156). -/
def qcvtElem (f : Word) : Elem :=
  match fmtA f with
  | 0 => .bf16
  | 1 => .f16
  | 2 => .e4m3
  | 3 => .e5m2
  | 4 => .i8
  | 5 => .i4
  | _ => .t2

/-- R157: the code and flags of one channel. -/
def quantise (g : Group) (r : Rnd) (x : Nat → FVal) (sc : FVal) (m : Word64) (ch : Nat) : FRes :=
  let f := g.regs.fmt
  let go := scaleTo (qcvtElem f) g.fsr (g.mode r)
  if !fmtDup f then go (x ch) sc 1
  else if 120 ≤ ch then
    match mapEntry m (ch - 120) with
    | some c => if c ≤ 119 then go (x c) sc (copiesOf m c + 1) else (0, 0)
    | none => (0, 0)
  else go (x ch) sc (copiesOf m ch + 1)

/-- Registers written one after another under R98, or the first that does not fit, which a shape fault of QCVT names (DESIGN CHOICE, log 92). -/
def writeRegs (g : Group) (S : Mask) (fit : Bool) : List (Reg × (Nat → Word)) → Except Reg Group
  | [] => .ok g
  | (d, r) :: rest =>
    match writeVec g.place.shape g.regs.v d r S fit with
    | none => .error d
    | some v => writeRegs { g with regs := { g.regs with v := v } } S fit rest

/-- R156 to R158. The uniform mark has no effect, and every thread is written. -/
def execQcvt (g : Guard) (d a b c : Reg) (upd : Bool) (r : Rnd) (fit : Bool) (s : State) : Res :=
  groupOp (.qcvt g d a b c upd r fit) (fun u S s =>
    let g := s.me
    let f := g.regs.fmt
    let x := fun ch => g.f32 (regAt a (ch / 32)) (ch % 32)
    let m0 := g.upair (fmtDmap f)
    let m := if fmtDup f && upd then allocMap x (g.f32 b 0).abs m0 else m0
    let q := (List.range 128).map (quantise g r x (g.f32 c 0) m)
    let w := (qcvtElem f).width
    let o := q.foldr (fun e acc => e.1 + 2 ^ w * acc) 0
    let outs := (List.range (qcvtRegs f)).map fun j => (regAt d j, fun t => BitVec.ofNat 32 (bitsN o (1024 * j + 32 * t) 32))
    let maps := if fmtDup f then [(fmtDmap f, fun (_ : Nat) => m.extractLsb' 0 32), (regAt (fmtDmap f) 1, fun _ => m.extractLsb' 32 32)] else []
    match writeRegs g (BitVec.allOnes 32) fit (outs ++ maps) with
    | .error e => .next (shapeFault e S s)
    | .ok g' => .next (retire u S u.writes (s.setMe (raiseFlags (q.foldl (fun w e => w ||| e.2) 0) g')))) s

end Sys2Proof.Machine
end

