-- ==== Sys2Proof/Machine/Fetch.lean ====
section
/-! DEFINITION. Clauses: fetch and check (R51 to R60, R70), readiness (R55, R201), selection (R203, R204), entry to a clause (R124, R410). -/
namespace Sys2Proof.Machine

/-! ### Fetch -/

/-- A word is a clause header (R51). -/
def isHeader (w : Word64) : Bool := w.extractLsb' 59 5 == 31

/-- A 64-bit word at a virtual address of a context, through its page tables (R234). -/
def fetchWord (s : State) (ctx va : Nat) : Except Nat Word64 :=
  match walk s ctx va with
  | .ok x => .ok (BitVec.ofNat 64 (readLE s.homeMem (x.phys va) 8))
  | .error c => .error c

/-- Consecutive words, or the cause and the address of the first one that faults. -/
def fetchWords (s : State) (ctx : Nat) : Nat → Nat → Except (Nat × Nat) (List Word64)
  | _, 0 => .ok []
  | va, n + 1 =>
    match fetchWord s ctx va with
    | .error c => .error (c, va)
    | .ok w => match fetchWords s ctx (va + 8) n with
      | .error c => .error c
      | .ok ws => .ok (w :: ws)

/-- The class of a header (R52). -/
def hdrClass (h : Word64) : BitVec 3 := h.extractLsb' 56 3

/-- The number of instructions of a clause minus one (R52). -/
def hdrCount (h : Word64) : Nat := (h.extractLsb' 52 4).toNat

/-- R60: the checks on a header: no reserved field set, no class 0b111, no uniform mark beyond the count. -/
def headerOk (h : Word64) : Bool :=
  h.extractLsb' 36 4 == 0 && h.extractLsb' 32 2 == 0 && h.extractLsb' 0 16 == 0 && hdrClass h != 7 &&
  (List.range 16).all fun i => !h.getLsbD (16 + i) || decide (i ≤ hdrCount h)

/-- R60: the checks on the words of a clause of a class. -/
def wordsOk (cls : BitVec 3) : List Word64 → Bool
  | [] => true
  | [w] => !isHeader w && (classOf w == cls || classOf w == 6)
  | w :: ws => !isHeader w && classOf w == cls && (cls != 6 || w.extractLsb' 55 9 == 0x187) && wordsOk cls ws

/-- The fault of R60. Its record gives the address that R60 reports in both address fields (log 77), and the active set (R407). -/
def clauseFault (g : Group) (pc : Pc) : Flt :=
  { fltAt g 2 0 0 pc.toNat g.regs.amask (lowest g.regs.amask) with pc := pc }

/-- A translation fault met by the fetch, for every active thread (R407). -/
def fetchFault (g : Group) (cause : Nat) (va : Nat) : Flt := fltAt g 5 cause 0 va g.regs.amask (lowest g.regs.amask)

/-- R59: the header of a resumption, by a scan back over at most `n` words from the one before `pc`. A page without a translation ends the scan
without a header (DEDUCED, log 78). -/
def scanBack (s : State) (ctx : Nat) : Nat → Nat → Option Nat
  | _, 0 => none
  | pc, n + 1 =>
    if pc < 8 then none
    else match fetchWord s ctx (pc - 8) with
      | .error _ => none
      | .ok w => if isHeader w then some (pc - 8) else scanBack s ctx (pc - 8) n

/-- The clause with its header at `h`, checked (R60). -/
def fetchClause (s : State) (g : Group) (h : Nat) : Except Flt Clause :=
  match fetchWord s g.place.ctx h with
  | .error c => .error (fetchFault g c h)
  | .ok hdr =>
    if !headerOk hdr then .error (clauseFault g (BitVec.ofNat 48 h))
    else match fetchWords s g.place.ctx (h + 8) (hdrCount hdr + 1) with
      | .error e => .error (fetchFault g e.1 e.2)
      | .ok ws =>
        if wordsOk (hdrClass hdr) ws then
          .ok { base := BitVec.ofNat 48 h, hdr := hdr, first := BitVec.ofNat 48 (h + 8), words := ws }
        else .error (clauseFault g (BitVec.ofNat 48 h))

/-- R70: the header a Suava word is given: its class, one instruction, no waits. -/
def suavaHeader (w : Word64) : Word64 := 31#5 ++ classOf w ++ 0#4 ++ 15#4 ++ 15#4 ++ 0#44

/-- The clause the program counter of a group points at, and whether it stands at the clause's header (R59, R60, R70). -/
def locate (s : State) (g : Group) : Except Flt (Clause × Bool) :=
  let pc := g.pc.toNat
  if pc % 8 ≠ 0 then .error (clauseFault g g.pc)
  else match fetchWord s g.place.ctx pc with
  | .error c => .error (fetchFault g c pc)
  | .ok w =>
    if g.place.suava then .ok ({ base := g.pc, hdr := suavaHeader w, first := g.pc, words := [w] }, true)
    else if isHeader w then
      match fetchClause s g pc with
      | .ok c => .ok (c, true)
      | .error f => .error f
    else if g.entry == .header then .error (clauseFault g g.pc)
    else match scanBack s g.place.ctx pc 16 with
      | none => .error (clauseFault g g.pc)
      | some h =>
        match fetchClause s g h with
        | .error f => .error f
        | .ok c => if hdrCount c.hdr < (pc - h) / 8 - 1 then .error (clauseFault g (BitVec.ofNat 48 h)) else .ok (c, false)

/-! ### Readiness -/

/-- R55: the stall code of the first wait field that does not pass, for the group at key `k`. -/
def headerWait (s : State) (k : Nat) (h : Word64) : Option Nat :=
  let g := s.grp k
  let ld := (h.extractLsb' 48 4).toNat
  let st := (h.extractLsb' 44 4).toNat
  if ld != 15 && decide (ld < g.loads.length) then some 0x3
  else if st != 15 && decide (st < storesOut s k) then some 0x4
  else if h.getLsbD 43 && decide (0 < redsHeld g) then some 0x5
  else if h.getLsbD 42 && g.uncommitted then some 0x6
  else if h.getLsbD 41 && decide (0 < g.dlv) then some 0x7
  else if h.getLsbD 40 && decide (0 < g.mcmd) then some 0x8
  else none

/-- The stall code of a suspension (R217). -/
def Susp.code : Susp → Nat
  | .held _ => 0xD
  | .barrier _ _ => 0xE
  | .mwait _ => 0xF
  | .sleep _ _ => 0x10
  | .pipe _ _ _ => 0x11
  | .launch => 0x12
  | .parked _ => 0x15
  | .stopped => 0x15

/-- Whether the chunk a rerun waits for is resolved (R167, R171, R456). -/
def Group.waitsFor (s : State) (g : Group) : Bool :=
  match g.wait with
  | none => false
  | some (k, no) => (s.grp k).chunks.any fun c => c.no == no

/-- The line of a core's instruction cache that holds a program counter's word: its context and virtual line. -/
def icLine (ctx va : Nat) : Nat := ctx * 2 ^ 41 + va / 128

/-- The lines that hold a clause's header and words. -/
def Clause.lines (ctx : Nat) (c : Clause) : List Nat :=
  ((c.base.toNat :: (List.range c.words.length).map fun i => c.first.toNat + 8 * i).map (icLine ctx)).eraseDups

/-- R201: the lines of the group's next clause that its core's instruction cache does not hold. A clause whose fetch faults waits for none. -/
def missingLines (s : State) (g : Group) : List Nat :=
  match locate s g with
  | .error _ => []
  | .ok (c, _) => (c.lines g.place.ctx).filter fun l => !(s.core g.place.core).icache.contains l

/-- The fill of a line of a core's instruction cache, read through the L2 (R231); of 1024 lines the one filled first leaves (log 11). -/
def fillIcache (core line : Nat) (s : State) : State :=
  let va := line % 2 ^ 41 * 128
  let s := match walk s (line / 2 ^ 41) va with
    | .ok x => touchL2 s (lineOf (x.phys va)) false
    | .error _ => s
  let c := s.core core
  s.setCore core { c with icache := (line :: c.icache.filter (· != line)).take 1024 }

/-- R201: whether the queue of the bank that held the group's last clause has fewer than 8 free entries. -/
def bankWait (s : State) (g : Group) : Bool :=
  match g.banked with
  | some b => decide (8 < getT 0 (s.core g.place.core).bankq b)
  | none => false

/-- Whether a full save of its core holds the group back (R416, R440). -/
def savedWith (s : State) (g : Group) : Bool := g.place.slice.isNone && (s.core g.place.core).save.any Saving.full

/-- R201, condition 6: the cause for which a suspended or saved group, or one that a full save stops, is not ready. -/
def heldBack (s : State) (g : Group) : Option Nat :=
  match g.status with
  | .suspended why => some why.code
  | .saved => some 0x15
  | _ => if savedWith s g then some 0x15 else none

/-- R201: the first condition that fails, for the group at key `k` at a clause boundary; none when the group is Ready. A group whose rerun or whose
end waits for a commit fails before all of them. A clause whose fetch faults is ready to fault. A group that resumes inside a clause is examined with the
instruction it resumes at (DESIGN CHOICE, log 96). -/
def stallOf (s : State) (k : Nat) : Option Nat :=
  let g := s.grp k
  let last := (heldBack s g).orElse fun _ => if g.yielded then some 0x13 else none
  if g.status == .ended then some 0x1
  else if g.waitsFor s || g.exiting then some stallChunk
  else match locate s g with
  | .error _ => last
  | .ok (c, atHeader) =>
    let waits := g.entry != .rerun && (atHeader || g.pc == c.first)
    if !(missingLines s g).isEmpty then some 0x2
    else match (if waits then headerWait s k c.hdr else none) with
    | some n => some n
    | none =>
      let i := if atHeader then 0 else (g.pc - c.first).toNat / 8
      let reads := match decode (c.words.getD i 0) with | .ok i => (useOf g.regs.fmt i).reads | .error _ => []
      if reads.any g.awaits then some stallScoreboard
      else if hdrClass c.hdr == 2 && (decide (15 ≤ g.loads.length) || decide (15 ≤ storesOut s k)) then some stallSlot
      else if bankWait s g then some stallBank
      else last

/-- R55: the close that a commitwait does once at the boundary. -/
def boundaryClose (k : Nat) (s : State) : State :=
  let g := s.grp k
  if g.status != .waiting || g.opn.isNone then s
  else match locate s g with
  | .error _ => s
  | .ok (c, atHeader) =>
    if g.entry != .rerun && (atHeader || g.pc == c.first) && c.hdr.getLsbD 42 then s.setGrp k (closeChunk g) else s

/-- R54, R55: whether a group waits for stores or reductions that its own open chunk holds: at a header, or with its lane held for a free store. -/
def waitsForOwn (s : State) (k : Nat) : Bool :=
  let g := s.grp k
  g.holdsStore &&
  (match g.status with
   | .issuing => g.hold == some stallSlot && decide (15 ≤ storesOut s k)
   | .waiting => (match stallOf s k with
     | some n => n == 0x4 || n == 0x5 || (n == stallSlot && decide (15 ≤ storesOut s k))
     | none => false)
   | _ => false)

/-! ### Selection -/

/-- The keys of the groups resident on a lane. -/
def laneGroups (s : State) (core lane : Nat) : List Nat :=
  (s.groups.filter fun e => e.2.live && e.2.place.core == core && e.2.place.lane == lane && e.2.status != .saved && e.2.status != .ended).map
    Prod.fst

/-- R203, R433: a group's rank in the selection: a recompute slice before everything, then aged groups, then by role. -/
def rank (g : Group) : Nat :=
  if g.place.slice.isSome then 4 else if g.place.age ≤ g.w then 3 else g.place.role

/-- R204: of two candidates the one selected: higher rank, then larger w, then lower slot. -/
def better (s : State) (a b : Nat) : Bool :=
  let x := s.grp a
  let y := s.grp b
  decide (rank y < rank x) ||
  (rank x == rank y && (decide (y.w < x.w) || (x.w == y.w && decide (x.place.slot < y.place.slot))))

/-- The best of a list of candidates. -/
def pickBest (s : State) : List Nat → Option Nat
  | [] => none
  | k :: ks =>
    match pickBest s ks with
    | none => some k
    | some b => if better s b k then some b else some k

/-- R204: the group a lane selects. -/
def selectOn (s : State) (core lane : Nat) : Option Nat :=
  pickBest s ((laneGroups s core lane).filter fun k => (stallOf s k).isNone && (s.grp k).status != .issuing)

/-! ### Entry to a clause -/

/-- R124: pending and LOOP entries whose target is the clause's address are popped and their threads join. -/
def mergeAt (k : Nat) (pc : Pc) : Nat → State → State
  | 0, s => s
  | n + 1, s =>
    match (s.grp k).regs.stack with
    | [] => s
    | e :: _ =>
      if e.target == pc && (e.kind == 1 || (e.kind == 0 && e.target != reconv)) then
        match popEntry k s with
        | none => s
        | some (e, s) =>
          let g := s.grp k
          mergeAt k pc n (s.setGrp k { g with regs := { g.regs with amask := g.regs.amask ||| e.mask } })
      else s

/-- Whether R124 pops at a clause's address. -/
def mergesAt (g : Group) (pc : Pc) : Bool :=
  match g.regs.stack with
  | e :: _ => e.target == pc && (e.kind == 1 || (e.kind == 0 && e.target != reconv))
  | [] => false

/-- The late fault a group has queued longest (R410). -/
def lateOf (s : State) (k : Nat) : Option LateFault :=
  (s.ctx (s.grp k).place.ctx).late.find? fun f => f.grp == k

/-- The queue without one late fault. -/
def dropLate (ctx : Nat) (f : LateFault) (s : State) : State :=
  s.setCtx ctx { s.ctx ctx with late := (s.ctx ctx).late.erase f }

/-- R410: the running group's queued late faults become exit reports, over at most `n` of them. -/
def reportLates : Nat → State → State
  | 0, s => s
  | n + 1, s =>
    match lateOf s s.cur with
    | none => s
    | some f => reportLates n (reportGroup s.me 3 f.cls f.cause f.addr f.pc (lowest f.fmask) f.info (dropLate s.me.place.ctx f s) f.core)

/-- R410: what the running group's queued late faults do at a clause header: the oldest becomes a trap, or all become exit reports. The boolean
says that the entry goes on. A class without threads has the active set in its record (R407). -/
def deliverLate (s : State) : State × Bool :=
  match lateOf s s.cur with
  | none => (s, true)
  | some f =>
    let g := s.me
    let c := (s.ctx g.place.ctx).ccb
    let b := stkBase g.regs - 32
    let m := if f.fmask = 0 then g.regs.amask else f.fmask
    let fits := c.tlate && c.ten && decide (32 ≤ stkBase g.regs) && !recordBlocked (s.core g.place.core) b &&
      decide (stkDepth g.regs < 32 + stkCap g.regs) && g.place.slice.isNone
    if fits then
      if g.uncommitted then (closeAndHold s, false)
      else
        (takeTrap s.cur { fltAt g f.cls f.cause (BitVec.ofNat 32 f.info) f.addr m (lowest m) with pc := f.pc, late := some f.core }
          (dropLate g.place.ctx f s), false)
    else (reportLates (s.ctx g.place.ctx).late.length s, true)

/-- The running group enters the clause at its program counter: a pending fault or late fault first, then the merge of R124, then the clause is
its own to issue. A resumption at a clause's first instruction joins threads like an entry (log 79). -/
def enterClause (s : State) : State :=
  let g := s.me
  match g.pend with
  | some f => if g.uncommitted then closeAndHold s else takeTrap s.cur f s
  | none =>
    match locate s g with
    | .error f => if g.entering then endGroup s.cur f.cls f.cause f s else raise f s
    | .ok (c, atHeader) =>
      match (if atHeader then deliverLate s else (s, true)) with
      | (s, false) => s
      | (s, true) =>
        let starts := atHeader || g.pc == c.first
        let s := if starts && mergesAt s.me c.base then s.setMe (openChunk s.me) else s
        let s := if starts then mergeAt s.cur c.base (stkDepth s.me.regs) s else s
        s.setMe { s.me with
          clause := some c, pc := (if atHeader then c.first else g.pc), status := .issuing, hold := none, entering := false, held := 0, banked := none, shut := false }

/-- The word at the running group's program counter. -/
def Group.word (g : Group) : Option Word64 :=
  match g.clause with
  | some c => c.words[g.wordIx]?
  | none => none

/-- The running group issues a word that is no instruction: it raises the fault of R69. -/
def undecoded (s : State) : Res :=
  let g := s.me
  if !g.live then .fault .noGroup
  else match g.pend with
  | some f => if g.uncommitted then .next (closeAndHold s) else .next (takeTrap s.cur f s)
  | none => .next (illegal (wordSet (g.word.getD 0) g.regs) s)

/-- The groups that stand on a lane, whether they still run or not. -/
def standOn (s : State) (core lane : Nat) : List Nat :=
  (s.groups.filter fun e => e.2.live && e.2.place.core == core && e.2.place.lane == lane).map Prod.fst

/-- R103, R206: whether cycles of what has issued on a lane are still to pass, or the lane still idles under the throttle. -/
def laneBusy (s : State) (core lane : Nat) : Bool :=
  (standOn s core lane).any fun k => (s.grp k).debt != 0 || (s.grp k).idle != 0

/-- R447: whether a lane holds because a chunk has closed at the end of its clause, or of its group, while an older one of the group is uncommitted. -/
def laneShut (s : State) (core lane : Nat) : Bool := (laneGroups s core lane).any fun k => (s.grp k).closeReq && (s.grp k).shut

/-- Whether a lane selects (R204): no group of it is issuing, it is not still busy with what has issued, and it does not hold. -/
def laneSelects (s : State) (core lane : Nat) : Bool :=
  !laneBusy s core lane && !((laneGroups s core lane).any fun k => (s.grp k).status == .issuing) && !laneShut s core lane

/-- What a selection does to a lane's groups before it picks one (R55). -/
def beginSelect (core lane : Nat) (s : State) : State := (laneGroups s core lane).foldl (fun s k => boundaryClose k s) s

/-- R57: a selection, whatever it picks, ends the exclusion of the yield bit. -/
def endYields (core lane : Nat) (s : State) : State :=
  (laneGroups s core lane).foldl (fun s k => s.setGrp k { s.grp k with yielded := false }) s

/-- ISSUE_SELECT (R204). A lane that does not select stays as it is. -/
def execIssueSelect (core lane : Nat) (s : State) : Res :=
  if !laneSelects s core lane then .next s
  else
    let s := beginSelect core lane s
    let pick := selectOn s core lane
    let s := endYields core lane s
    match pick with
    | none => .next s
    | some k =>
      let s := { s with cur := k }
      .next (enterClause (s.setMe { s.me with w := 0, status := .issuing }))

end Sys2Proof.Machine
end

