-- ==== Sys2Proof/Machine/Access.lean ====
section
/-! DEFINITION. What memory instructions share: addresses and their checks (R159 to R165, R173), outstanding loads and their landing (R102,
R163), tiles that a miss waits for (R168, R433), late faults (R410), the L1 (R222, R223). -/
namespace Sys2Proof.Machine

/-- R159: the global address of a thread. -/
def globalAddr (g : Group) (n : Reg) (off : BitVec 24) (t : Nat) : Nat :=
  (readPair g.place.shape g.regs.v n t + off.signExtend 64).toNat

/-- R160: the local address of a thread. -/
def localAddr (g : Group) (n : Reg) (off : BitVec 24) (t : Nat) : Nat := (g.elem n t + off.signExtend 32).toNat

/-- The operands of a thread: x, and y of a compare and swap (R175). -/
def opArgs (g : Group) (op : AOp) (x : Reg) (t : Nat) : Nat × Nat :=
  let pair := fun r => (readPair g.place.shape g.regs.v r t).toNat
  match op with
  | .cas64 => (pair x, pair (regAt x 2))
  | .cas32 => ((g.elem x t).toNat, (g.elem (regAt x 1) t).toNat)
  | op => if op.wide then (pair x, 0) else ((g.elem x t).toNat, 0)

/-! ### Tiles under recomputation -/

/-- Whether a recipe record is the group's own slice's. -/
def ownTile (g : Group) (rec' : Nat) : Bool := match g.place.slice with | some sl => sl.rcp == rec' | none => false

/-- R426: whether an access to a tile has to wait for its recomputation. One that has waited for the last recomputation proceeds with the bytes that
this one left, even where the tile has been dropped or is being recomputed again since. -/
def Recipe.waitsFor (e : Recipe) (who : TileUser) : Bool :=
  (e.state == .recomputing || e.state == .dropped) && !e.users.contains who

/-- R168, R432, R433: the tile that an access of the group has to wait for: its context and its record. -/
def waitsOnTile (s : State) (g : Group) (who : TileUser) (va : Nat) : Option (Nat × Nat) :=
  match tileAt s g.place.ctx va with
  | some (c, r, e) => if e.waitsFor who && !ownTile g r then some (c, r) else none
  | none => none

/-- The recompute context a miss of the group needs (R433). -/
def missLevel (g : Group) : Nat := match g.place.slice with | some sl => sl.level + 1 | none => 0

/-- R424, R426, R433: a demand miss on a tile asks for its recomputation, or joins it; `who` is the access that missed. -/
def noteMiss (ctx rec' core level : Nat) (who : Option TileUser) (s : State) : State :=
  let c := s.ctx ctx
  match findT c.recipes rec' with
  | some e =>
    if e.state == .dropped || e.state == .recomputing then
      s.setCtx ctx { c with recipes := setT c.recipes rec' { e with
        wants := if e.state == .dropped && decide (level < 4) && !e.wants.contains (core, level) then e.wants ++ [(core, level)] else e.wants
        waits := e.waits ++ (who.toList.filter fun w => !e.waits.contains w) } }
    else s
  | none => s

/-- The misses of a group on the tiles that hold the addresses of some of its accesses; the boolean says that there was one. -/
def missTiles (g : Group) (l : List (TileUser × Nat)) (s : State) : State × Bool :=
  l.foldl (fun (s, b) e =>
    match waitsOnTile s g e.1 e.2 with
    | some (c, r) => (noteMiss c r g.place.core (missLevel g) (some e.1) s, true)
    | none => (s, b)) (s, false)

/-- The running group's instruction as an access of each address. -/
def State.asUser (s : State) (vas : List Nat) : List (TileUser × Nat) := vas.map fun va => (.group s.cur s.me.pc, va)

/-- R424: an access that waited for tiles is complete, or goes on as another one. -/
def passUser (who : TileUser) (as : Option TileUser) (s : State) : State :=
  let next := fun (u : TileUser) => if u == who then as else some u
  if s.ctxs.any fun c => c.2.recipes.any fun e => e.2.users.contains who then
    { s with ctxs := mapT (fun _ c => { c with recipes := mapT (fun _ e => { e with users := e.users.filterMap next }) c.recipes }) s.ctxs }
  else s

/-- R424: an access that waited for tiles is complete. -/
def dropUser (who : TileUser) (s : State) : State := passUser who none s

/-- R437: whether the home slice refuses a write to an address that does not come from the tile's own slice. -/
def refusesWrite (s : State) (g : Group) (va : Nat) : Bool :=
  match tileAt s g.place.ctx va with
  | some (_, r, e) => e.state.refusesWrites && !ownTile g r
  | none => false

/-! ### Late faults -/

/-- R407, R413: the lowest thread of a late fault. -/
def LateFault.thr (f : LateFault) : Nat := lowest f.fmask

/-- R410: a late fault folded into a queued one. The address is the one of the lowest faulting thread (R407). -/
def LateFault.fold (x f : LateFault) : LateFault :=
  { x with info := x.info + 1, fmask := x.fmask ||| f.fmask, addr := if f.fmask != 0 && decide (f.thr < x.thr) then f.addr else x.addr }

/-- R410: a late fault of a group queued on the hub, or a report where it cannot be. -/
def queueLate (f : LateFault) (s : State) : State :=
  let g := s.grp f.grp
  let c := s.ctx g.place.ctx
  let same := fun (x : LateFault) => x.grp == f.grp && x.cls == f.cls && x.cause == f.cause && x.pc == f.pc
  if !g.live || g.status == .ended then reportGroup g 3 f.cls f.cause f.addr f.pc f.thr f.info s f.core
  else if c.late.any same then
    s.setCtx g.place.ctx { c with late := c.late.map fun x => if same x then x.fold f else x }
  else if 1024 ≤ c.late.length then reportGroup g 3 f.cls f.cause f.addr f.pc f.thr f.info s f.core
  else s.setCtx g.place.ctx { c with late := c.late ++ [f] }

/-- R403, R410: a late fault of some threads' access, which arose on the core where it was made. -/
def lateOn (core k cls cause addr : Nat) (pc : Pc) (thrs : Mask) (s : State) : State :=
  queueLate { grp := k, cls := cls, cause := cause, addr := addr, pc := pc, info := 0, fmask := thrs, core := core, lane := (s.grp k).place.lane } s

/-- R437, R403: the late store fault of a write to a sealed tile. -/
def lateStore (k cause addr : Nat) (pc : Pc) (thrs : Mask) (s : State) : State := lateOn (s.grp k).place.core k 0x20 cause addr pc thrs s

/-! ### Checks of global addresses (R159, R162, R165, R236, R240) -/

/-- What the check of one address finds. -/
inductive Look where
  | ok (x : Xlat)
  | miss
  | bad (cls cause : Nat) (info : Word)

/-- One address checked, in this order: canonical, aligned, translated, writable, for a write of a slice (`own`) inside its target (R434), not a failed
tile (R435). The spec gives no order between the memory faults and the recipe fault (DESIGN CHOICE, log 80). -/
def lookAddr (s : State) (g : Group) (write own : Bool) (size va : Nat) : Look :=
  if 2 ^ 57 ≤ va then .bad 5 causeNonCanonical 0
  else if va % size ≠ 0 then .bad 5 causeMisaligned 0
  else match tlbLookup s g.place.core g.place.ctx va with
  | none => match g.xlate.find? fun e => e.1 == pageOf va with
    | some e => .bad 5 e.2 0
    | none => .miss
  | some x =>
    let outside := match g.place.slice with
      | some sl => own && !(decide (sl.va ≤ va) && decide (va + size ≤ sl.va + sl.size))
      | none => false
    if write && !x.write then .bad 5 causeReadOnly 0
    else if outside then .bad 0xC 5 0
    else match tileAt s g.place.ctx va with
    | some (_, r, e) =>
      if e.state == .failed && !e.users.contains (.group s.cur g.pc) then .bad e.fault.1 e.fault.2 e.finfo
      else if e.state == .dropped && !ownTile g r && missLevel g == 4 then .bad 0xC 2 0
      else .ok x
    | none => .ok x

/-- What the check of all addresses comes to: a wait for translations, a fault, or the translations by thread. -/
inductive Checked where
  | wait (s : State)
  | bad (s : State) (f : Flt)
  | ok (s : State) (acc : List (Nat × Nat × Xlat))

/-- Whether a look is a miss. -/
def Look.isMiss : Look → Bool
  | .miss => true
  | _ => false

/-- The threads' looks that are faults, with class, cause and info. -/
def badLooks (l : List (Nat × Nat × Look)) : List (Nat × Nat × Nat × Nat × Word) :=
  l.filterMap fun e => match e.2.2 with | .bad c d i => some (e.1, e.2.1, c, d, i) | _ => none

/-- The threads' translations. -/
def okLooks (l : List (Nat × Nat × Look)) : List (Nat × Nat × Xlat) :=
  l.filterMap fun e => match e.2.2 with | .ok x => some (e.1, e.2.1, x) | _ => none

/-- R239: the L1 TLB of the running group's core filled by the addresses that its die's shared TLB translates. -/
def fillHits (size : Nat) (vas : List Nat) (s : State) : State :=
  (vas.filter fun va => decide (va < 2 ^ 57) && va % size == 0).foldl (fun s va => hitFills s s.me.place.core s.me.place.ctx va) s

/-- R165, R240: every address of the running group's instruction translated, then all checked; the lowest faulting thread is reported. -/
def checkAddrs (write own : Bool) (size : Nat) (addrs : List (Nat × Nat)) (s : State) : Checked :=
  let g := s.me
  let looks := addrs.map fun e => (e.1, e.2, lookAddr s g write own size e.2)
  let missed := looks.filter fun e => e.2.2.isMiss
  let s := fillHits size (addrs.map Prod.snd) s
  if !missed.isEmpty then
    .wait (missed.foldl (fun s e => startWalk s g.place.core g.place.ctx e.2.1 (some s.cur)) s)
  else match badLooks looks with
  | (t, va, cls, cause, info) :: more =>
    .bad s { fltAt g cls cause info va ((t :: more.map Prod.fst).foldl (fun m x => m ||| oneThread x) 0) t with pc := g.pc }
  | [] =>
    .ok s (okLooks looks)

/-- The global addresses of the threads that access. -/
def globalAddrs (g : Group) (n : Reg) (off : BitVec 24) (S : Mask) : List (Nat × Nat) :=
  (threads (execSet g S)).map fun t => (t, globalAddr g n off t)

/-- An instruction between the check of its global addresses and its end. -/
def withAddrs (write own : Bool) (size : Nat) (addrs : List (Nat × Nat)) (k : List (Nat × Nat × Xlat) → State → Res) (s : State) : Res :=
  match checkAddrs write own size addrs s with
  | .wait s => .next (holdFor stallScoreboard s)
  | .bad s f => .next (raise f s)
  | .ok s acc => k acc s

/-! ### The L1 (R222, R223, R225) -/

/-- The set of a line in the L1 that serves a core. -/
def l1Set (s : State) (core line : Nat) : Nat := if (s.core core).fused then line / 8 % 128 else line % 128

/-- The entry of a line in the L1 that serves a core. -/
def l1Find (s : State) (core line : Nat) : Option L1Line := (s.core (l1Home s core line)).l1.find? fun x => x.line == line

/-- The lines of a line's set. -/
def l1Peers (s : State) (core line : Nat) : List L1Line :=
  (s.core (l1Home s core line)).l1.filter fun x => l1Set s core x.line == l1Set s core line && x.line != line

/-- R223: whether every way of a line's set is SpecDirty and the line is not in it. -/
def l1Full (s : State) (core line : Nat) : Bool :=
  (l1Find s core line).isNone && decide (16 ≤ ((l1Peers s core line).filter fun x => x.owner.isSome).length)

/-- A line put into its set, most or, with `ev`, least recently used; a Clean way leaves where the set is full. -/
def l1Put (core : Nat) (x : L1Line) (ev : Bool) (s : State) : State :=
  let h := l1Home s core x.line
  let c := s.core h
  let peers := l1Peers s core x.line
  let victim := if peers.length < 16 then none else peers.reverse.find? fun y => y.owner.isNone
  let others := c.l1.filter fun y => y.line != x.line && some y != victim
  s.setCore h { c with l1 := if ev then others ++ [x] else x :: others }

/-- R223: whether the sets of the L1 that serves a core have a way that is not SpecDirty for each of these lines that is not SpecDirty yet. -/
def l1Room (s : State) (core : Nat) (lines : List Nat) : Bool :=
  let dirty := fun (l : Nat) => (l1Find s core l).any fun x => x.owner.isSome
  lines.all fun l =>
    let mates := fun (m : Nat) => l1Home s core m == l1Home s core l && l1Set s core m == l1Set s core l
    decide (((s.core (l1Home s core l)).l1.filter fun x => mates x.line && x.owner.isSome).length + (lines.filter fun m => mates m && !dirty m).length ≤ 16)

/-- The sectors of a line that have an uncorrectable error at home (R168). -/
def lineBad (s : State) (line : Nat) : List Nat := (List.range 4).filter fun i => s.badSec.contains (4 * line + i)

/-- The 128 bytes of a line at home, an uncorrectable sector as zeros (R168). -/
def lineData (s : State) (line : Nat) : List Byte :=
  (List.range 128).map fun i => if s.badSec.contains (4 * line + i / 32) then 0 else readByte s.mem (128 * line + i)

/-- R222, R227: a line filled into the L2 and the core's L1; with no way free, or bypassing (R231), into none. -/
def fillL1 (core line : Nat) (ev : Bool) (s : State) : State :=
  if bypasses s line then touchL2 s line false
  else
    let s := touchL2 s line false
    if l1Full s core line then s
    else
      l1Put core { line := line, owner := none, data := lineData s line, bad := lineBad s line } ev
        (setDir s line ((getT .uncached s.dir line).fill (sharerOf s core)))

/-! ### Outstanding loads -/

/-- The latest byte among a chunk's coherent stores. -/
def Chunk.sdByte (c : Chunk) (pa : Nat) : Option Byte :=
  match findT c.sd (lineOf pa) with
  | some l => findT l (pa % 128)
  | none => none

/-- The byte a held or released store gives an address, if it covers it. -/
def storeByte (pa at' : Nat) (op : HeldOp) : Option Byte :=
  match op with
  | .store bs => if at' ≤ pa then bs[pa - at']? else none
  | .red .. => none

/-- R164: the group's own latest store to a byte that other groups do not see yet. -/
def ownByte (s : State) (k : Nat) (stream : Bool) (pa : Nat) : Option Byte :=
  let cs := (s.grp k).chunks.reverse
  if stream then
    match cs.findSome? fun c => c.held.reverse.findSome? fun h => storeByte pa h.pa h.op with
    | some b => some b
    | none => s.flights.reverse.findSome? fun f => if f.grp == k then storeByte pa f.pa f.op else none
  else cs.findSome? fun c => c.sdByte pa

/-- The streaming accesses of an outstanding load. -/
def Load.streams (l : Load) : List ThreadAcc :=
  match l.src with
  | .global acc _ => acc.filter ThreadAcc.stream
  | _ => []

/-- The die that holds an address's home slice. -/
def homeDie (pa : Nat) : Nat := homeSlice pa / 64

/-- R180, R181: whether an access released before serial number `stamp` is still ahead of a request of a core to an address: on the path to the same
other die, or, where a FENCE.core has seen it leave the same core since, on its way to the same slice. -/
def pathBusy (s : State) (core stamp pa : Nat) : Bool :=
  s.flights.any fun f => f.arrived.isNone && decide (f.id < stamp) &&
    ((homeDie pa != dieOf core && dieOf f.core == dieOf core && homeDie f.pa == homeDie pa) ||
     (f.core == core && homeSlice f.pa == homeSlice pa && f.left.any fun n => decide (n ≤ stamp)))

/-- R54: whether the group may not issue another load. -/
def loadsFull (s : State) : Bool := decide (15 ≤ s.me.loads.length)

/-- R163: whether a load holds its lane until its data has returned. -/
def holdsLane (g : Group) (d : Reg) (n : Nat) (fit : Bool) (S : Mask) : Bool :=
  !fit && !g.uniMark && decide (1 < (threads S).length) && (regsFrom d n).any fun r => tagOf g.place.shape r != .g

/-- A load of the running group becomes outstanding. -/
def issueLoad (d : Reg) (n size : Nat) (sgn fit hold : Bool) (S : Mask) (src : LoadSrc) (s : State) (bad : Bool := false)
    (uni : Bool := s.me.uniMark) : State :=
  let g := s.me
  s.setMe { g with
    nextId := g.nextId + 1
    loads := g.loads ++ [{ id := g.nextId, stamp := s.serial, chunk := g.chunkNo, dst := d, nreg := n, size := size, sgn := sgn
                           fit := fit, uni := uni, hold := hold, act := S, pc := g.pc, src := src, newer := [], bad := bad }] }

/-- The end of an instruction that has issued a load: the lane is held for the data (R163), or the group goes on. -/
def afterLoad (u : Use) (S : Mask) (hold : Bool) (s0 s : State) : Res :=
  if hold then .next (holdFor stallScoreboard s) else finishAfter u S [] s0 s

/-- R161: register `j` of the data of a load. -/
def loadWord (size : Nat) (sgn : Bool) (bs : List Byte) (j : Nat) : Word :=
  let v := leNat bs
  if sgn then (if size = 1 then (BitVec.ofNat 8 v).signExtend 32 else (BitVec.ofNat 16 v).signExtend 32)
  else BitVec.ofNat 32 (v / 2 ^ (32 * j))

/-- The value of register `j` of a load for a thread; under the uniform mark the lowest thread's (R188). -/
def loadVal (l : Load) (vals : List (Nat × List Byte)) (j t : Nat) : Word :=
  let t' := if l.uni then lowest l.act else t
  match vals.find? fun e => e.1 == t' with
  | some e => loadWord l.size l.sgn e.2 j
  | none => 0

/-- Register `j` of a load written to registers, as with the fit bit. -/
def landWord (sh : BitVec 256) (l : Load) (vals : List (Nat × List Byte)) (v : Tab Word) (j : Nat) : Tab Word :=
  (writeVec sh v (regAt l.dst j) (loadVal l vals j) l.act true).getD v

/-- R102, R163: the data of a load written to its destination, unless a later instruction has written it; where a later chunk has begun since,
into its checkpoint as well. The load is no longer outstanding. -/
def landLoad (k : Nat) (l : Load) (vals : List (Nat × List Byte)) (s : State) : State :=
  let g := s.grp k
  let put := fun (gone : Reg → Bool) (v : Tab Word) =>
    (List.range l.nreg).foldl (fun v j => if gone (regAt l.dst j) then v else landWord g.place.shape l vals v j) v
  let overAny := fun r => l.newer.any fun e => e.1 == r
  let fix := fun (c : Chunk) =>
    if l.chunk < c.no then { c with ckpt := { c.ckpt with v := put (fun r => l.newer.any fun e => e.1 == r && decide (e.2 < c.no)) c.ckpt.v } }
    else c
  let ws := regsFrom l.dst l.nreg
  s.setGrp k { g with
    regs := { g.regs with v := put overAny g.regs.v }
    opn := g.opn.map fix
    clo := g.clo.map fix
    holds := clearPoison g.holds (ws.filter fun r => !overAny r)
    loads := (g.loads.filter fun o => o.id != l.id).map fun o => if o.id < l.id then overwrite l.chunk ws o else o }

/-- R98, R163: the first destination register that the data of a load does not fit. -/
def loadMisfit (sh : BitVec 256) (l : Load) (vals : List (Nat × List Byte)) : Option Reg :=
  ((List.range l.nreg).find? fun j => (writeVec sh [] (regAt l.dst j) (loadVal l vals j) l.act l.fit).isNone).map (regAt l.dst)

/-- R168, R173: the flag of data that had an uncorrectable error, raised in the load's chunk (R81). -/
def poisonIf (k : Nat) (l : Load) (bad : Bool) (s : State) : State := if bad then orFlagsFrom l.chunk k flagPoison s else s

/-- R163: the data of a load has returned, `bad` where an uncorrectable error met it. A lane that was held goes on, or takes the shape fault, without
any other effect; a group that has ended discards the data. -/
def finishLoad (k : Nat) (l : Load) (vals : List (Nat × List Byte)) (bad : Bool) (s : State) : State :=
  let g := s.grp k
  let gone := s.setGrp k { g with loads := g.loads.filter fun o => o.id != l.id }
  if !g.live || g.status == .ended then gone
  else if !l.hold then poisonIf k l bad (landLoad k l vals s)
  else
    let fmt := g.regs.fmt
    let u := match g.word with | some w => (match decode w with | .ok i => useOf fmt i | .error _ => {}) | none => {}
    let back := fun (t : State) => { t with cur := s.cur }
    match loadMisfit g.place.shape l vals with
    | some r => back (shapeFault r (setFor u g.regs) { gone with cur := k })
    | none => back (retire u l.act u.writes { poisonIf k l bad (landLoad k l vals s) with cur := k })

/-- One byte of an access at its home slice or in the L1, and whether its sector has an uncorrectable error (R168, R222, R169). -/
def sampleByte (s : State) (core : Nat) (stream : Bool) (pa : Nat) : Byte × Bool :=
  let home := if s.badSec.contains (pa / 32) then (0, true) else (readByte s.mem pa, false)
  if stream then home
  else match l1Find s core (lineOf pa) with
  | some x =>
    if x.owner.isSome then home
    else if x.bad.contains (pa % 128 / 32) then (0, true)
    else (x.data.getD (pa % 128) 0, false)
  | none => home

/-- The bytes of a thread's access: the group's own stores at issue, the others as they stand now. -/
def sampleAcc (s : State) (core : Nat) (a : ThreadAcc) : List Byte × Bool :=
  let bs := a.own.mapIdx fun i o => match o with | some b => (b, false) | none => sampleByte s core a.stream (a.pa + i)
  (bs.map Prod.fst, bs.any Prod.snd)

/-! ### Local memory (R173) -/

/-- R173: the cause code for which a thread is switched off; 0 where its access is good. -/
def localCode (c : Core) (read write : Bool) (size a : Nat) : Nat :=
  if 1048576 < a + size then 1
  else if a % size ≠ 0 then 2
  else if read && !c.inited.getLsbD (a / 4096) then 3
  else if (pendingWrites c).contains (a / 32) || (write && (pendingReads c).contains (a / 32)) then 4
  else 0

/-- The threads of a local access by their code: those switched off, with code and address, and those that go on. -/
def localSplit (g : Group) (c : Core) (read write : Bool) (size : Nat) (n : Reg) (off : BitVec 24) (S : Mask) :
    List (Nat × Nat × Nat) × List (Nat × Nat) :=
  let all := (threads (execSet g S)).map fun t => (t, localAddr g n off t)
  (all.filterMap fun e => if localCode c read write size e.2 = 0 then none else some (e.1, localCode c read write size e.2, e.2),
   all.filter fun e => localCode c read write size e.2 = 0)

/-- The threads that are switched off. -/
def offMask (off : List (Nat × Nat × Nat)) : Mask := off.foldl (fun m e => m ||| oneThread e.1) 0

/-- R173: threads switched off; the first in the group leaves its code and address. -/
def switchOff (off : List (Nat × Nat × Nat)) (s : State) : State :=
  match off with
  | [] => s
  | (_, code, a) :: _ =>
    let g := s.me
    let m := offMask off
    removeThreads s.cur m false
      (s.setMe { g with regs := { g.regs with lmask := g.regs.lmask ||| m, breach := g.regs.breach.orElse fun _ => some (code, a) } })

/-- R126, R173: the local bytes that switching threads off writes. -/
def offBytes (s : State) (off : List (Nat × Nat × Nat)) : List Nat := hitBytes s s.cur (offMask off) false

/-- The byte addresses of accesses. -/
def bytesOf (size : Nat) (acc : List (Nat × Nat)) : List Nat := (acc.map fun e => (List.range size).map (e.2 + ·)).flatten

/-- R161: the bytes a thread stores. -/
def storeData (g : Group) (d : Reg) (size t : Nat) : List Byte :=
  leBytes size ((List.range ((size + 3) / 4)).foldr (fun j acc => (g.elem (regAt d j) t).toNat + 2 ^ 32 * acc) 0)

/-- Rows of local memory that have been written whole no longer carry an uncorrectable error. -/
def healRows (core : Nat) (addrs : List Nat) (s : State) : State :=
  let c := s.core core
  if c.badRow.isEmpty then s
  else s.setCore core { c with badRow := c.badRow.filter fun r => !((List.range 16).all fun i => addrs.contains (16 * r + i)) }

/-- R54: whether the group may not issue another store. -/
def storesFull (s : State) : Bool := decide (15 ≤ storesOut s s.cur)

/-! ### Banks (R170, R201) -/

/-- R170: the rows that the requests of a local access address, one request for the accesses of threads 2k and 2k + 1 in one row. -/
def bankRows (acc : List (Nat × Nat)) : List Nat :=
  (List.range 16).flatMap fun k => ((acc.filter fun e => e.1 / 2 == k).map fun e => e.2 / 16).eraseDups

/-- R170: the requests among these for one bank. -/
def bankNeed (rows : List Nat) (b : Nat) : Nat := (rows.filter fun r => r % 64 == b).length

/-- R170: a bank whose queue has no room for the requests of an access. An access with more requests than a queue has entries enters an empty one. -/
def bankFull (c : Core) (rows : List Nat) : Option Nat :=
  (rows.map (· % 64)).find? fun b => decide (0 < getT 0 c.bankq b) && decide (16 < getT 0 c.bankq b + bankNeed rows b)

/-- R170: whether the queue of a bank of some 32-byte sectors has no free entry. -/
def banksRefuse (c : Core) (sectors : List Nat) : Bool :=
  sectors.any fun x => decide (16 ≤ getT 0 c.bankq (2 * x % 64)) || decide (16 ≤ getT 0 c.bankq ((2 * x + 1) % 64))

/-- R170: the requests of an access enter their banks' queues. -/
def enterBanks (core : Nat) (rows : List Nat) (s : State) : State :=
  if rows.isEmpty then s
  else s.setCore core { s.core core with bankq := rows.foldl (fun q r => setT q (r % 64) (getT 0 q (r % 64) + 1)) (s.core core).bankq }

/-- R170: a lane held by a full bank queue. -/
def holdForBank (b : Nat) (s : State) : State := s.setMe { s.me with hold := some stallBank, banked := some b }

end Sys2Proof.Machine
end

