-- ==== Sys2Proof/Machine/Memory.lean ====
section
/-! DEFINITION. Memory, atomic, fence and cache instructions (R159 to R189). -/
namespace Sys2Proof.Machine

/-! ### Global loads and stores -/

/-- The accesses of a load, with the bytes of the group's own stores (R164). -/
def threadAccs (s : State) (k size : Nat) (acc : List (Nat × Nat × Xlat)) : List ThreadAcc :=
  acc.map fun e =>
    let pa := e.2.2.phys e.2.1
    { t := e.1, va := e.2.1, pa := pa, stream := e.2.2.stream, own := (List.range size).map fun i => ownByte s k e.2.2.stream (pa + i) }

/-- Keys entered into the read signature of the running group's open chunk (R446). -/
def readKeys (ks : List Key) (s : State) : State := s.setMe (s.me.onOpen fun c => { c with rd := (ks ++ c.rd).eraseDups })

/-- R161 to R169. -/
def execLdg (g : Guard) (d n : Reg) (off : BitVec 24) (sz : Size) (sgn ev fit : Bool) (s : State) : Res :=
  groupOp (.ldg g d n off sz sgn ev fit) (fun u S s =>
    withAddrs false false sz.bytes (globalAddrs s.me n off S) (fun acc s =>
      if loadsFull s then .next (holdFor stallSlot s)
      else
        let accs := threadAccs s s.cur sz.bytes acc
        let keys := (accs.filter fun a => !a.stream).map fun a => Key.glob (lineOf a.pa)
        let hold := holdsLane s.me d sz.regs fit S
        let t := (missTiles s.me (accs.map fun a => (.load s.cur s.me.nextId, a.va)) (readKeys keys s)).1
        afterLoad u S hold s (issueLoad d sz.regs sz.bytes sgn fit hold S (.global accs ev) t)) s) s

/-- A thread's store: its virtual and physical address, its bytes and its thread. -/
structure OneStore where
  va : Nat
  pa : Nat
  bs : List Byte
  t : Nat

/-- A coherent line with its bytes to write: physical line, virtual line address, (offset, byte) pairs, and the thread with its address. -/
def writeLine (k core : Nat) (line va : Nat) (bs : List (Nat × Byte)) (who : Nat × Nat) (s : State) : State :=
  let g := s.grp k
  let put := fun (c : Chunk) => { c with
    sd := setT c.sd line (bs.foldl (fun l b => setT l b.1 b.2) (getT [] c.sd line))
    vas := setT c.vas line va
    thrs := let l := getT [] c.thrs line; setT c.thrs line (if (findT l who.1).isSome then l else setT l who.1 who.2)
    wr := (Key.glob line :: c.wr).eraseDups }
  l1Put core { line := line, owner := some k, data := [] } false (s.setGrp k (g.onOpen put))

/-- R54, R222: a store that misses the L1 is outstanding until its line is filled. -/
def awaitFill (k ins line va : Nat) (s : State) : State :=
  let g := s.grp k
  s.setGrp k { g with nextId := g.nextId + 1, stores := g.stores ++ [{ id := g.nextId, ins := ins, chunk := g.chunkNo, kind := .fill line va }] }

/-- R54, R222: whether a group's store to a line still awaits the line's fill. -/
def fillAwaited (s : State) (k line : Nat) : Bool :=
  (s.grp k).stores.any fun x => match x.kind with | .fill l _ => l == line | _ => false

/-- R223: the uncommitted chunk of another group under which a line is SpecDirty. To a recompute slice a line that still awaits its fill is not
yet SpecDirty (R222): that fill waits for the slice itself (R426, R433, log 74). -/
def dirtyElsewhere (s : State) (k core line : Nat) : Option (Nat × Nat) :=
  match l1Find s core line with
  | some x => match x.owner with
    | some o => if o == k || ((s.grp k).place.slice.isSome && fillAwaited s o line) then none else some (o, ((((s.grp o).chunks.find? fun c => (findT c.sd line).isSome).map Chunk.no).getD 0))
    | none => none
  | none => none

/-- A thread's coherent store into the open chunk (R166). -/
def storeCoherent (k core ins : Nat) (s : State) (e : OneStore) : State :=
  let line := lineOf e.pa
  let s := if (l1Find s core line).isNone then awaitFill k ins line (e.va / 128 * 128) s else s
  writeLine k core line (e.va / 128 * 128) (e.bs.mapIdx fun i b => (e.pa % 128 + i, b)) (e.t, e.va) s

/-- R169: a streaming store held with the open chunk. -/
def holdStore (k ins : Nat) (pc : Pc) (s : State) (e : OneStore) : State :=
  s.setGrp k ((s.grp k).onOpen fun c =>
    { c with held := c.held ++ [{ ins := ins, va := e.va, pa := e.pa, op := .store e.bs, pc := pc, thrs := oneThread e.t }] })

/-- The stores of an instruction performed, in ascending thread order, coherent and streaming. -/
def performStores (coh str : List OneStore) (s : State) : State :=
  let g := s.me
  let s := s.setMe { g with nextId := g.nextId + 1 }
  let s := coh.foldl (storeCoherent s.cur g.place.core g.nextId) s
  str.foldl (holdStore s.cur g.nextId g.pc) s

/-- The lines that coherent accesses touch. -/
def storeLines (acc : List (Nat × Nat × Xlat)) : List Nat :=
  ((acc.filter fun e => !e.2.2.stream).map fun e => lineOf (e.2.2.phys e.2.1)).eraseDups

/-- The fills that a group's stores from number `n` on wait for, with the addresses of their lines. -/
def fillUsers (k n : Nat) (g : Group) : List (TileUser × Nat) :=
  g.stores.filterMap fun x => match x.kind with | .fill _ va => if n ≤ x.id then some (.store k x.id, va) else none | _ => none

/-- R161, R166, R169: the stores of some threads made by the open chunk; lines of dropped tiles are asked for (R168). -/
def storeAll (d : Reg) (size : Nat) (acc : List (Nat × Nat × Xlat)) (s : State) : State :=
  let G := s.me
  let item := fun (e : Nat × Nat × Xlat) => ({ va := e.2.1, pa := e.2.2.phys e.2.1, bs := storeData G d size e.1, t := e.1 } : OneStore)
  let coh := (acc.filter fun e => !e.2.2.stream).map item
  let str := (acc.filter fun e => e.2.2.stream).map item
  let t := performStores coh str s
  (missTiles G (fillUsers s.cur G.nextId t.me) t).1

/-- The threads of an access whose stores the sets of the L1 have room for, in ascending order up to the first for which they have none (R223). -/
def roomFor (s : State) (core : Nat) : List (Nat × Nat × Xlat) → List (Nat × Nat × Xlat) → List (Nat × Nat × Xlat)
  | done, [] => done
  | done, e :: es => if l1Room s core (storeLines (done ++ [e])) then roomFor s core (done ++ [e]) es else done

/-- R223: a store that finds every way of its set SpecDirty. A chunk with instructions in it closes, and the lane holds. In a fresh chunk the
threads before it store, that chunk closes, and the other threads' stores open the next one (log 81). -/
def storeSome (d : Reg) (size : Nat) (acc : List (Nat × Nat × Xlat)) (s : State) : State :=
  if s.me.uncommitted then closeAndHold s
  else match roomFor s s.me.place.core [] acc with
  | [] => holdFor stallChunk s
  | done =>
    let t := storeAll d size done s
    let m := done.foldl (fun m e => m ||| oneThread e.1) t.me.regs.stored
    let g := { t.me with regs := { t.me.regs with stored := m } }.onOpen fun c => { c with count := c.count + 1 }
    closeAndHold (t.setMe g)

/-- R161 to R169. -/
def execStg (g : Guard) (d n : Reg) (off : BitVec 24) (sz : Size) (s : State) : Res :=
  groupOp (.stg g d n off sz) (fun u S s =>
    withAddrs true true sz.bytes ((globalAddrs s.me n off S).filter fun e => !s.me.regs.stored.getLsbD e.1) (fun acc s =>
      if storesFull s then .next (holdFor stallSlot s)
      else
        let G := s.me
        let lines := storeLines acc
        let mine := match G.opn with | some c => c.sd.map Prod.fst | none => []
        match lines.findSome? (dirtyElsewhere s s.cur G.place.core) with
        | some o => .next (meetChunk o s)
        | none =>
          if !l1Room s G.place.core lines then .next (storeSome d sz.bytes acc s)
          else if mine != [] && decide (64 < (mine ++ lines).eraseDups.length) then .next (closeAndHold s)
          else
            let t := storeAll d sz.bytes acc s
            .next (retire u S [] (t.setMe { t.me with regs := { t.me.regs with stored := 0 } }))) s) s

/-! ### Local memory -/

/-- Whether a row of local memory carries an uncorrectable error (R173). -/
def rowBad (s : State) (core a : Nat) : Bool := (s.core core).badRow.contains (a / 16)

/-- The bytes a thread loads from local memory (R171, R173). -/
def loadLocal (s : State) (k core size a : Nat) : List Byte :=
  if rowBad s core a then List.replicate size 0 else readLocalBytes s k core a size

/-- The local bytes that an instruction writes where it switches threads off (R126, R173). -/
def offSpan (i : Instr) (read write : Bool) (n : Reg) (off : BitVec 24) (size : Nat) (s : State) (g : Group) : List Nat :=
  offBytes s (localSplit g (s.core g.place.core) read write size n off (setFor (useOf g.regs.fmt i) g.regs)).1

/-- R161, R163, R171, R173. A load whose data will not fit its destination has no effect but its shape fault, which comes with the data. -/
def execLdl (g : Guard) (d n : Reg) (off : BitVec 24) (sz : Size) (sgn fit : Bool) (s : State) : Res :=
  let i : Instr := .ldl g d n off sz sgn fit
  match prelude i (fun G => newRows (offSpan i true false n off sz.bytes s G) G) s with
  | .stop r => r
  | .go s S =>
    let u := useOf s.me.regs.fmt i
    let G := s.me
    let core := G.place.core
    let (bad, good) := localSplit G (s.core core) true false sz.bytes n off S
    let S' := S &&& ~~~(offMask bad)
    let vals := good.map fun e => (e.1, loadLocal s s.cur core sz.bytes e.2)
    let hold := holdsLane G d sz.regs fit S'
    let l : Load := { id := 0, stamp := 0, chunk := 0, dst := d, nreg := sz.regs, size := sz.bytes, sgn := sgn, fit := fit
                      uni := G.uniMark, hold := hold, act := S', pc := G.pc, src := .data [], newer := [] }
    let lost := good.any fun e => rowBad s core e.2
    let rows := bankRows good
    if loadsFull s then .next (holdFor stallSlot s)
    else match bankFull (s.core core) rows with
    | some b => .next (holdForBank b s)
    | none =>
      let keyed := readKeys (good.map fun e => locKey core e.2) s
      if hold && (loadMisfit G.place.shape l vals).isSome then
        afterLoad u S hold s (issueLoad d sz.regs sz.bytes sgn fit hold S' (.data vals) (enterBanks core rows keyed))
      else match localConflict s s.cur core (offBytes s bad) with
      | some o => .next (meetChunk o s)
      | none =>
        let t := enterBanks core rows (switchOff bad keyed)
        if vals.isEmpty then finishAfter u S [] s t
        else afterLoad u S hold s (issueLoad d sz.regs sz.bytes sgn fit hold S' (.data vals) t lost)

/-- The local bytes an instruction's active threads store to, where they may (R173). -/
def storeSpan (i : Instr) (n : Reg) (off : BitVec 24) (size : Nat) (c : Core) (g : Group) : List Nat :=
  bytesOf size (localSplit g c false true size n off (setFor (useOf g.regs.fmt i) g.regs)).2

/-- R161, R171, R173. -/
def execStl (g : Guard) (d n : Reg) (off : BitVec 24) (sz : Size) (s : State) : Res :=
  let i : Instr := .stl g d n off sz
  match prelude i (fun g => newRows (storeSpan i n off sz.bytes (s.core g.place.core) g ++ offSpan i false true n off sz.bytes s g) g) s with
  | .stop r => r
  | .go s S =>
    let G := s.me
    let core := G.place.core
    let (bad, good) := localSplit G (s.core core) false true sz.bytes n off S
    let rows := bankRows good
    if storesFull s then .next (holdFor stallSlot s)
    else match bankFull (s.core core) rows with
    | some b => .next (holdForBank b s)
    | none =>
      match localConflict s s.cur core (bytesOf sz.bytes good ++ offBytes s bad) with
      | some o => .next (meetChunk o s)
      | none =>
        let t := good.foldl (fun s e => storeLocal s.cur core s e.2 (storeData G d sz.bytes e.1)) (enterBanks core rows (switchOff bad s))
        finishAfter (useOf G.regs.fmt i) S [] s (healRows core (bytesOf sz.bytes good) t)

/-! ### Pool reads -/

/-- The pool that a group's LDK reads: its length and its virtual address, if the group's code has one (R174). -/
def poolOf (s : State) (g : Group) : Option (Nat × Nat) :=
  match g.place.slice with
  | some sl => some (sl.npool, sl.poolVa)
  | none => match findT s.plans g.place.plan with
    | some p => some (p.org.npool, p.poolVa)
    | none => none

/-- R49, R404: the cause of a memory fault that a read of the pool meets. A pool counts as not mapped where the page tables give no translation for
the word read (DEDUCED, log 82). -/
def poolCause (c : Nat) : Nat := if c = causeNoTranslation then causePoolUnmapped else c

/-- A fault of a read of the pool under the cause that the pool gives it. -/
def poolFlt (f : Flt) : Flt := if f.cls = 5 then { f with cause := poolCause f.cause } else f

/-- R174: the entry number of LDK. -/
def poolIndex (g : Group) (idx : BitVec 20) (h : Option Reg) : Nat :=
  match h with
  | some r => (idx.zeroExtend 32 + g.uval r).toNat
  | none => idx.toNat

/-- R174, R219: the load of one word of the pool, for every thread of `S`, through the L1 and the L2. It enters no signature. -/
def poolLoad (d : Reg) (S : Mask) (accs : List ThreadAcc) (s : State) : State :=
  issueLoad d 1 4 false true false S (.global accs false) s false true

/-- R174. -/
def execLdk (g : Guard) (d : Reg) (idx : BitVec 20) (h : Option Reg) (wn : Wn) (fit : Bool) (s : State) : Res :=
  groupOp (.ldk g d idx h wn fit) (fun u S s =>
    let G := s.me
    let k := poolIndex G idx h
    match poolOf s G with
    | none => .next (raiseAt 5 causePoolUnmapped 0 S s)
    | some (npool, va) =>
      if npool ≤ k then .next (raiseAt 5 causePoolIndex 0 S s)
      else
        match checkAddrs false false 4 [(lowest S, va + 16 * k + 4 * wn.bits.toNat)] s with
        | .wait s => .next (holdFor stallScoreboard s)
        | .bad s f => .next (raise (poolFlt f) s)
        | .ok s acc =>
          if loadsFull s then .next (holdFor stallSlot s)
          else
            let accs := (threadAccs s s.cur 4 acc).map fun a => { a with own := List.replicate 4 none }
            .next (retire u S [] (poolLoad d S accs s))) s

/-! ### Atomics and reductions -/

/-- The old values of a thread's atomic operations, the state after them, and whether an uncorrectable error met one (R168, R232). -/
structure Olds where
  s : State
  vals : List (Nat × List Byte)
  bad : Bool := false

/-- R164: whether a released store of the group, or an outstanding streaming load of it, to bytes of an access has still to reach the home slice. -/
def ownAhead (s : State) (pa n : Nat) : Bool :=
  (s.flights.any fun f => f.grp == s.cur && (match f.op with | .store bs => overlaps f.pa bs.length pa n | .red .. => false)) ||
  (s.me.loads.any fun l => l.streams.any fun a => overlaps a.pa l.size pa n)

/-- R164, R180: whether an access that acts at its home slice at once has to wait for requests that left before it. -/
def requestWaits (s : State) (n : Nat) (acc : List (Nat × Nat × Xlat)) : Bool :=
  acc.any fun e => ownAhead s (e.2.2.phys e.2.1) n || pathBusy s s.me.place.core s.serial (e.2.2.phys e.2.1)

/-- R177: one thread's operation at the home slice, or the current value alone where the tile refuses writes (R437). -/
def atomGlobal (G : Group) (k : Nat) (op : AOp) (x : Reg) (o : Olds) (e : Nat × Nat × Xlat) : Olds :=
  let pa := e.2.2.phys e.2.1
  let s := settleArrived pa op.bytes o.s
  let r := readFor s G.place.ctx e.2.1 pa op.bytes (.group k G.pc)
  let old := leNat r.1
  let a := opArgs G op x e.1
  let new := leBytes op.bytes (applyOp op G.regs.fmt old a.1 a.2)
  let t := if refusesWrite s G e.2.1 then lateStore k 3 e.2.1 G.pc (oneThread e.1) s
           else if e.2.2.stream then atomStream pa new s else pointGlobal k pa new s
  { s := t, vals := o.vals ++ [(e.1, leBytes op.bytes old)], bad := o.bad || r.2 }

/-- R175 to R177. -/
def execAtomg (g : Guard) (d n x : Reg) (off : BitVec 24) (op : AOp) (fit : Bool) (s : State) : Res :=
  groupOp (.atomg g d n x off op fit) (fun u S s =>
    withAddrs true false op.bytes (globalAddrs s.me n off S) (fun acc s =>
      let G := s.me
      let keys := (acc.filter fun e => !e.2.2.stream).map fun e => Key.glob (lineOf (e.2.2.phys e.2.1))
      match missTiles G (s.asUser (acc.map fun e => e.2.1)) s with
      | (s, true) => .next (holdFor stallScoreboard s)
      | (s, false) =>
        if loadsFull s then .next (holdFor stallSlot s)
        else if requestWaits s op.bytes acc then .next (holdFor stallScoreboard s)
        else if heldByReserved s s.cur none keys G.place.core [] then .next (holdFor stallChunk s)
        else
          let o := acc.foldl (atomGlobal G s.cur op x) { s := s, vals := [] }
          let t := passUser (.group s.cur G.pc) (some (.load s.cur G.nextId)) o.s
          .next (retire u S [] (issueLoad d op.destRegs op.bytes false true false S (.data o.vals) t o.bad))) s) s

/-- R178: one thread's operation at its bank. -/
def atomLocal (G : Group) (core : Nat) (op : AOp) (x : Reg) (o : Olds) (e : Nat × Nat) : Olds :=
  let c := o.s.core core
  let old := readLE c.lm e.2 op.bytes
  let a := opArgs G op x e.1
  let new := leBytes op.bytes (applyOp op G.regs.fmt old a.1 a.2)
  { s := o.s.setCore core ((new.mapIdx fun i b => (e.2 + i, b)).foldl (fun c p => pokeLocal c p.1 p.2) c)
    vals := o.vals ++ [(e.1, leBytes op.bytes old)] }

/-- R175, R176, R178. The whole instruction is one point write (R451). -/
def execAtoml (g : Guard) (d n x : Reg) (off : BitVec 24) (op : AOp) (fit : Bool) (s : State) : Res :=
  groupOp (.atoml g d n x off op fit) (fun u S s =>
    let G := s.me
    let core := G.place.core
    let (bad, good) := localSplit G (s.core core) true true op.bytes n off S
    let bytes := bytesOf op.bytes good
    let keys := ((good.map fun e => locKey core e.2)).eraseDups
    let rows := bankRows good
    if loadsFull s then .next (holdFor stallSlot s)
    else match bankFull (s.core core) rows with
    | some b => .next (holdForBank b s)
    | none =>
    let spilled := offBytes s bad
    if heldByReserved s s.cur none ((keys ++ spilled.map (locKey core)).eraseDups) core (bytes ++ spilled) then .next (holdFor stallChunk s)
    else
      let s0 := enterBanks core rows { s with grants := s.grants + b2n (!good.isEmpty) }
      let s1 := broadcast s.cur keys (squashUndo s.cur core bytes s0)
      let o := good.foldl (atomLocal G core op x) { s := s1, vals := [] }
      let s2 := switchOff bad o.s
      let s3 := if good.isEmpty then s2
                else issueLoad d op.destRegs op.bytes false true false (S &&& ~~~(offMask bad)) (.data o.vals) s2
      finishAfter u S [] s s3) s

/-- R179: operands merged by address, in ascending thread order: (virtual address, physical address, operand, threads). -/
def mergeReds (G : Group) (op : AOp) (x : Reg) : List (Nat × Nat × Xlat) → List (Nat × Nat × Nat × Mask) → List (Nat × Nat × Nat × Mask)
  | [], out => out
  | e :: es, out =>
    let pa := e.2.2.phys e.2.1
    let v := (opArgs G op x e.1).1
    let out := if out.any fun o => o.2.1 == pa then
        out.map fun o => if o.2.1 == pa then (o.1, o.2.1, applyOp op G.regs.fmt o.2.2.1 v 0, o.2.2.2 ||| oneThread e.1) else o
      else out ++ [(e.2.1, pa, v, oneThread e.1)]
    mergeReds G op x es out

/-- R175, R176, R179. -/
def execRed (g : Guard) (n x : Reg) (off : BitVec 24) (op : AOp) (s : State) : Res :=
  groupOp (.red g n x off op) (fun u S s =>
    withAddrs true false op.bytes (globalAddrs s.me n off S) (fun acc s =>
      let G := s.me
      let held := (mergeReds G op x acc []).map fun e =>
        { ins := G.nextId, va := e.1, pa := e.2.1, op := HeldOp.red op (BitVec.ofNat 64 e.2.2.1) G.regs.fmt, pc := G.pc, thrs := e.2.2.2 : Held }
      let G' := { G with nextId := G.nextId + 1 }.onOpen fun c => { c with held := c.held ++ held }
      .next (retire u S [] (s.setMe G'))) s) s

/-! ### Fences, chunks, waits -/

/-- R180: whether the group's released accesses meet the condition of a scope. A released access has been accepted into the core's and the
die's outbound path. -/
def scopeMet (s : State) (k : Nat) (sc : Scope) : Bool :=
  let mine := s.flights.filter fun f => f.grp == k
  match sc with
  | .core => true
  | .die => mine.all fun f => homeDie f.pa != dieOf f.core
  | .pkg => mine.isEmpty
  | .pod => mine.isEmpty && (s.grp k).rem == 0

/-- R180, R181: the group's released accesses marked as having left their core, so that later requests of the core stay behind them. -/
def leaveCore (s : State) : State :=
  { s with flights := s.flights.map fun f => if f.grp == s.cur && f.left.isNone then { f with left := some s.serial } else f }

/-- R180. -/
def execFence (g : Guard) (sc : Scope) (s : State) : Res :=
  groupOp (.fence g sc) (fun u S s =>
    if s.me.loads.isEmpty && scopeMet s s.cur sc then .next (retire u S [] (leaveCore s)) else .next (holdFor stallFence s)) s

/-- R184: the chunk closes with CHUNK in it. -/
def execChunk (g : Guard) (s : State) : Res :=
  groupOp (.chunk g) (fun u S s =>
    let t := retire u S [] s
    let g := closeChunk t.me
    .next (t.setMe (if g.clause.isNone then { g with shut := g.closeReq } else g))) s

/-- R185: the chunk status word. -/
def chunkStatus (g : Group) : Word :=
  match g.opn with
  | some c => BitVec.ofNat 32 (min c.sq 15 * 2 ^ 28 + min c.count 4095 * 2 ^ 13 + c.lim % 8192)
  | none => BitVec.ofNat 32 (g.regs.lim % 8192)

/-- R185. -/
def execChkst (g : Guard) (d : Reg) (fit : Bool) (s : State) : Res := vecOp (.chkst g d fit) d fit (fun g _ _ => chunkStatus g) s

/-- R182: the group parks on a line; its next clause follows the instruction. -/
def park (line : Nat) (u : Use) (S : Mask) (s : State) : State :=
  let t := sleepPast (.mwait line) u S s
  { t with watches := t.watches ++ [(line, t.cur)] }

/-- R182, R183. A line of a dropped tile is recomputed first, with .c or without (DEDUCED, log 101). -/
def execMwait (g : Guard) (n : Reg) (off : BitVec 24) (vc : Option Reg) (s : State) : Res :=
  groupOp (.mwait g n off vc) (fun u S s =>
    let t := lowest S
    withAddrs false false 4 [(t, globalAddr s.me n off t)] (fun acc s =>
      match missTiles s.me (s.asUser (acc.map fun e => e.2.1)) s with
      | (s, true) => .next (holdFor stallScoreboard s)
      | (s, false) =>
        match acc with
        | [] => .next (retire u S [] s)
        | (_, va, x) :: _ =>
          if vc.isSome && requestWaits s 4 acc then .next (holdFor stallScoreboard s)
          else
            let differs := match vc with | some r => leNat (readFor s s.me.place.ctx va (x.phys va) 4 (.group s.cur s.me.pc)).1 != (s.me.uval r).toNat | none => false
            let s := dropUser (.group s.cur s.me.pc) (if vc.isSome then touchL2 s (lineOf (x.phys va)) false else s)
            .next (if differs then retire u S [] s else park (lineOf (x.phys va)) u S s)) s) s

/-! ### Cache maintenance and prefetch -/

/-- R186: the addresses of a cache instruction that would not fault, once every translation is there; a slice's address outside its target
faults all the same, before anything else is looked at (R434; DESIGN CHOICE, log 80). -/
def cacheAddrs (own : Bool) (n : Reg) (off : BitVec 24) (S : Mask) (k : List (Nat × Xlat) → State → Res) (s : State) : Res :=
  let g := s.me
  let addrs := globalAddrs g n off S
  let outside := match g.place.slice with
    | some sl => if own then addrs.filter fun (e : Nat × Nat) => !(decide (sl.va ≤ e.2) && decide (e.2 < sl.va + sl.size)) else []
    | none => []
  let looks : List (Nat × Look) := addrs.map fun e => (e.2, lookAddr s g false false 1 e.2)
  let missed := looks.filter fun e => e.2.isMiss
  match outside with
  | (t, va) :: more => .next (raise (fltAt g 0xC 5 0 va (((t, va) :: more).foldl (fun m e => m ||| oneThread e.1) 0) t) s)
  | [] =>
    let s := fillHits 1 (addrs.map Prod.snd) s
    if !missed.isEmpty then
      .next (holdFor stallScoreboard (missed.foldl (fun s e => startWalk s g.place.core g.place.ctx e.1 (some s.cur)) s))
    else k (looks.filterMap fun e => match e.2 with | .ok x => some (e.1, x) | _ => none) s

/-- R186. A line of a dropped tile is left alone: PFG never starts a recipe. -/
def prefetch (core : Nat) (g : Group) (l2 : Bool) (s : State) (e : Nat × Xlat) : State :=
  let line := lineOf (e.2.phys e.1)
  if (waitsOnTile s g (.window 0) e.1).isSome then s
  else if l2 || e.2.stream || (l1Find s core line).isSome then touchL2 s line false else fillL1 core line false s

/-- R186. -/
def execPfg (g : Guard) (n : Reg) (off : BitVec 24) (l2 : Bool) (s : State) : Res :=
  groupOp (.pfg g n off l2) (fun u S s =>
    cacheAddrs false n off S (fun acc s => .next (retire u S [] (acc.foldl (prefetch s.me.place.core s.me l2) s))) s) s

/-- R54, R186: the stores that CWB and CINV are until done. They belong to no chunk, since a squash does not undo them. -/
def cacheStores (kinds : List StoreKind) (s : State) : State :=
  let g := s.me
  let ins := g.nextId
  let new := kinds.mapIdx fun i k => { id := ins + 1 + i, ins := ins, chunk := 0, kind := k : OutStore }
  s.setMe { g with nextId := ins + 1 + kinds.length, stores := g.stores ++ new }

/-- CWB and CINV between their addresses and their end. -/
def cacheOp (i : Instr) (n : Reg) (off : BitVec 24) (kind : Group → Nat × Xlat → List StoreKind) (s : State) : Res :=
  groupOp i (fun u S s =>
    cacheAddrs true n off S (fun acc s =>
      if storesFull s then .next (holdFor stallSlot s)
      else .next (retire u S [] (cacheStores (acc.flatMap (kind s.me)).eraseDups s))) s) s

/-- R186. -/
def execCwb (g : Guard) (n : Reg) (off : BitVec 24) (s : State) : Res :=
  cacheOp (.cwb g n off) n off (fun _ e => [.writeBack (lineOf (e.2.phys e.1)) (e.1 / 128 * 128)]) s

/-- R186: whether a line is SpecDirty under the group's own open chunk. -/
def ownDirty (g : Group) (line : Nat) : Bool := g.opn.any fun c => (findT c.sd line).isSome

/-- R186. A line SpecDirty under the group's own open chunk is left alone. -/
def execCinv (g : Guard) (n : Reg) (off : BitVec 24) (l2 : Bool) (s : State) : Res :=
  cacheOp (.cinv g n off l2) n off (fun G e =>
    if ownDirty G (lineOf (e.2.phys e.1)) then [] else [.remove (lineOf (e.2.phys e.1)) (e.1 / 128 * 128) l2]) s

end Sys2Proof.Machine
end

