-- ==== Sys2Proof/Machine/MemEvents.lean ====
section
/-! DEFINITION. The events of memory: data that returns, chunks that commit, released accesses that arrive, walks, evictions. -/
namespace Sys2Proof.Machine

/-! ### LOAD_COMPLETE, STORE_COMPLETE (R54, R163) -/

/-- Whether an access has bytes still to take. -/
def ThreadAcc.awaited (a : ThreadAcc) : Bool := a.own.any Option.isNone

/-- R164, R191: whether an earlier load of the group still has to take a byte that an access reads. -/
def readAhead (g : Group) (l : Load) (a : ThreadAcc) : Bool :=
  g.loads.any fun o => decide (o.id < l.id) && (match o.src with
    | .global acc _ => acc.any fun b => b.awaited && overlaps a.pa l.size b.pa o.size
    | _ => false)

/-- Where an access of group `k` takes a line: in the L1 of its core, or at home, past the L1 for a streaming page and for a line that is SpecDirty
under another group (R167, R169, R222). -/
inductive Taken where
  | l1 (x : L1Line)
  | fill
  | home

/-- R167, R169, R222. -/
def takenFrom (s : State) (k core : Nat) (a : ThreadAcc) : Taken :=
  if a.stream then .home
  else match l1Find s core (lineOf a.pa) with
  | some x => if x.owner.any (· != k) then .home else .l1 x
  | none => .fill

/-- R164, R169, R180, R191: whether a load's requests have not all arrived. -/
def loadBlocked (s : State) (k : Nat) (g : Group) (l : Load) (acc : List ThreadAcc) : Bool :=
  acc.any fun a =>
    a.awaited && (readAhead g l a ||
      ((match takenFrom s k g.place.core a with | .l1 _ => false | _ => true) && pathBusy s g.place.core l.stamp a.pa))

/-- The line of an access brought into the L1, used there, or read from home (R167, R222, R223, R231). -/
def useLine (k core : Nat) (ev : Bool) (s : State) (a : ThreadAcc) : State :=
  match takenFrom s k core a with
  | .l1 x => l1Put core x false s
  | .fill => fillL1 core (lineOf a.pa) ev s
  | .home => touchL2 s (lineOf a.pa) false

/-- R438: sealed tiles in whose lines an access meets an uncorrectable error are dropped. -/
def dropBadTiles (g : Group) (size : Nat) (acc : List ThreadAcc) (s : State) : State :=
  acc.foldl (fun s a =>
    if (sectorsOf a.pa size).any s.badSec.contains then
      match tileAt s g.place.ctx a.va with
      | some (c, r, e) => if e.state == .sealed then dropTile c r s else s
      | none => s
    else s) s

/-- R433: whether an access of a slice in context 3 among some misses on a dropped tile. -/
def tooDeep (s : State) (g : Group) (l : List (TileUser × Nat)) : Bool :=
  missLevel g == 4 && l.any fun e => match tileAt s g.place.ctx e.2 with
    | some (_, r, t) => t.state == .dropped && t.waitsFor e.1 && !ownTile g r
    | none => false

/-- R433: a slice in context 3 fails at a load that misses on a dropped tile. -/
def failDeep (k : Nat) (l : Load) (s : State) : State := endGroup k 0xC 2 { fltAt (s.grp k) 0xC 2 with pc := l.pc, ret := l.pc } s

/-- The data of a global load returns. A slice at nesting depth 4 that meets a dropped tile fails (R433). -/
def completeGlobal (k : Nat) (l : Load) (acc : List ThreadAcc) (ev : Bool) (s : State) : State :=
  let g := s.grp k
  let s := dropBadTiles g l.size acc s
  let reads := (acc.filter ThreadAcc.awaited).map fun a => (.load k l.id, a.va)
  match missTiles g reads s with
  | (t, true) => if tooDeep s g reads then failDeep k l s else t
  | (_, false) =>
    if loadBlocked s k g l acc then s
    else
      let got := acc.map fun a => (a.t, sampleAcc s g.place.core a)
      let s := acc.foldl (useLine k g.place.core ev) s
      finishLoad k l (got.map fun e => (e.1, e.2.1)) (l.bad || got.any fun e => e.2.2) s

/-- LOAD_COMPLETE. -/
def execLoadComplete (grp idx : Nat) (s : State) : Res :=
  let g := s.grp grp
  match g.loads.find? fun l => l.id == idx with
  | none => .next s
  | some l => match l.src with
    | .data vals => .next (finishLoad grp l vals l.bad s)
    | .remote got want => .next (if want.isEmpty then finishLoad grp l got l.bad s else s)
    | .global acc ev =>
      if !g.live || g.status == .ended then .next (finishLoad grp l [] false s) else .next (completeGlobal grp l acc ev s)

/-- A store of a group no longer outstanding. -/
def dropStore (k id : Nat) (s : State) : State :=
  s.setGrp k { s.grp k with stores := (s.grp k).stores.filter fun x => x.id != id }

/-- R186: CINV of a line. A line that is pinned or SpecDirty under the group's own open chunk is left alone, another chunk's SpecDirty copy stays;
a line of a sealed tile is dropped with its tile (R430). -/
def removeLine (g : Group) (line va : Nat) (l2 : Bool) (s : State) : State :=
  if pinnedLine s line || ownDirty g line then s
  else
    let h := l1Home s g.place.core line
    let c := s.core h
    let s := s.setCore h { c with l1 := c.l1.filter fun x => x.line != line || x.owner.isSome }
    if !l2 then s
    else match tileAt s g.place.ctx va with
    | some (c, r, e) => if e.state == .sealed then dropTile c r s else removeL2 line s
    | none => removeL2 line s

/-- R222, R223: whether a line that a group's uncommitted chunk has written is not SpecDirty in the L1 (a slice may have held it, log 74). -/
def notYetOwn (s : State) (k line : Nat) : Bool :=
  (s.grp k).chunks.any (fun c => (findT c.sd line).isSome) && !((l1Find s (s.grp k).place.core line).any fun x => x.owner.isSome)

/-- R222, R223: a filled line that a group's uncommitted chunk has written is SpecDirty under it. -/
def ownFilled (k line : Nat) (s : State) : State :=
  if notYetOwn s k line then l1Put (s.grp k).place.core { line := line, owner := some k, data := [] } false s else s

/-- R227, R231: a line read from its home slice by a core, which becomes a sharer unless the line bypasses the L2. -/
def fetchLine (core line : Nat) (s : State) : State :=
  if bypasses s line then touchL2 s line false
  else setDir (touchL2 s line false) line ((getT .uncached s.dir line).fill (sharerOf s core))

/-- STORE_COMPLETE. A fill from a dropped tile waits for its recomputation. -/
def execStoreComplete (grp idx : Nat) (s : State) : Res :=
  let g := s.grp grp
  match g.stores.find? fun x => x.id == idx with
  | none => .next s
  | some x => match x.kind with
    | .fill line va =>
      match missTiles g [(.store grp idx, va)] s with
      | (t, true) => .next t
      | (_, false) =>
        if notYetOwn s grp line && !l1Room s g.place.core [line] then .next s
        else .next (dropStore grp idx (ownFilled grp line (fetchLine g.place.core line s)))
    | .writeBack line _ =>
      let s := match findT s.l2 line with
        | some e => { s with l2 := setT s.l2 line { e with dirty := false } }
        | none => s
      .next (dropStore grp idx s)
    | .remove line va l2 => .next (dropStore grp idx (removeLine g line va l2 s))
    | .remote _ _ => .next s

/-! ### CHUNK_COMMIT (R447 to R456) -/

/-- R450: the coherent bytes of an outstanding load of a committing chunk, as they stand at the chunk's place in the order. -/
def settleAcc (s : State) (core : Nat) (a : ThreadAcc) : ThreadAcc :=
  if a.stream then a else { a with own := (sampleAcc s core a).1.map some }

/-- The loads of a chunk take their coherent bytes; a load remembers an uncorrectable error until its data lands (R163, R168). -/
def settleLoads (k no : Nat) (s : State) : State :=
  let g := s.grp k
  let core := g.place.core
  let take := fun (l : Load) => if l.chunk == no then (match l.src with
    | .global acc ev =>
      { l with src := .global (acc.map (settleAcc s core)) ev, bad := l.bad || acc.any fun a => !a.stream && (sampleAcc s core a).2 }
    | _ => l) else l
  s.setGrp k { g with loads := g.loads.map take }

/-- R407, R413: the threads that have written a line of a chunk, and the address of the lowest one's store. -/
def Chunk.writers (c : Chunk) (line : Nat) : Mask × Nat :=
  let l := getT [] c.thrs line
  let m := maskOf fun t => (findT l t).isSome
  (m, getT (getT 0 c.vas line) l (lowest m))

/-- The masked bytes of a line written at its home slice (R227, R449): every other sharer is invalidated and the line's watches fire. -/
def commitLine (k : Nat) (c : Chunk) (s : State) (e : Nat × Tab Byte) : State :=
  let g := s.grp k
  let va := getT 0 c.vas e.1
  let core := g.place.core
  let me := sharerOf s core
  if refusesWrite s g va then
    let h := l1Home s core e.1
    let x := s.core h
    lateStore k 3 (c.writers e.1).2 c.start (c.writers e.1).1
      (s.setCore h { x with l1 := x.l1.filter fun y => !(y.line == e.1 && y.owner == some k) })
  else
    let s := settleArrived (128 * e.1) 128 s
    let torn := badWrite s (e.2.map fun b => 128 * e.1 + b.1)
    let parts := headerParts s
    let mem := e.2.foldl (fun m b => writeByte m (128 * e.1 + b.1) (keptByte s.mem parts (128 * e.1 + b.1) b.2)) s.mem
    let whole := fun (sec : Nat) => sec / 4 == e.1 && (List.range 32).all fun i => (findT e.2 (32 * (sec % 4) + i)).isSome
    let s := { s with mem := mem, badSec := s.badSec.filter fun b => !whole b }
    let s := invalidateL1 s e.1 (some me)
    let s := touchL2 (if bypasses s e.1 then s else setDir s e.1 (.exact [me])) e.1 true
    let s := match g.place.slice with
      | some sl => if bypasses s e.1 then onRecipe g.place.ctx sl.rcp (fun r => { r with byp := true }) s else s
      | none => s
    let s := if torn then lateStore k 2 (c.writers e.1).2 c.start (c.writers e.1).1 s else s
    fireWatch e.1 s

/-- R223: the lines of a committed chunk become Clean, unless the open chunk has written them too; one that bypasses the L2 stays in no L1 (R231). -/
def cleanLine (k : Nat) (s : State) (line : Nat) : State :=
  let g := s.grp k
  if g.opn.any fun c => (findT c.sd line).isSome then s
  else
    let h := l1Home s g.place.core line
    let x := s.core h
    let own := fun (y : L1Line) => y.line == line && y.owner == some k
    let clean := fun (y : L1Line) => if own y then { y with owner := none, data := lineData s line, bad := lineBad s line } else y
    s.setCore h { x with l1 := if bypasses s line then x.l1.filter fun y => !own y else x.l1.map clean }

/-- R449: a held store or reduction released on its way home; a packed reduction in two halves (R179). -/
def release (k : Nat) (s : State) (h : Held) : State :=
  let g := s.grp k
  let f : Flight := { id := s.serial, ins := h.ins, grp := k, core := g.place.core, ctx := g.place.ctx, va := h.va, pa := h.pa
                      op := h.op, pc := h.pc, half := 2, thrs := h.thrs }
  let packed := match h.op with | .red op _ _ => (halvesOf op).isSome | .store _ => false
  { s with serial := s.serial + 1, flights := s.flights ++ (if packed then [{ f with half := 0 }, { f with half := 1 }] else [f]) }

/-- R109: at a commit of its group chklim becomes the limit of the next chunk to open. -/
def Regs.atCommit (r : Regs) : Regs := { r with lim := r.chklim.toNat }

/-- What a commit leaves of the group: the next chunk may close, and the next one that opens starts with chklim as it stands now, or, where the open
chunk is squashed before, as it stood when that began (R109, R455). An open chunk keeps its own count and limit. -/
def afterCommit (g : Group) : Group :=
  let g := { g with clo := none, regs := g.regs.atCommit, opn := g.opn.map (fun (c : Chunk) => { c with ckpt := c.ckpt.atCommit }) }
  if g.closeReq then closeChunk { g with closeReq := false } else g

/-- R426, R437: the keys that a commit broadcasts. A recompute slice writes only its target, whose bytes equal those that were dropped, and a refused write
changes nothing: neither squashes a chunk. -/
def writeKeys (s : State) (g : Group) (c : Chunk) : List Key :=
  if g.place.slice.isSome then []
  else c.wr.filter fun k => match k with
    | .glob line => !(findT c.vas line).any (refusesWrite s g)
    | _ => true

/-- R448: the Beacon slices that the commit of a chunk claims: those of its lines' home slices, or the one of its core's cluster. -/
def sliceSet (g : Group) (c : Chunk) : List Nat :=
  let l := (List.range 32).filter fun b => c.sd.any fun e => homeSlice (128 * e.1) / 8 == b
  if l.isEmpty then [clusterOf g.place.core] else l

/-- R448: whether Beacon grants a slice set in this cycle: none of its slices is claimed by another grant, and no grant of the cycle that comes after it in the
order of the lowest slices has been numbered. -/
def mayGrant (s : State) (set : List Nat) : Bool :=
  s.beacon.all fun b => !b.any set.contains && decide (b.headD 0 ≤ set.headD 0)

/-- R449: the closed chunk of a group commits. -/
def commitChunk (k : Nat) (c : Chunk) (s : State) : State :=
  let s := s.count (s.grp k).place.ctx (s.grp k).place.core 0x201 1
  let s := settleLoads k c.no (broadcast k (writeKeys s (s.grp k) c) { s with grants := s.grants + 1, beacon := s.beacon ++ [sliceSet (s.grp k) c] })
  let s := c.sd.foldl (commitLine k c) s
  let s := (c.sd.map Prod.fst).foldl (cleanLine k) s
  let s := s.setGrp k (afterCommit (s.grp k))
  let s := c.held.foldl (release k) s
  let g := s.grp k
  if g.exiting && !g.uncommitted then finishGroup k 1 s else s

/-- The virtual addresses that the outstanding loads of a chunk of group `k` read. -/
def chunkReads (k : Nat) (g : Group) (no : Nat) : List (TileUser × Nat) :=
  g.loads.flatMap fun l =>
    if l.chunk == no then (match l.src with | .global acc _ => (acc.filter ThreadAcc.awaited).map fun a => (.load k l.id, a.va) | _ => []) else []

/-- R445: an open chunk at its effective limit closes before its group's next instruction, whether or not that instruction can issue yet (log 75). One
whose own held stores its group waits for closes too, since that wait could never end otherwise (R54 to R56, log 12). -/
def closeAtLimit (k : Nat) (s : State) : State :=
  if (s.grp k).clo.isNone && ((s.grp k).limitReached || waitsForOwn s k) then s.setGrp k (closeChunk (s.grp k)) else s

/-- The accesses of the outstanding global loads of a chunk that have bytes to take. -/
def chunkAccs (g : Group) (no : Nat) : List (Nat × ThreadAcc) :=
  g.loads.flatMap fun l => if l.chunk == no then (match l.src with | .global acc _ => (acc.filter ThreadAcc.awaited).map fun a => (l.size, a) | _ => []) else []

/-- R438: sealed tiles with an uncorrectable error in what a chunk's loads read are dropped before the loads take their bytes. -/
def dropBadReads (g : Group) (no : Nat) (s : State) : State := (chunkAccs g no).foldl (fun s e => dropBadTiles g e.1 [e.2] s) s

/-- R180: whether a request that left its die before is still on the path that a chunk's bytes take to a line's home slice. -/
def commitBlocked (s : State) (g : Group) (c : Chunk) : Bool := c.sd.any fun e => pathBusy s g.place.core s.serial (128 * e.1)

/-- R416, R452: whether a chunk of a group could commit as things stand, but for an older chunk of its group. -/
def mayCommit (s : State) (k : Nat) (c : Chunk) : Bool :=
  let g := s.grp k
  !(missTiles g (chunkReads k g c.no) s).2 && !(g.stores.any fun x => x.chunk == c.no) && !commitBlocked s g c &&
  !heldByReserved s k c.resv (writeKeys s g c) g.place.core []

/-- CHUNK_COMMIT. The chunk waits for the fills of its lines, for data of dropped tiles, and for reserved chunks it would squash (R456). -/
def execChunkCommit (grp : Nat) (s : State) : Res :=
  let s := closeAtLimit grp s
  let g := s.grp grp
  match g.clo with
  | none => .next s
  | some c =>
    let s := dropBadReads g c.no s
    match missTiles g (chunkReads grp g c.no) s with
    | (t, true) => match g.loads.find? fun l => l.chunk == c.no && tooDeep s g ((chunkReads grp g c.no).filter fun e => e.1 == .load grp l.id) with
      | some l => .next (failDeep grp l s)
      | none => .next t
    | (_, false) =>
      if g.stores.any fun x => x.chunk == c.no then .next s
      else if commitBlocked s g c || heldByReserved s grp c.resv (writeKeys s g c) g.place.core [] || !mayGrant s (sliceSet g c) then .next s
      else .next (serveHub (commitChunk grp c s))

/-! ### Released accesses (R169, R179, R191, R457) -/

/-- R180, R164: an earlier access on the same path, or of the same group to the same bytes, goes first. -/
def flightBlocked (s : State) (f : Flight) (n : Nat) : Bool :=
  pathBusy s f.core f.id f.pa ||
  (s.flights.any fun o => decide (o.id < f.id) && o.grp == f.grp && (match o.op, f.op with
    | .store bs, .store _ => overlaps o.pa bs.length f.pa n
    | _, _ => false)) ||
  (match f.op with
   | .store _ => (s.grp f.grp).loads.any fun l => decide (l.id < f.ins) && l.streams.any fun a => overlaps a.pa l.size f.pa n
   | .red .. => false)

/-- R403: the cause of a late store fault for a translation withdrawn after issue, if it is: neither the tables nor a TLB hold it any more. -/
def withdrawn (s : State) (f : Flight) : Option Nat :=
  match tlbLookup s f.core f.ctx f.va with
  | some _ => none
  | none => match walk s f.ctx f.va with
    | .ok _ => none
    | .error c => some (if c = causeIsolation then 4 else 1)

/-- The bytes a flight writes. -/
def Flight.bytes (f : Flight) : Nat :=
  match f.op with
  | .store bs => bs.length
  | .red op _ _ => op.bytes

/-- R231, R437, R403: the cause for which the home slice or the backing memory does not write, if any. -/
def flightFault (s : State) (f : Flight) : Option Nat :=
  match withdrawn s f with
  | some c => some c
  | none =>
    if refusesWrite s (s.grp f.grp) f.va then some 3
    else if badWrite s ((List.range f.bytes).map (f.pa + ·)) then some 2 else none

/-- A flight that has arrived, with the half it carried. -/
def landed (f : Flight) (s : State) : State :=
  { s with flights := s.flights.filter fun o => !(o.id == f.id && o.half == f.half) }

/-- STREAM_STORE_APPLY. -/
def execStreamStoreApply (k : Nat) (s : State) : Res :=
  match s.flights.find? fun f => f.id == k with
  | none => .next s
  | some f => match f.op with
    | .red .. => .next s
    | .store bs =>
      if flightBlocked s f bs.length then .next s
      else match flightFault s f with
      | some c => .next (lateOn f.core f.grp 0x20 c f.va f.pc f.thrs (landed f s))
      | none => .next (streamWrite f.pa bs (landed f s))

/-- R191: both halves of a packed reduction reach the slice together: they take their place in the order of arrival. -/
def arrive (f : Flight) (s : State) : State :=
  { s with serial := s.serial + 1
           flights := s.flights.map fun o => if o.id == f.id && o.arrived.isNone then { o with arrived := some s.serial } else o }

/-- R191: whether the same half of an operand that reached the slice before is still to be applied to the word. -/
def streamAhead (s : State) (f : Flight) : Bool :=
  s.flights.any fun o => o.half == f.half && o.id != f.id && overlaps o.pa 4 f.pa 4 &&
    (match o.arrived with | some a => (match f.arrived with | some b => decide (a < b) | none => true) | none => false)

/-- R179, R191: a released reduction, or the half of one, takes effect. A whole word waits for nothing but what reached the slice before it, which is
applied first. -/
def takeRed (f : Flight) (n : Nat) (s : State) : State :=
  if f.half = 2 then applyRed (settleArrived f.pa n (landed f s)) f
  else applyRed (landed f (if f.arrived.isNone then arrive f s else s)) f

/-- REDUCTION_APPLY. -/
def execReductionApply (k half : Nat) (s : State) : Res :=
  match s.flights.find? fun f => f.id == k && f.half == half with
  | none => .next s
  | some f => match f.op with
    | .store _ => .next s
    | .red op _ _ =>
      if f.arrived.isNone && flightBlocked s f op.bytes then .next s
      else if f.half != 2 && streamAhead s f then .next s
      else match (if f.arrived.isNone then flightFault s f else none) with
      | some c => .next (lateOn f.core f.grp 0x20 c f.va f.pc f.thrs { s with flights := s.flights.filter fun o => o.id != f.id })
      | none => .next (takeRed f op.bytes s)

/-! ### MWAIT_RESUME, PAGE_WALK_COMPLETE, L2_EVICT -/

/-- MWAIT_RESUME (R183): a parked group may resume for no cause at all. -/
def execMwaitResume (grp : Nat) (s : State) : Res :=
  let g := s.grp grp
  match g.status with
  | .suspended (.mwait line) =>
    .next { wakeNext grp s with watches := s.watches.filter fun w => w != (line, grp) }
  | _ => .next s

/-- R238: the entry of a die's walk cache that leaves the fewest levels to walk for an address. -/
def upperAt (l : List UpperEntry) (ctx va : Nat) : Option UpperEntry :=
  let hits := l.filter fun e => e.ctx == ctx && e.va / 2 ^ e.lo == va / 2 ^ e.lo
  hits.find? fun e => hits.all fun o => decide (e.lo ≤ o.lo)

/-- R234, R238: where a walk on a die starts: the levels left and the table, from the walk cache or from the root. -/
def walkStart (s : State) (die ctx va : Nat) : List (Nat × Nat × Bool × Bool × Nat) × Nat :=
  match upperAt (getT [] s.wcache die) ctx va with
  | some e => (walkLevels.filter fun l => decide (l.1 < e.lo), e.table)
  | none => (walkLevels, (s.ctx ctx).root)

/-- The upper-level entries that a walk reads, and the lines in which it reads entries. -/
def walkReads (m : Memory) (frames : List (Nat × Nat)) (ctx va : Nat) :
    List (Nat × Nat × Bool × Bool × Nat) → Nat → List UpperEntry × List Nat
  | [], _ => ([], [])
  | l :: rest, table =>
    let line := lineOf (pteAt table va l)
    match readPte m frames ctx va l table with
    | .ok (.next t) =>
      let r := walkReads m frames ctx va rest t
      ({ ctx := ctx, lo := l.1, va := va, table := t } :: r.1, line :: r.2)
    | _ => ([], [line])

/-- R239: what a walk finds. -/
def walkResult (s : State) (w : Walk) : Except Nat Xlat :=
  let st := walkStart s w.die w.ctx w.va
  walkFrom s.homeMem (s.ctx w.ctx).frames w.ctx w.va st.1 st.2

/-- R238, R239: a walk reads its entries through the L2 and leaves the upper-level ones in the walk cache of 1024 entries. -/
def walkTouch (w : Walk) (s : State) : State :=
  let st := walkStart s w.die w.ctx w.va
  let r := walkReads s.homeMem (s.ctx w.ctx).frames w.ctx w.va st.1 st.2
  let old := getT [] s.wcache w.die
  let s := r.2.foldl (fun s l => touchL2 s l false) s
  { s with wcache := setT s.wcache w.die (((r.1.filter fun e => !old.contains e) ++ old).take 1024) }

/-- R239: the misses of a die's queue, the oldest first, take the walkers that are free; one whose translation has come meanwhile fills its L1 TLB,
one for a page that is being walked joins that walk. -/
def serveMisses (die : Nat) : Nat → State → State
  | 0, s => s
  | n + 1, s =>
    match getT [] s.missq die with
    | [] => s
    | m :: rest =>
      let t := { s with missq := setT s.missq die rest }
      match tlbLookup s m.core m.ctx m.va with
      | some x => serveMisses die n (fillL1Tlb t m.core x)
      | none =>
        if (dieWalks s die).length < 64 || (dieWalks s die).any (fun w => w.2.ctx == m.ctx && samePage s m.ctx w.2.va m.va) then
          serveMisses die n (startWalk t m.core m.ctx m.va m.grp)
        else s

/-- R239: what a finished walk leaves: the shared TLB and every L1 TLB that waits filled, or the fault for every access that waits. -/
def walkEnds (w : Walk) (r : Except Nat Xlat) (s : State) : State :=
  match r with
  | .ok x => w.cores.foldl (fun s c => fillL1Tlb s c x) (fillShared s w.die x)
  | .error c =>
    let s := w.groups.foldl (fun s g => s.setGrp g { s.grp g with xlate := (pageOf w.va, c) :: (s.grp g).xlate }) s
    w.engines.foldl (fun s k => s.setCore k { s.core k with xfail := (w.ctx, pageOf w.va, c) :: (s.core k).xfail }) s

/-- PAGE_WALK_COMPLETE (R239). -/
def execPageWalkComplete (k : Nat) (s : State) : Res :=
  match findT s.walks k with
  | none => .next s
  | some w =>
    let r := walkResult s w
    let s := walkTouch w { s with walks := delT s.walks k }
    .next (serveMisses w.die (getT [] s.missq w.die).length (walkEnds w r s))

/-- R229: whether a line is the one its slice would replace next, with every way of its set in use: the least recently used one that is not pinned. -/
def evictee (s : State) (line : Nat) : Bool :=
  let peers := (l2Peers s line).filter fun e => !pinnedLine s e.1
  decide (16 ≤ (l2Peers s line).length) &&
  (match findT s.l2 line with
   | some x => !pinnedLine s line && peers.all fun e => decide (x.use ≤ e.2.use)
   | none => false)

/-- L2_EVICT: a slice replaces a line for traffic that the model does not follow, such as instruction fetches (log 25). -/
def execL2Evict (line : Nat) (s : State) : Res := .next (if evictee s line then evictLine line s else s)

end Sys2Proof.Machine
end

