-- ==== Sys2Proof/Machine/Wire.lean ====
section
/-! DEFINITION. Sending packets: routes, ports, sequence numbers, copies, buffer counts and reservations (R461 to R472). -/
namespace Sys2Proof.Machine

/-- The port number that stands for the loop through the hub (R463). -/
def loopPort : Nat := 30

/-- The column and row of a package (R461). -/
def colOf (p : Nat) : Nat := p % 16
def rowOf (p : Nat) : Nat := p / 16 % 16

/-- R462: the port that leads from a place to another along a row or column. -/
def portBetween (base here there : Nat) : Nat := base + (if there < here then there else there - 1)

/-- Whether a number is a package of the pod (R461). -/
def inPod (s : State) (p : Nat) : Bool := decide (p < 256) && decide (colOf p < s.pkg.cols) && decide (rowOf p < s.pkg.rows)

/-- A fabric port. -/
def State.port (s : State) (k : Nat) : Port := getT {} s.ports k

/-- What this package keeps of a target. -/
def State.target (s : State) (p : Nat) : Target := getT {} s.targets p

/-- The package at a column and a row (R461). -/
def packageAt (col row : Nat) : Nat := 16 * row + col

/-- R462: the port that leads to a package of the same row or column. -/
def portTo (s : State) (p : Nat) : Nat :=
  let me := s.pkg.pkg
  if rowOf p = rowOf me then portBetween 0 (colOf me) (colOf p) else portBetween 15 (rowOf me) (rowOf p)

/-- R463: whether the link between two packages of a row or a column is up: a port of this package, or a link of others as far as is known here
(log 13). -/
def linkUp (s : State) (a b : Nat) : Bool :=
  if a = b then true
  else if a = s.pkg.pkg then (s.port (portTo s b)).up
  else if b = s.pkg.pkg then (s.port (portTo s a)).up
  else !s.linksDown.contains (min a b, max a b)

/-- R463: the package in this package's row at which a minimal route turns into the target's column. -/
def cornerTo (s : State) (dst : Nat) : Nat := packageAt (colOf dst) (rowOf s.pkg.pkg)

/-- R463: the column of a detour: the lowest-numbered other column whose links along the row, to this package and to the target's column, are up. -/
def detourColumn (s : State) (dst : Nat) : Option Nat :=
  let me := s.pkg.pkg
  (List.range s.pkg.cols).find? fun c =>
    c != colOf me && linkUp s me (packageAt c (rowOf me)) && linkUp s (packageAt c (rowOf me)) (cornerTo s dst)

/-- R463: the port and channel of the minimal route's first hop to another package. -/
def minimalHop (s : State) (dst : Nat) : Nat × Nat :=
  let me := s.pkg.pkg
  if colOf dst ≠ colOf me then (portBetween 0 (colOf me) (colOf dst), 0) else (portBetween 15 (rowOf me) (rowOf dst), 1)

/-- R463, R464: the port and virtual channel of a packet's first hop: the loop, the minimal route, or the detour that is in use. -/
def routeTo (s : State) (dst : Nat) : Nat × Nat :=
  if dst = s.pkg.pkg then (loopPort, 0)
  else match (s.target dst).detour with
    | some c => (portBetween 0 (colOf s.pkg.pkg) c, 2)
    | none => minimalHop s dst

/-- The buffer count a port holds for a channel (R469). -/
def Port.buf (p : Port) (vc : Nat) : Nat := if vc = 0 then p.buf0 else if vc = 1 then p.buf1 else p.buf2

/-- The buffer count of a channel changed at a time. -/
def Port.setBuf (p : Port) (now vc n : Nat) : Port :=
  let dry := fun (old : Nat) => if n = 0 then now else old
  if vc = 0 then { p with buf0 := n, dry0 := dry p.dry0 }
  else if vc = 1 then { p with buf1 := n, dry1 := dry p.dry1 }
  else { p with buf2 := n, dry2 := dry p.dry2 }

/-- When the buffer count of a channel last reached zero. -/
def Port.dry (p : Port) (vc : Nat) : Nat := if vc = 0 then p.dry0 else if vc = 1 then p.dry1 else p.dry2

/-- Whether a hop can take a packet: the loop always, a port while it is up and holds a buffer count for the channel (R469). -/
def hopOpen (s : State) (h : Nat × Nat) : Bool := h.1 == loopPort || ((s.port h.1).up && decide (0 < (s.port h.1).buf h.2))

/-- A packet put on a hop. -/
def emit (h : Nat × Nat) (pkt : Packet) (s : State) : State := { s with outbox := s.outbox ++ [(h.1, { pkt with vc := h.2 })] }

/-- A buffer count taken for a hop (R469). -/
def takeBuf (h : Nat × Nat) (s : State) : State :=
  if h.1 = loopPort then s else { s with ports := setT s.ports h.1 ((s.port h.1).setBuf s.now h.2 ((s.port h.1).buf h.2 - 1)) }

/-- R469: a packet issued on a hop that can take it. -/
def issueOn (h : Nat × Nat) (pkt : Packet) (s : State) : State := takeBuf h (emit h pkt s)

/-- R470: the kinds that draw on the reservations: all but responses and acknowledgements. -/
def needsReservation (kind : Nat) : Bool := kind != 5 && kind != 6

/-- Whether a copy is a packet that has never left and draws on the reservations. -/
def Copy.asks (c : Copy) : Bool := !c.numbered && needsReservation c.pkt.kind

/-- R470: whether `n` packets of a kind may leave for a target at once: none before them waits, and so many reservations are free. -/
def mayLeaveAll (s : State) (dst kind n : Nat) : Bool :=
  !needsReservation kind || (decide (n ≤ (s.target dst).free) && !(s.target dst).copies.any Copy.asks)

/-- R470: whether a packet of a kind may leave for a target at once. -/
def mayLeave (s : State) (dst kind : Nat) : Bool := mayLeaveAll s dst kind 1

/-- The body length of a packet in 16-byte units. -/
def bodyUnits : Body → Nat
  | .rst _ bs _ _ _ => 1 + (bs.length + 15) / 16
  | .response _ _ _ _ bs _ => 1 + (bs.length + 15) / 16
  | .linkData _ _ _ _ bs => 1 + (bs.length + 15) / 16
  | .regput _ _ _ ws _ _ => 1 + (ws.length + 3) / 4
  | _ => 1

/-- R472: the copies of a target with one that has just left: those that have left before it in the order of their numbers, then those that have not. -/
def placeCopy (c : Copy) (l : List Copy) : List Copy :=
  if l.any fun x => x.id == c.id && x.numbered then l.map fun x => if x.id == c.id then c else x
  else (l.filter Copy.numbered) ++ [c] ++ l.filter fun x => !x.numbered && x.id != c.id

/-- R469, R470, R472: a copy that waits leaves, if there is a reservation and a buffer count for it. Its first send gives it its number. -/
def leave (dst : Nat) (s : State) (c : Copy) : State :=
  let t := s.target dst
  let need := needsReservation c.pkt.kind && !c.taken
  let h := routeTo s dst
  if !c.waiting || (need && t.free == 0) || !hopOpen s h then s
  else
    let pkt := if c.numbered then c.pkt else { c.pkt with seq := t.next.toNat }
    let c' := { c with pkt := pkt, waiting := false, numbered := true, sent := s.now, taken := c.taken || need }
    issueOn h pkt { s with targets := setT s.targets dst { t with
      next := if c.numbered then t.next else t.next + 1, free := t.free - b2n need, copies := placeCopy c' t.copies } }

/-- The copies of a target that wait leave in their order: first those to be sent again, by their numbers (R464). -/
def pump (dst : Nat) (s : State) : State := (s.target dst).copies.foldl (leave dst) s

/-- R470, R471, R472: a packet copied and, as soon as it may, numbered and sent. `ictx` is the context that issues it. -/
def sendPacket (dst kind tenant ctx ictx : Nat) (body : Body) (s : State) : State :=
  let t := s.target dst
  let pkt : Packet := { hdrErr := 0, kind := kind, src := s.pkg.pkg, dst := dst, tenant := tenant, ctx := ctx, vc := 0
                        seq := 0, blen := bodyUnits body, body := body, ictx := ictx }
  pump dst { s with targets := setT s.targets dst { t with copies := t.copies ++ [{ id := t.made, pkt := pkt, sent := s.now }], made := t.made + 1 } }

/-- The context that a context's accesses to a peer package are made in (R362). -/
def peerCtx (s : State) (ctx pkg : Nat) : Nat :=
  match (s.ctx ctx).peers.find? fun p => p.1.1 == pkg with
  | some p => p.1.2
  | none => ctx

/-- The fabric tenant of a context (R466). -/
def tenantOf (s : State) (ctx : Nat) : Nat := (s.ctx ctx).tenant.getD 0

/-- R466: a packet that a context issues to its peer context on a package. -/
def sendFor (ctx dst kind : Nat) (body : Body) (s : State) : State := sendPacket dst kind (tenantOf s ctx) (peerCtx s ctx dst) ctx body s

/-- R466: a packet of a context that answers one from another package, to the context which had issued that one. -/
def sendBack (p : Packet) (kind : Nat) (body : Body) (s : State) : State := sendPacket p.src kind (tenantOf s p.ctx) p.ictx p.ctx body s

/-- R463: the next hop of a packet that waits in transit: of this package's own, its route; of one that passes through, on a detour the minimal route from
here on channel 2, else the column. -/
def nextHop (s : State) (p : Packet) : Nat × Nat :=
  let me := s.pkg.pkg
  if p.src = me then routeTo s p.dst
  else if p.vc = 2 then ((minimalHop s p.dst).1, 2)
  else (portBetween 15 (rowOf me) (rowOf p.dst), 1)

/-- R469: a packet put on its next hop, or, while that has no buffer count or others wait for it, among those that wait; `held` is the buffer of this package's
receiver that it stands in, which is free again once it has gone. -/
def passOn (held : Option (Nat × Nat)) (p : Packet) (s : State) : State :=
  let h := nextHop s p
  if hopOpen s h && !(s.transit.any fun e => nextHop s e.2 == h) then { issueOn h p s with freed := s.freed ++ held.toList }
  else { s with transit := s.transit ++ [(held, p)] }

/-- R466, R470: an end-to-end acknowledgement or a denial of a packet: unnumbered, with no copy and no reservation. -/
def sendAck (p : Packet) (body : Body) (s : State) : State :=
  passOn none { hdrErr := 0, kind := 6, src := s.pkg.pkg, dst := p.src, tenant := tenantOf s p.ctx, ctx := p.ictx, vc := 0, seq := 0, blen := 1, body := body, ictx := p.ctx } s

/-- R362: a window of the peer context that a context is bound to on a package. -/
def windowOf (s : State) (ctx pkg w : Nat) : Option Window :=
  match (s.ctx ctx).peers.find? fun p => p.1.1 == pkg with
  | some p => (p.2.find? fun e => e.1 == w).map Prod.snd
  | none => none

end Sys2Proof.Machine
end

