-- ==== Sys2Proof/Machine/Barriers.lean ====
section
/-! DEFINITION. Transaction barriers (R274 to R279), pool entries (R48), slot tokens and slots (R283 to R309). -/
namespace Sys2Proof.Machine

/-! ### Transaction barriers -/

/-- A barrier's fields (R274). `err` holds the error bits [59:56]: fault, over, poison, cancel. -/
structure Bar where
  exp : Nat
  err : Nat
  sec : Int
  arr : Nat
  phase : Nat
deriving DecidableEq, Repr

/-- The error bits (R274). -/
def errFault : Nat := 1
def errOver : Nat := 2
def errPoison : Nat := 4
def errCancel : Nat := 8

/-- A barrier read from its 128 bits. -/
def barOf (x : Nat) : Bar :=
  { exp := bitsN x 64 20, err := bitsN x 56 4, sec := (BitVec.ofNat 32 (bitsN x 24 32)).toInt, arr := bitsN x 4 20, phase := bitsN x 0 4 }

/-- A barrier's fields put back; the reserved fields keep what they held. -/
def barBits (old : Nat) (b : Bar) : Nat :=
  old / 2 ^ 84 * 2 ^ 84 + b.exp * 2 ^ 64 + bitsN old 60 4 * 2 ^ 60 + b.err * 2 ^ 56 + (BitVec.ofInt 32 b.sec).toNat * 2 ^ 24
    + b.arr * 16 + b.phase

/-- R275. -/
def Bar.advance (b : Bar) : Bar :=
  if b.arr = 0 ∧ b.sec ≤ 0 then
    { b with err := if b.sec < 0 then b.err ||| errOver else b.err, phase := (b.phase + 1) % 16, arr := b.exp, sec := 0 }
  else b

/-- R279: a change of the sector count, which never wraps. -/
def Bar.addSec (b : Bar) (n : Int) : Bar :=
  let x := b.sec + n
  if 2147483647 < x then { b with sec := 2147483647, err := b.err ||| errOver }
  else if x < -2147483648 then { b with sec := -2147483648, err := b.err ||| errOver }
  else { b with sec := x }

/-- R279: arrivals counted down. -/
def Bar.arrive (b : Bar) (n : Nat) : Bar :=
  if b.arr < n then { b with arr := 0, err := b.err ||| errOver } else { b with arr := b.arr - n }

/-- A suspended group resumes at the clause after its instruction. -/
def wakePast (k : Nat) (s : State) : State :=
  let g := s.grp k
  wakeNext k (s.setGrp k { g with pc := g.pc + 8, entry := .header, hold := none })

/-- A suspended group tries its instruction again. -/
def wakeAt (k : Nat) (s : State) : State := s.setGrp k { s.grp k with status := .waiting, entry := .resume }

/-- R279: the groups that wait at a barrier of a core for another phase than the one it has now. -/
def wakeBarrier (core a phase : Nat) (s : State) : State :=
  s.groups.foldl (fun s e =>
    match e.2.status with
    | .suspended (.barrier a' p) =>
      if e.2.live && e.2.place.core == core && a' == a && p != phase then wakePast e.1 s else s
    | _ => s) s

/-- The block of a local address has been written (R172). -/
def blockInited (s : State) (core a : Nat) : Bool := (s.core core).inited.getLsbD (a / 4096)

/-- R456: whether a barrier update of group `k` (0: an agent) must wait for a reserved chunk. -/
def barrierHeld (s : State) (k core a : Nat) : Bool := heldByReserved s k none [locKey core a] core ((List.range 16).map (a + ·))

/-- R275, R451: one update of a barrier, a point write at its bank. -/
def updateBarrier (k core a : Nat) (f : Bar → Bar) (s : State) : State :=
  let s := squashUndo k core ((List.range 16).map (a + ·)) s
  let old := readLE (s.core core).lm a 16
  let b := f (barOf old)
  wakeBarrier core a b.phase (pointLocal k core a (leBytes 16 (barBits old b)) s)

/-- R279: BINIT's update. -/
def initBarrier (k core a n : Nat) (s : State) : State :=
  wakeBarrier core a 0 (pointLocal k core a (leBytes 16 (barBits 0 { exp := n, err := 0, sec := 0, arr := n, phase := 0 })) s)

/-! ### Crews and pool entries -/

/-- A change to the request engine of a core. -/
def onEngine (core : Nat) (f : Engine → Engine) (s : State) : State :=
  let c := s.core core
  s.setCore core { c with eng := f c.eng }

/-- A blank crew. -/
def noCrew : Crew :=
  { plan := 0, stage := 0, core := 0, index := 0, weight := 0, groups := [], prod := 0, ctx := 0 }

/-- The crew of a number. -/
def State.crew (s : State) (c : Nat) : Crew := getT noCrew s.crews c

/-- A pool entry (R48). -/
structure PoolEntry where
  kind : Nat
  extent : Nat
  base : Nat
deriving DecidableEq, Repr

/-- R48, R174: the pool entry of a number for a group, or the cause of the memory fault. -/
def poolEntry (s : State) (g : Group) (k : Nat) : Except Nat PoolEntry :=
  match poolOf s g with
  | none => .error causePoolUnmapped
  | some (npool, va) =>
    if npool ≤ k then .error causePoolIndex
    else match walk s g.place.ctx (va + 16 * k) with
    | .error c => .error (poolCause c)
    | .ok x =>
      let e := leNat (readHome s (x.phys (va + 16 * k)) 16)
      .ok { kind := bitsN e 104 8, extent := bitsN e 64 40, base := bitsN e 0 64 }

/-! ### Slots and tokens (R285, R307) -/

/-- A slot of a pipe: its tier (spill or not) and its number. -/
structure SlotRef where
  spill : Bool
  ix : Nat
deriving DecidableEq, Repr

/-- The slot at a place. -/
def Pipe.slot (p : Pipe) (r : SlotRef) : Slot := getT {} (if r.spill then p.ring else p.res) r.ix

/-- A slot written. -/
def Pipe.setSlot (p : Pipe) (r : SlotRef) (x : Slot) : Pipe :=
  if r.spill then { p with ring := setT p.ring r.ix x } else { p with res := setT p.res r.ix x }

/-- The slots of a pipe, the resident ones first (R287). -/
def Pipe.refs (p : Pipe) : List SlotRef :=
  (List.range p.depth).map (⟨false, ·⟩) ++ (List.range p.opened).map (⟨true, ·⟩)

/-- The slots in a state. -/
def Pipe.inState (p : Pipe) (f : SlotState → Bool) : List SlotRef := p.refs.filter fun r => f (p.slot r).state

/-- The free-slot counter (R283). -/
def Pipe.free (p : Pipe) : Nat := (p.inState (· == .free)).length

/-- The ready counter (R283). -/
def Pipe.ready (p : Pipe) : Nat := (p.inState (· == .committed)).length

/-- The occupancy (R308). -/
def Pipe.occupancy (p : Pipe) : Nat := p.refs.length - p.free

/-- R285. -/
def tokenOf (taken : Bool) (pipe : Nat) (r : SlotRef) (seq : Word) : Word :=
  BitVec.ofNat 32 (2 ^ 31 + b2n taken * 2 ^ 30 + b2n r.spill * 2 ^ 29 + pipe * 2 ^ 23 + r.ix * 2 ^ 11 + seq.toNat % 2048)

/-- A token's fields (R285): valid, kind, pipe, slot, seq. -/
structure Token where
  valid : Bool
  taken : Bool
  pipe : Nat
  ref : SlotRef
  seq : Nat
deriving DecidableEq, Repr

/-- R285. -/
def readToken (w : Word) : Token :=
  { valid := w.getLsbD 31, taken := w.getLsbD 30, pipe := bitsN w.toNat 23 6, ref := ⟨w.getLsbD 29, bitsN w.toNat 11 12⟩
    seq := bitsN w.toNat 0 11 }

/-- The pipe of a plan. -/
def State.pipe (s : State) (plan j : Nat) : Option Pipe :=
  match findT s.plans plan with
  | some p => p.pipes[j]?
  | none => none

/-- A pipe of a plan changed. -/
def State.onPipe (s : State) (plan j : Nat) (f : Pipe → Pipe) : State :=
  match findT s.plans plan with
  | some p => { s with plans := setT s.plans plan { p with pipes := p.pipes.mapIdx fun i q => if i = j then f q else q } }
  | none => s

/-- Every pipe of a plan changed. -/
def onPlanPipes (plan : Nat) (f : Pipe → Pipe) (s : State) : State :=
  match findT s.plans plan with
  | some p => { s with plans := setT s.plans plan { p with pipes := p.pipes.map f } }
  | none => s

/-- How a token stands for a crew. -/
inductive Holding where
  | reserved | committing | taken | discarded | none
deriving DecidableEq, Repr

/-- R285, R286: how the slot that a token names stands for a crew; `none` where the token is not valid, names no slot of the plan, or is not the
crew's with its sequence number. -/
def holding (s : State) (plan crew : Nat) (w : Word) : Holding :=
  let t := readToken w
  match s.pipe plan t.pipe with
  | none => .none
  | some p =>
    let x := p.slot t.ref
    if !t.valid || !p.refs.contains t.ref then .none
    else match x.state with
    | .discarded => .discarded
    | .reserved c => if c == crew && !t.taken && x.seq.toNat % 2048 == t.seq then .reserved else .none
    | .committing c => if c == crew && !t.taken && x.seq.toNat % 2048 == t.seq then .committing else .none
    | .taken c => if c == crew && t.taken && x.seq.toNat % 2048 == t.seq then .taken else .none
    | _ => .none

/-- The addresses of a slot's tile and header (R305). -/
def Pipe.tileAddr (p : Pipe) (r : SlotRef) : Nat := (if r.spill then p.mem.ringVa else p.mem.tileVa) + r.ix * p.stride
def Pipe.hdrAddr (p : Pipe) (r : SlotRef) : Nat := (if r.spill then p.mem.rhdrVa else p.mem.thdrVa) + r.ix * 64

/-! ### Closing, waking and watermarks (R292, R309) -/

/-- R292: closed to its producer. -/
def closedToProducer (pl : Plan) (p : Pipe) : Bool := p.closedP || pl.forced

/-- Whether a stage of a plan has a live crew. -/
def stageLive (s : State) (plan stage : Nat) : Bool := s.crews.any fun c => c.2.plan == plan && c.2.stage == stage

/-- R292, R322: closed to its consumer. -/
def closedToConsumer (s : State) (plan : Nat) (pl : Plan) (p : Pipe) : Bool :=
  pl.forced ||
  ((if p.link then p.pdone else !stageLive s plan p.prod) &&
   (p.inState fun x => match x with | .reserved _ | .committing _ | .committed => true | _ => false).isEmpty)

/-- The groups suspended on a side of a pipe try again (R287, R292). -/
def wakePipe (plan j : Nat) (producer : Bool) (s : State) : State :=
  s.groups.foldl (fun s e => if e.2.live && e.2.status == .suspended (.pipe plan j producer) then wakeAt e.1 s else s) s

/-- R309: the mode after an event that may have changed the occupancy. -/
def Pipe.evaluate (p : Pipe) : Pipe :=
  { p with depthMode := if p.depthMode then !decide (p.occupancy ≤ p.lo) else decide (p.hi ≤ p.occupancy) }

/-- A completed operation on a pipe: its counters changed, its mode evaluated (R309, R317). -/
def Pipe.counted (now : Nat) (p : Pipe) : Pipe := { p.evaluate with since := now, ops := p.ops + 1 }

/-- A freed slot wakes the producers of its pipe, and the consumers where the pipe has closed to them with it (R287, R292). -/
def slotFreed (plan j : Nat) (s : State) : State :=
  let s := wakePipe plan j true s
  match findT s.plans plan, s.pipe plan j with
  | some pl, some p => if closedToConsumer s plan pl p then wakePipe plan j false s else s
  | _, _ => s

end Sys2Proof.Machine
end

