-- ==== Sys2Proof/Machine/Tiles.lean ====
section
/-! DEFINITION. Recipe records: references, pins, freeing (R429 to R432). -/
namespace Sys2Proof.Machine

/-- The record whose tile begins at an address and has a size, with its key. -/
def recordOf (c : Context) (t : TileRef) : Option (Nat × Recipe) := c.recipes.find? fun e => e.2.tgt == t

/-- R429: a source word or target word. -/
def TileRef.word (t : TileRef) : Nat := t.va + t.size / 4096

/-- R430: the code of a record's state. -/
def TileState.code : TileState → Nat
  | .none => 0
  | .unsealed => 1
  | .sealed => 2
  | .dropped => 3
  | .recomputing => 4
  | .failed => 5
  | .refused => 6
  | .pinned => 7

/-- R429: the 128 bytes of a record, as a number. -/
def Recipe.record (e : Recipe) : Nat :=
  (e.src.zipIdx.map fun x => x.1.word * 2 ^ (768 + 64 * x.2)).sum + e.tgt.word * 2 ^ 704 + e.slice * 2 ^ 640 + e.arg.toNat * 2 ^ 608 +
  e.stime % 2 ^ 32 * 2 ^ 576 + e.refc * 2 ^ 560 + e.pinc * 2 ^ 552 + e.ocore * 2 ^ 544 + e.depth * 2 ^ 540 + e.src.length * 2 ^ 537 +
  b2n e.rpin * 2 ^ 536 + e.state.code * 2 ^ 532 + e.rcnt * 2 ^ 500

/-- R486: an event in the error log, which holds the last 4096. -/
def logError (what addr : Nat) (s : State) : State :=
  let l : List LogEntry := s.errLog ++ [{ what := what, addr := addr, time := s.now }]
  { s with errLog := l.drop (l.length - 4096) }

/-- Whether nothing keeps a record: no recipe, reference or pin (R429). -/
def Recipe.idle (r : Recipe) : Bool :=
  (r.state == .none || r.state == .pinned || r.state == .refused) && r.refc == 0 && r.pinc == 0 && !r.rpin

/-- Records that nothing keeps are freed. -/
def tidy (ctx : Nat) (s : State) : State :=
  let c := s.ctx ctx
  s.setCtx ctx { c with recipes := c.recipes.filter fun e => !e.2.idle }

/-- R431: one reference to a tile given up. -/
def dropRef (ctx : Nat) (s : State) (t : TileRef) : State :=
  match recordOf (s.ctx ctx) t with
  | some (k, _) => onRecipe ctx k (fun e => { e with refc := e.refc - 1 }) s
  | none => s

/-- R431: the references that a recipe holds given up. -/
def dropRefs (ctx rec' : Nat) (s : State) : State :=
  match findT (s.ctx ctx).recipes rec' with
  | none => s
  | some e => tidy ctx (e.src.foldl (dropRef ctx) (onRecipe ctx rec' (fun e => { e with src := [] }) s))

/-- R230: the lines of a range brought into the L2, where a way is free. -/
def fillLines (ctx va n : Nat) (s : State) : State := (vaLines s ctx va n).foldl (fun s l => touchL2 s l false) s

/-- R430: the recipe of a tile gone, its references given up; the record stays while a pin or a reference keeps it. A tile that others still refer to
is pinned from now on, its lines present (R230). -/
def freeRecipe (ctx rec' : Nat) (s : State) : State :=
  let s := onRecipe ctx rec' (fun e => { e with state := if 0 < e.pinc then .pinned else .none, depth := 0 }) (dropRefs ctx rec' s)
  match findT (s.ctx ctx).recipes rec' with
  | some e => tidy ctx (if 0 < e.refc then fillLines ctx e.tgt.va e.tgt.size s else s)
  | none => s

/-- R431: a reference to a source added; a source without a record gets one. -/
def addRef (ctx : Nat) (s : State) (t : TileRef) : State :=
  let c := s.ctx ctx
  match recordOf c t with
  | some (k, _) => onRecipe ctx k (fun e => { e with refc := e.refc + 1 }) s
  | none => { s.setCtx ctx { c with recipes := setT c.recipes s.serial { tgt := t, refc := 1 } } with serial := s.serial + 1 }

/-- Zero bytes written to a range of a context. -/
def zeroRange (ctx va n : Nat) (s : State) : State :=
  (List.range (n / 32)).foldl (fun s i =>
    match walk s ctx (va + 32 * i) with
    | .ok x => writeGlobal s (x.phys (va + 32 * i)) (List.replicate 32 0)
    | .error _ => s) s

end Sys2Proof.Machine
end

