-- ==== Sys2Proof/Machine/Pipes.lean ====
section
/-! DEFINITION. Pipe, engine and barrier instructions (R271 to R295), and the events of pipes (R288, R289, R309). -/
namespace Sys2Proof.Machine

/-! ### Barriers -/

/-- The engine operand fault (R278, R403). -/
def operandFault (S : Mask) (s : State) : Res := .next (raiseAt 7 0 0 S s)

/-- R278: a barrier address. -/
def barAddrOk (a : Word) : Bool := a.toNat < 1048576 && a.toNat % 16 == 0

/-- R278: an arrival count. -/
def countOk (n : Word) : Bool := decide (1 ≤ n.toNat) && decide (n.toNat ≤ 1048575)

/-- R278: a sector count. -/
def sectorsOk (n : Word) : Bool := decide (n.toNat ≤ 2147483647)

/-- An update of a barrier by an instruction: faults, the hold of R456, then the update (R275, R277). -/
def barrierOp (i : Instr) (ok : Group → Bool) (vb : Reg) (needs : Bool) (f : Group → State → State) (s : State) : Res :=
  groupOp i (fun u S s =>
    let G := s.me
    let a := (G.uval vb).toNat
    if !barAddrOk (G.uval vb) || !ok G then operandFault S s
    else if needs && !blockInited s G.place.core a then operandFault S s
    else if barrierHeld s s.cur G.place.core a then .next (holdFor stallChunk s)
    else .next (retire u S [] (f G s))) s

/-- R279. -/
def execBinit (g : Guard) (vb vn : Reg) (s : State) : Res :=
  barrierOp (.binit g vb vn) (fun G => countOk (G.uval vn)) vb false
    (fun G s => initBarrier s.cur G.place.core (G.uval vb).toNat (G.uval vn).toNat s) s

/-- An optional uniform operand. -/
def optVal (G : Group) (r : Option Reg) (d : Word) : Word := match r with | some r => G.uval r | none => d

/-- R279. -/
def execArrive (g : Guard) (vb : Reg) (vn vs : Option Reg) (s : State) : Res :=
  barrierOp (.arrive g vb vn vs) (fun G => countOk (optVal G vn 1) && sectorsOk (optVal G vs 0)) vb true
    (fun G s => updateBarrier s.cur G.place.core (G.uval vb).toNat
      (fun b => ((b.addSec (optVal G vs 0).toNat).arrive (optVal G vn 1).toNat).advance) s) s

/-- R279. -/
def execBexp (g : Guard) (vb vs : Reg) (s : State) : Res :=
  barrierOp (.bexp g vb vs) (fun G => sectorsOk (G.uval vs)) vb true
    (fun G s => updateBarrier s.cur G.place.core (G.uval vb).toNat (fun b => (b.addSec (G.uval vs).toNat).advance) s) s

/-- A barrier as the running group reads it. -/
def readBarrier (s : State) (core a : Nat) : Bar := barOf (leNat (readLocalBytes s s.cur core a 16))

/-- R279: the word BTEST writes. -/
def testWord (b : Bar) (sec : Bool) : Word :=
  if sec then BitVec.ofInt 32 b.sec else BitVec.ofNat 32 (b.err * 2 ^ 28 + b.arr * 16 + b.phase)

/-- R279. -/
def execBtest (g : Guard) (vd vb : Reg) (sec fit : Bool) (s : State) : Res :=
  groupOp (.btest g vd vb sec fit) (fun u S s =>
    let G := s.me
    if !barAddrOk (G.uval vb) then operandFault S s
    else finishWrite u vd (fun _ => testWord (readBarrier s G.place.core (G.uval vb).toNat) sec) S fit s) s

/-- The cycles of an instruction charged to issue without its completion. -/
def charge (u : Use) (S : Mask) (s : State) : State :=
  (s.countMe 0 (laneCycles u s.me S)).setMe (s.me.spend (laneCycles u s.me S))

/-- R279. -/
def execBwait (g : Guard) (vb vp : Reg) (s : State) : Res :=
  groupOp (.bwait g vb vp) (fun u S s =>
    let G := s.me
    let a := (G.uval vb).toNat
    let p := (G.uval vp).toNat % 16
    if !barAddrOk (G.uval vb) then operandFault S s
    else if (readBarrier s G.place.core a).phase != p then .next (retire u S [] s)
    else .next (suspendAt (.barrier a p) (charge u S s))) s

/-! ### Kicks and child launches -/

/-- An engine report of a crew (R414). -/
def reportEngine (core crew kind cls cause addr info : Nat) (s : State) : State :=
  let c := s.crew crew
  let tag := match findT s.plans c.plan with | some p => p.tag.toNat | none => 0
  countReport crew
    (addReport c.ctx (reportBytes addr 0 cls cause kind { stage := c.stage, core := core, gid := 0, tag := tag, name := nullName } 0 info) s)

/-- R280, R282. -/
def execKick (g : Guard) (idx : BitVec 20) (h : Option Reg) (s : State) : Res :=
  groupOp (.kick g idx h) (fun u S s =>
    let G := s.me
    let n := (idx.zeroExtend 32 + optVal G h 0).toNat
    let c := s.core G.place.core
    if G.place.gid ≠ (s.crew G.place.crew).prod then .next (raiseAt 6 0 0 S s)
    else if 16384 ≤ n then operandFault S s
    else if 64 ≤ c.eng.kicks.length then .next (holdFor stallMq s)
    else
      let k : Kick := { id := s.serial, index := n, grp := s.cur, crew := G.place.crew, fmt := G.regs.fmt }
      .next (retire u S []
        ({ s.setCore G.place.core { c with eng := { c.eng with kicks := c.eng.kicks ++ [k] } } with serial := s.serial + 1 }))) s

/-- R351: what a plan hands to its child launches. -/
def originOf (s : State) (plan : Nat) : Origin := match findT s.plans plan with | some p => p.org | none => {}

/-- R294: a launch entered into a core's pending-launch queue. -/
def enterLaunch (core : Nat) (l : Pending) (s : State) : State :=
  let c := s.core core
  s.setCore core { c with launches := c.launches ++ [l] }

/-- R294: the priority of a child launch. -/
def childPriority (s : State) (G : Group) (h : Option Reg) : Nat :=
  match h with
  | some r => (G.uval r).toNat % 8
  | none => match findT s.plans G.place.plan with | some p => p.pri | none => 0

/-- R294. -/
def execLaunch (g : Guard) (idx : BitVec 20) (h : Option Reg) (s : State) : Res :=
  groupOp (.launch g idx h) (fun u S s =>
    let G := s.me
    match poolEntry s G idx.toNat with
    | .error c => if c = causePoolIndex then operandFault S s else .next (raiseAt 5 c 0 S s)
    | .ok e =>
      if e.kind ≠ 6 || decide (8 ≤ (optVal G h 0).toNat) then operandFault S s
      else if 4 ≤ (s.core G.place.core).launches.length then .next (suspendAt .launch (charge u S s))
      else
        .next (retire u S [] (enterLaunch G.place.core
          { ctx := G.place.ctx, addr := e.base, pri := childPriority s G h, parent := G.place.plan, org := originOf s G.place.plan, since := s.now } s))) s

/-! ### Pipe slots -/

/-- The pipe fault (R286, R403). -/
def pipeFault (S : Mask) (s : State) : Res := .next (raiseAt 8 0 0 S s)

/-- R286: the pipe that a pool entry names in the group's plan: its index, the plan and the pipe, or the class and cause of the fault. -/
def pipeAt (s : State) (G : Group) (idx : BitVec 20) (h : Option Reg) : Except (Nat × Nat) (Nat × Plan × Pipe) :=
  match poolEntry s G (poolIndex G idx h) with
  | .error c => .error (5, c)
  | .ok e =>
    if e.kind ≠ 7 then .error (8, 0)
    else match findT s.plans G.place.plan with
    | none => .error (8, 0)
    | some p => match p.pipes.findIdx? fun q => q.desc == e.base with
      | none => .error (8, 0)
      | some j => .ok (j, p, p.pipes.getD j {})

/-- The messages about a linked pipe beyond R291's modes (log 30): whether the producer side has no live crew, a reserved slot is given back, a request for
a slot is withdrawn, the pipe's mode has changed (R309), slot data has been written or not (R263), and the pipe's occupancy is asked for (R311). -/
def linkClosed : Nat := 100
def linkGiveBack : Nat := 101
def linkWithdraw : Nat := 102
def linkMode : Nat := 103
def linkWritten : Nat := 104
def linkFill : Nat := 105

/-- R322: a message about a linked pipe to the package at its other end. -/
def tellPeer (ctx : Nat) (p : Pipe) (op who slot : Nat) (s : State) : State :=
  match p.peer with
  | some dst => sendFor ctx dst 0x10 (.linkReq p.lkey op who slot) s
  | none => s

/-- R292, R295: what a group asks another package about a linked pipe is dropped: its request for a slot is withdrawn, or the slot it has been
granted is given back. -/
def dropAsk (k : Nat) (s : State) : State :=
  let g := s.grp k
  match g.ask with
  | none => s
  | some a =>
    let t := s.setGrp k { g with ask := none }
    if a.op ≠ 0 then t
    else match s.pipe g.place.plan a.pipe, a.got with
    | none, _ => t
    | some p, some (1 :: n :: _) => tellPeer g.place.ctx p linkGiveBack 0 n t
    | some p, none => tellPeer g.place.ctx p linkWithdraw a.no 0 t
    | some _, some _ => t

/-- R322: a request to the package that holds a linked pipe's counters, if a reservation is free (R470); the running group awaits the answer. -/
def askPeer (j : Nat) (p : Pipe) (op slot : Nat) (s : State) : Option State :=
  match p.peer with
  | none => none
  | some dst =>
    if mayLeave s dst 0x10 then
      some (sendFor s.me.place.ctx dst 0x10 (.linkReq p.lkey op s.serial slot)
        { s.setMe { s.me with ask := some { pipe := j, op := op, slot := slot, no := s.serial } } with serial := s.serial + 1 })
    else none

/-- R322: what the running group has been answered to a request, with the request taken back: `some none` while the answer has not come, none where it has
not asked that. -/
def answered (j op slot : Nat) (s : State) : Option (Option (List Nat)) :=
  match s.me.ask with
  | some a => if a.pipe == j && a.op == op && a.slot == slot then some a.got else none
  | none => none

/-- A word written to a uniform destination at the end of a pipe instruction. -/
def writeToken (u : Use) (d : Reg) (w : Word) (S : Mask) (fit : Bool) (s : State) : Res := finishWrite u d (fun _ => w) S fit s

/-- The slot number of a slot in messages and events: spill slots from 4096 on. -/
def SlotRef.num (r : SlotRef) : Nat := (if r.spill then 4096 else 0) + r.ix

/-- The slot of a number. -/
def slotOfNum (n : Nat) : SlotRef := ⟨decide (4096 ≤ n), n % 4096⟩

/-- The first free slot: resident before spill, lowest number first (R287). -/
def Pipe.firstFree (p : Pipe) : Option SlotRef := p.refs.find? fun r => (p.slot r).state == .free

/-- R287: a free slot reserved by a crew. -/
def Pipe.reserve (p : Pipe) (crew : Nat) (r : SlotRef) (now : Nat) : Pipe :=
  ({ p.setSlot r { state := .reserved crew, seq := p.next } with next := p.next + 1 }).counted now

/-- A slot granted by another package noted here (R322). -/
def Pipe.mirror (p : Pipe) (crew : Nat) (r : SlotRef) (seq : Word) : Pipe :=
  { p.setSlot r { state := .reserved crew, seq := seq } with
    opened := if r.spill then max p.opened (r.ix + 1) else p.opened
    depth := if r.spill then p.depth else max p.depth (r.ix + 1) }

/-- R287, R322: PRSV of a pipe whose counters another package holds. -/
def reserveRemote (u : Use) (d : Reg) (j : Nat) (p : Pipe) (S : Mask) (fit : Bool) (s : State) : Res :=
  let G := s.me
  match answered j 0 G.place.crew s with
  | some (some (1 :: n :: seq :: _)) =>
    let r := slotOfNum n
    let t := (s.setMe { G with ask := none }).onPipe G.place.plan j fun p => p.mirror G.place.crew r (BitVec.ofNat 32 seq)
    writeToken u d (tokenOf false j r (BitVec.ofNat 32 seq)) S fit t
  | some (some _) => writeToken u d 0 S fit (s.setMe { G with ask := none })
  | some none => .next (suspendAt (.pipe G.place.plan j true) s)
  | none =>
    match askPeer j p 0 G.place.crew (dropAsk s.cur s) with
    | some t => .next (suspendAt (.pipe G.place.plan j true) t)
    | none => .next (holdFor stallSlot s)

/-- R287. -/
def execPrsv (g : Guard) (vd : Reg) (idx : BitVec 20) (h : Option Reg) (fit : Bool) (s : State) : Res :=
  groupOp (.prsv g vd idx h fit) (fun u S s =>
    let G := s.me
    match pipeAt s G idx h with
    | .error (cls, cause) => .next (raiseAt cls cause 0 S s)
    | .ok (j, pl, p) =>
      if p.prod ≠ G.place.stage || (p.link && p.lside) then pipeFault S s
      else if closedToProducer pl p then writeToken u vd 0 S fit (dropAsk s.cur s)
      else if p.remote then reserveRemote u vd j p S fit s
      else match p.firstFree with
      | none => .next (suspendAt (.pipe G.place.plan j true) (charge u S s))
      | some r =>
        writeToken u vd (tokenOf false j r p.next) S fit (s.onPipe G.place.plan j fun p => p.reserve G.place.crew r s.now)) s

/-- R283: sequence number `a` comes before `b`. -/
def seqBefore (a b : Word) : Bool := decide ((b - a).toNat < 2 ^ 31)

/-- R287: the committed slot with the lowest sequence number. -/
def Pipe.firstReady (p : Pipe) : Option SlotRef :=
  (p.inState (· == .committed)).foldl (fun best r =>
    match best with
    | none => some r
    | some b => if seqBefore (p.slot b).seq (p.slot r).seq then some b else some r) none

/-- A crew changed. -/
def onCrew (k : Nat) (f : Crew → Crew) (s : State) : State :=
  match findT s.crews k with
  | some c => { s with crews := setT s.crews k (f c) }
  | none => s

/-- R287. -/
def execCtak (g : Guard) (vd : Reg) (idx : BitVec 20) (h : Option Reg) (fit : Bool) (s : State) : Res :=
  groupOp (.ctak g vd idx h fit) (fun u S s =>
    let G := s.me
    match pipeAt s G idx h with
    | .error (cls, cause) => .next (raiseAt cls cause 0 S s)
    | .ok (j, pl, p) =>
      if p.cons ≠ G.place.stage || p.remote then pipeFault S s
      else match p.firstReady with
      | some r =>
        let x := p.slot r
        let t := s.onPipe G.place.plan j fun p => (p.setSlot r { x with state := .taken G.place.crew, share := 0 }).counted s.now
        writeToken u vd (tokenOf true j r x.seq) S fit (onCrew G.place.crew (fun c => { c with weight := c.weight + x.share }) t)
      | none =>
        if closedToConsumer s G.place.plan pl p then writeToken u vd 0 S fit s
        else .next (suspendAt (.pipe G.place.plan j false) (charge u S s))) s

/-! ### Commits and releases -/

/-- The tokens that an engine record names (R327, R328). -/
def recTokens (bs : List Byte) : List Word :=
  let x := leNat bs
  let w := fun lo => BitVec.ofNat 32 (bitsN x lo 32)
  match bitsN x 0 8 with
  | 1 => (if bitsN x 297 1 = 1 then [w 128] else []) ++ (if bitsN x 299 1 = 1 then [w 192] else [])
  | 2 | 3 => if bitsN x 312 2 = 2 then [w 192] else []
  | 4 => if bitsN x 128 9 = 0xC4 ∧ bitN x 150 then [w 160] else []
  | _ => []

/-- The token of a slot that an engine record reads (R327, R328). -/
def recReads (bs : List Byte) : List Word :=
  let x := leNat bs
  let w := fun lo => BitVec.ofNat 32 (bitsN x lo 32)
  match bitsN x 0 8 with
  | 1 => if bitsN x 297 1 = 1 then [w 128] else []
  | 3 => if bitsN x 312 2 = 2 then [w 192] else []
  | _ => []

/-- R331: the record that a KICK in the queue will run: the cached copy of it, or as it stands in local memory. -/
def kickRecord (c : Core) (k : Kick) : List Byte :=
  match c.eng.cache.find? fun r => r.crew == k.crew && r.index == k.index with
  | some r => r.bytes
  | none => readBytes c.lm (64 * k.index) 64

/-- The engine operations of a crew on a core whose record passes a test: KICKs in the queue and instances (R288, R289). -/
def crewOps (c : Core) (crew : Nat) (f : List Byte → Bool) : List Nat :=
  ((c.eng.kicks.filter fun k => k.crew == crew && f (kickRecord c k)).map Kick.id) ++
  (((c.eng.waiting ++ c.eng.running).filter fun i => i.crew == crew && f i.recd).map Inst.id)

/-- R289: the engine operations of a crew that read a token's slot. -/
def opsReading (s : State) (core crew : Nat) (w : Word) : List Nat := crewOps (s.core core) crew fun r => (recReads r).contains w

/-- R288: the engine operations of a crew on a core that name a token, and the drains queued for its slot. -/
def opsNaming (s : State) (core crew plan : Nat) (w : Word) : List Nat :=
  let c := s.core core
  let t := readToken w
  crewOps c crew (fun r => (recTokens r).contains w) ++
  (((c.mat.queue ++ c.mat.run.map Prod.snd).filter fun m => m.slot == some (plan, t.pipe, t.ref.spill, t.ref.ix)).map MCmd.id)

/-- Whether one of these operations stands in a request engine: as a KICK, queued or held, or as an instance. -/
def Engine.liveOps (e : Engine) (ids : List Nat) : Bool :=
  (e.kicks.any fun k => ids.contains k.id) || (e.held.any fun h => h.kick.any ids.contains) || (e.waiting ++ e.running).any fun i => ids.contains i.id

/-- Whether one of these operations has still to complete, on a core or in a core's image (R339). -/
def opsLive (s : State) (ids : List Nat) : Bool :=
  (s.cores.any fun e => e.2.eng.liveOps ids || (e.2.mat.queue ++ e.2.mat.run.map Prod.snd).any fun m => ids.contains m.id) ||
  s.ctxs.any fun c => c.2.images.any fun m => m.eng.liveOps ids

/-- R315: the weight borrowed at a commit. -/
def borrowed : Nat := 1048576

/-- A crew's weight made at least 2 by borrowing from its plan's sink (R315). -/
def borrowFor (crew : Nat) (s : State) : State :=
  let c := s.crew crew
  if 2 ≤ c.weight then s
  else
    let s := onCrew crew (fun c => { c with weight := c.weight + borrowed }) s
    match findT s.plans c.plan with
    | some p => { s with plans := setT s.plans c.plan { p with sink := p.sink - borrowed } }
    | none => s

/-- R306: sequence number and share written into a slot's header. -/
def writeHeader (ctx : Nat) (p : Pipe) (r : SlotRef) (seq : Word) (share : Nat) (s : State) : State :=
  match writeVirtual s ctx (p.hdrAddr r + 44) (leBytes 4 seq.toNat ++ leBytes 8 share) with
  | some t => t
  | none => s

/-- R288: a commit posted. -/
def postCommit (j : Nat) (p : Pipe) (r : SlotRef) (w : Word) (s : State) : State :=
  let G := s.me
  let s := if p.link then s else borrowFor G.place.crew s
  let share := if p.link then 0 else (s.crew G.place.crew).weight / 2
  let s := onCrew G.place.crew (fun c => { c with weight := c.weight - share }) s
  let x := p.slot r
  let ids := opsNaming s G.place.core G.place.crew G.place.plan w
  let s := if p.remote then s else writeHeader G.place.ctx p r x.seq share s
  s.onPipe G.place.plan j fun p => p.setSlot r { x with state := .committing G.place.crew, share := share, waits := ids }

/-- R286, R288. -/
def execPcmt (g : Guard) (vt : Reg) (s : State) : Res :=
  groupOp (.pcmt g vt) (fun u S s =>
    let G := s.me
    let w := G.uval vt
    let t := readToken w
    match s.pipe G.place.plan t.pipe with
    | none => pipeFault S s
    | some p =>
      if p.prod ≠ G.place.stage || (p.link && p.lside) then pipeFault S s
      else match holding s G.place.plan G.place.crew w with
      | .reserved => .next (retire u S [] (postCommit t.pipe p t.ref w s))
      | .discarded => .next (retire u S [] s)
      | _ => pipeFault S s) s

/-- R286, R289. -/
def execCrel (g : Guard) (vt : Reg) (s : State) : Res :=
  groupOp (.crel g vt) (fun u S s =>
    let G := s.me
    let w := G.uval vt
    let t := readToken w
    match s.pipe G.place.plan t.pipe with
    | none => pipeFault S s
    | some p =>
      if p.cons ≠ G.place.stage || p.remote then pipeFault S s
      else match holding s G.place.plan G.place.crew w with
      | .taken =>
        let x := p.slot t.ref
        let ids := opsReading s G.place.core G.place.crew w
        .next (retire u S [] (s.onPipe G.place.plan t.pipe fun p => p.setSlot t.ref { x with state := .releasing G.place.crew, waits := ids }))
      | .discarded => .next (retire u S [] s)
      | _ => pipeFault S s) s

/-- R291: the free resident or free open spill slots. -/
def Pipe.freeOf (p : Pipe) (spill : Bool) : Nat := ((p.inState (· == .free)).filter fun r => r.spill == spill).length

/-- R291: the value of a mode that reads a pipe or a slot; `r` is the token's slot. -/
def statValue (p : Pipe) (m : PMode) (r : SlotRef) : Nat :=
  match m with
  | .free => p.free
  | .ready => p.ready
  | .rfree => p.freeOf false
  | .sfree => p.freeOf true
  | .tlo => p.tileAddr r % 2 ^ 32
  | .thi => p.tileAddr r / 2 ^ 32
  | .hlo => p.hdrAddr r % 2 ^ 32
  | .hhi => p.hdrAddr r / 2 ^ 32
  | .seq => (p.slot r).seq.toNat
  | .wlo | .whi => 0

/-- The number of a mode (R291). -/
def statCode : PMode → Nat
  | .free => 0 | .ready => 1 | .rfree => 2 | .sfree => 3 | .tlo => 4 | .thi => 5 | .hlo => 6 | .hhi => 7 | .seq => 8 | .wlo => 9 | .whi => 10

/-- The mode of a number. -/
def statMode (n : Nat) : PMode := ([.free, .ready, .rfree, .sfree, .tlo, .thi, .hlo, .hhi, .seq, .wlo].getD n .whi)

/-- R291: a value of pipe `j`; the lane is held while another package is asked (R322). -/
def statFrom (u : Use) (d : Reg) (m : PMode) (j : Nat) (p : Pipe) (r : SlotRef) (S : Mask) (fit : Bool) (s : State) : Res :=
  let G := s.me
  if !p.remote then writeToken u d (BitVec.ofNat 32 (statValue p m r)) S fit s
  else match answered j (2 + statCode m) r.num s with
  | some (some l) => writeToken u d (BitVec.ofNat 32 (l.headD 0)) S fit (s.setMe { G with ask := none })
  | some none => .next (holdFor stallScoreboard s)
  | none =>
    match askPeer j p (2 + statCode m) r.num (dropAsk s.cur s) with
    | some t => .next (holdFor stallScoreboard t)
    | none => .next (holdFor stallSlot s)

/-- R291. -/
def execPstat (g : Guard) (vd : Reg) (m : PMode) (idx : BitVec 20) (h : Option Reg) (fit : Bool) (s : State) : Res :=
  groupOp (.pstat g vd m idx h fit) (fun u S s =>
    let G := s.me
    match m with
    | .wlo => writeToken u vd (BitVec.ofNat 32 (s.crew G.place.crew).weight) S fit s
    | .whi => writeToken u vd (BitVec.ofNat 32 ((s.crew G.place.crew).weight / 2 ^ 32)) S fit s
    | .free | .ready | .rfree | .sfree =>
      match pipeAt s G idx h with
      | .error (cls, cause) => .next (raiseAt cls cause 0 S s)
      | .ok (j, _, p) => statFrom u vd m j p ⟨false, 0⟩ S fit s
    | .tlo | .thi | .hlo | .hhi | .seq =>
      let w := optVal G h 0
      let t := readToken w
      match holding s G.place.plan G.place.crew w, s.pipe G.place.plan t.pipe with
      | .reserved, some p => statFrom u vd m t.pipe p t.ref S fit s
      | .taken, some p => statFrom u vd m t.pipe p t.ref S fit s
      | _, _ => pipeFault S s) s

/-! ### PCMT_TAKE_EFFECT, CREL_TAKE_EFFECT, THROTTLE_RELAY -/

/-- R306: the hardware's own write of a header's dropped bit. -/
def setDropped (ctx : Nat) (p : Pipe) (r : SlotRef) (d : Bool) (s : State) : State :=
  let va := p.hdrAddr r + 39
  match walk s ctx va, readVirtual s ctx va 1 with
  | .ok x, some [b] =>
    let b' : Byte := if d then b ||| 0x10 else b &&& 0xEF
    { pointGlobal 0 (x.phys va) [b'] s with mem := writeByte s.mem (x.phys va) b' }
  | _, _ => s

/-- R456: whether the hub's writes of a slot's header must wait. -/
def headerHeld (s : State) (ctx : Nat) (p : Pipe) (r : SlotRef) : Bool :=
  match walk s ctx (p.hdrAddr r) with
  | .ok x => hubHeld s (x.phys (p.hdrAddr r)) 64
  | .error _ => false

/-- R307: a committed spill slot with a sealed recipe loses its lines unwritten, and its header says so. -/
def dropCommitted (ctx : Nat) (p : Pipe) (r : SlotRef) (s : State) : State :=
  match recipeAt (s.ctx ctx) (p.tileAddr r) with
  | some (k, e) =>
    if r.spill && p.rcp && e.state == .sealed && e.pinc == 0 then
      setDropped ctx p r true (dropTile ctx k s)
    else s
  | none => s

/-- R322: an answer about a linked pipe to a request of another package. -/
def linkReply (ctx : Nat) (q : Pipe) (dst op who : Nat) (val : List Nat) (s : State) : State := sendFor ctx dst 0x11 (.linkResp q.lkey op who val) s

/-- Requests of other packages for slots of a linked pipe answered in order while slots are free (R322). -/
def serveLinks (plan j : Nat) : Nat → State → State
  | 0, s => s
  | n + 1, s =>
    match s.pipe plan j, findT s.plans plan with
    | some p, some pl =>
      match p.links, p.firstFree with
      | (pkg, who) :: rest, some r =>
        let seq := p.next
        let s := s.onPipe plan j fun p => { p.reserve 0 r s.now with links := rest }
        serveLinks plan j n (linkReply pl.ctx p pkg 0 who [1, r.num, seq.toNat] s)
      | _, _ => s
    | _, _ => s

/-- R290, R322: whether bytes of a slot have still to be answered for by the package that holds it. -/
def slotDataAway (s : State) (dst lkey slot : Nat) : Bool := s.slotWrites.any fun e => e.2.dst == dst && e.2.lkey == lkey && e.2.slot == slot

/-- PCMT_TAKE_EFFECT. -/
def execPcmtTakeEffect (plan pipe slot : Nat) (s : State) : Res :=
  let r := slotOfNum slot
  match s.pipe plan pipe, findT s.plans plan with
  | some p, some pl =>
    let x := p.slot r
    match x.state with
    | .committing c =>
      if opsLive s x.waits then .next s
      else if p.remote then
        match p.peer with
        | none => .next s
        | some dst =>
          if mayLeave s dst 0x10 && !slotDataAway s dst p.lkey r.num then
            .next (sendFor pl.ctx dst 0x10 (.linkReq p.lkey 1 c r.num)
              (s.onPipe plan pipe fun p => p.setSlot r {}))
          else .next s
      else if headerHeld s pl.ctx p r then .next s
      else
        let s := dropCommitted pl.ctx p r s
        .next (wakePipe plan pipe false
          (s.onPipe plan pipe fun p => (p.setSlot r { x with state := .committed, waits := [] }).counted s.now))
    | _ => .next s
  | _, _ => .next s

/-- R307: a released slot is free, its header cleared, its recipe's references dropped. -/
def freeSlot (plan j : Nat) (ctx : Nat) (p : Pipe) (r : SlotRef) (s : State) : State :=
  let s := setDropped ctx p r false ((writeVirtual s ctx (p.hdrAddr r) (List.replicate 64 0)).getD s)
  let s := match recipeAt (s.ctx ctx) (p.tileAddr r) with
    | some (k, _) => if p.rcp then freeRecipe ctx k s else s
    | none => s
  let s := s.onPipe plan j fun p => (p.setSlot r {}).counted s.now
  serveLinks plan j p.links.length (slotFreed plan j s)

/-- CREL_TAKE_EFFECT. -/
def execCrelTakeEffect (plan pipe slot : Nat) (s : State) : Res :=
  let r := slotOfNum slot
  match s.pipe plan pipe, findT s.plans plan with
  | some p, some pl =>
    let x := p.slot r
    match x.state with
    | .releasing _ =>
      if opsLive s x.waits || headerHeld s pl.ctx p r then .next s else .next (freeSlot plan pipe pl.ctx p r s)
    | _ => .next s
  | _, _ => .next s

/-- R319: whether this package holds the producer side of a pipe. -/
def Pipe.produced (q : Pipe) : Bool := !(q.link && q.lside)

/-- R310: the throttle of every core of a plan's stages, as the relays have told them: a stage is throttled by the pipes it produces. -/
def applyThrottle (plan : Nat) (s : State) : State :=
  match findT s.plans plan with
  | none => s
  | some p => { s with cores := mapT (fun _ c =>
      if c.plan == some plan then { c with thr := p.pipes.any fun q => q.produced && q.prod == c.stage && q.relayed } else c) s.cores }

/-- THROTTLE_RELAY (R309). The mode of a linked pipe is relayed to the package whose stage produces it, once that is known here. -/
def execThrottleRelay (plan pipe : Nat) (s : State) : Res :=
  let t := s.onPipe plan pipe fun p => { p with relayed := p.depthMode }
  match findT s.plans plan, s.pipe plan pipe with
  | some pl, some p =>
    if p.remote then .next s
    else if p.link then .next (if p.relayed == p.depthMode then s else tellPeer pl.ctx p linkMode 0 (b2n p.depthMode) t)
    else .next (applyThrottle plan t)
  | _, _ => .next s

end Sys2Proof.Machine
end

