-- ==== Sys2Proof/Machine/Matrix.lean ====
section
/-! DEFINITION. Matrix engine instructions and the matrix engine (R90 to R96, R243 to R270). -/
namespace Sys2Proof.Machine

/-! ### Formats and operands -/

/-- The element format of a code of fmt (R78). -/
def fmtElem (n : Nat) : Elem :=
  match n with
  | 0 => .bf16 | 1 => .f16 | 2 => .e4m3 | 3 => .e5m2 | 4 => .i8 | 5 => .i4 | _ => .t2

/-- R90: the combinations of A format, B format and accumulator kind that a matrix command accepts. -/
def pairOk (a b acc : Nat) : Bool :=
  ((a == 0 || a == 1) && b == a && acc == 0) ||
  ((a == 2 || a == 3) && (b == 2 || b == 3) && acc == 0) ||
  (a == 4 && (b == 4 || b == 6) && (acc == 1 || acc == 2)) ||
  (a == 5 && b == 5 && (acc == 1 || acc == 2))

/-- The depth of a plane in K positions (R251, R254). -/
def planeK (b : Nat) : Nat := if b = 6 then 512 else 128

/-- The row pitch of an A operand (R251). -/
def apitch (a b : Nat) : Nat := planeK b * (fmtElem a).width / 8

/-- The bytes of a row of a B chunk (R254). -/
def rowBytes (b : Nat) : Nat := 256 * (fmtElem b).width / 8

/-- A geometry register (R250). -/
structure Geo where
  res : Nat
  ncb : Nat
  cb : Nat
  arow : Nat
  rows : Nat
deriving DecidableEq, Repr

/-- R250. -/
def geoOf (w : Word) : Geo :=
  { res := bitsN w.toNat 23 9, ncb := bitsN w.toNat 21 2, cb := bitsN w.toNat 19 2, arow := bitsN w.toNat 10 9, rows := bitsN w.toNat 0 10 }

/-- R250: the limits of a region; `stream` for MSTR and MSTRP. -/
def geoOk (stream : Bool) (w : Word) : Bool :=
  let q := geoOf w
  q.res == 0 && decide (1 ≤ q.rows) && decide (q.rows ≤ 512) && decide (q.arow + q.rows ≤ 512) && decide (q.cb + q.ncb ≤ 3) &&
  (!stream || (q.ncb == 0 && q.rows % 8 == 0))

/-- Whether two regions share an element. -/
def Geo.meets (p q : Geo) : Bool :=
  decide (p.arow < q.arow + q.rows) && decide (q.arow < p.arow + p.rows) && decide (p.cb ≤ q.cb + q.ncb) && decide (q.cb ≤ p.cb + p.ncb)

/-- R251: a local address with an extent. -/
def localOk (al a n : Nat) : Bool := a % al == 0 && decide (a < 1048576) && decide (a + n ≤ 1048576)

/-- The 32-byte sectors of a range of local memory. -/
def secs (a n : Nat) : List Nat := if n = 0 then [] else (List.range ((a + n - 1) / 32 + 1 - a / 32)).map (a / 32 + ·)

/-- Local memory as an engine reads it: the committed bytes, an uncorrectable row as zeros; the boolean says that there was one (R173, R254). -/
def engineRead (s : State) (core a n : Nat) : List Byte × Bool :=
  ((List.range n).map fun i => if rowBad s core (a + i) then 0 else readLocalFor s 0 core (a + i),
   (List.range n).any fun i => rowBad s core (a + i))

/-- `n` elements of `w` bits packed in bytes (R75). -/
def unpackBits (bs : List Byte) (n w : Nat) : List Word :=
  let x := leNat bs
  (List.range n).map fun k => BitVec.ofNat 32 (bitsN x (w * k) w)

/-- Elements of `w` bits packed in bytes (R75). -/
def packBits (xs : List Word) (w : Nat) : List Byte :=
  leBytes (xs.length * w / 8) (xs.foldr (fun x n => x.toNat % 2 ^ w + 2 ^ w * n) 0)

/-- The tail plane (R256): its format and dup, once every queued command ahead has run. -/
def tailPlane (m : Matrix) : Option (Nat × Bool) :=
  let meta' := fun (p : Plane) => if p.full then some (p.bfmt.toNat, p.dup) else none
  let start := if m.live then (meta' m.plane1, meta' m.plane0) else (meta' m.plane0, meta' m.plane1)
  (m.queue.foldl (fun (p : Option (Nat × Bool) × Option (Nat × Bool)) c =>
    match c.op with
    | .mswap => (p.2, p.1)
    | .mldp _ => (p.1, some (fmtB c.fmt, fmtDup c.fmt))
    | _ => p) start).1

/-- R258: whether a core and its partner lie in the rectangle of a stage of a plan. -/
def partnerIn (s : State) (plan stage core : Nat) : Bool :=
  match findT s.plans plan with
  | none => false
  | some p =>
    let r := p.stages.getD stage {}
    let x := core % 16 / 2 * 2
    decide (r.x ≤ x) && decide (x + 1 < r.x + r.w)

/-- R264: where a drain's scales come from: BF16 or FP32, and the addresses of the row and column scales that are present. -/
structure Scales where
  bf : Bool
  row : Option Nat
  col : Option Nat
deriving DecidableEq, Repr

/-- R264: the scales of a drain; none with fmt.scl = 0b00. -/
def scalesOf (s : State) (core : Nat) (fmt vs : Word) (rows : Nat) : Scales :=
  let a := bitsN vs.toNat 0 20
  match fmtScl fmt with
  | 0 => { bf := false, row := none, col := none }
  | 1 =>
    let h := leNat (engineRead s core a 64).1
    { bf := bitN h 319, row := if bitN h 318 then some (a + 16 * bitsN h 336 16) else none
      col := if bitN h 317 then some (a + 16 * bitsN h 320 16) else none }
  | _ =>
    let sz := if vs.getLsbD 31 then 2 else 4
    { bf := vs.getLsbD 31, row := if vs.getLsbD 30 then some a else none
      col := if vs.getLsbD 29 then some (if vs.getLsbD 30 then a + rows * sz else a) else none }

/-- The ranges of local memory a drain reads: bias and scales (R262, R264). -/
def drainReads (s : State) (core : Nat) (fmt geo vx vs : Word) (bias : Bool) : List (Nat × Nat) :=
  let q := geoOf geo
  let c := scalesOf s core fmt vs q.rows
  let sz := if c.bf then 2 else 4
  (if bias then [(16 * bitsN vx.toNat 0 16, (q.ncb + 1) * 1024)] else []) ++
  (if fmtScl fmt = 1 then [(bitsN vs.toNat 0 20, 64)] else []) ++
  (c.row.toList.map fun a => (a, q.rows * sz)) ++ (c.col.toList.map fun a => (a, 256 * (q.ncb + 1) * sz))

/-- The bytes of one row block of 256 elements (R263). -/
def blockBytes (out : Elem) : Nat := 256 * out.width / 8

/-- The ranges of local memory a drain without .pipe writes, row by row (R263). -/
def drainRows (vd geo : Word) (out : Elem) : List (Nat × Nat) :=
  let q := geoOf geo
  (List.range q.rows).map fun i => (bitsN vd.toNat 0 20 + i * (16 * bitsN vd.toNat 20 12), (q.ncb + 1) * blockBytes out)

/-- R263, R288: the pipe whose slot a token names, held for a drain or an engine operation of a crew: reserved by it, or committing with the
operation among those the commit waits for. -/
def heldFor (s : State) (plan crew id : Nat) (w : Word) : Option Pipe :=
  let t := readToken w
  match s.pipe plan t.pipe with
  | none => none
  | some p =>
    match holding s plan crew w with
    | .reserved => some p
    | .committing => if (p.slot t.ref).waits.contains id then some p else none
    | _ => none

/-! ### Issue (R245 to R264) -/

/-- What is wrong with a command: an illegal instruction or a matrix operand fault (R246, R256). -/
inductive MBad where
  | illegal
  | operand
deriving DecidableEq, Repr

/-- What a command's checks allow: the sectors it reads and writes and the slot it drains into. -/
structure MTake where
  reads : List Nat := []
  writes : List Nat := []
  slot : Option (Nat × Nat × Bool × Nat) := none

/-- R256: the checks of a stream. -/
def checkStream (s : State) (core plan stage : Nat) (fmt : Word) (pair : Bool) (v addr geo : Word) (zb : Option Word) : Except MBad MTake :=
  let q := geoOf geo
  if pair && !partnerIn s plan stage core then .error .illegal
  else match tailPlane (s.core core).mat with
  | none => .error .operand
  | some (b, dup) =>
    let a := fmtA fmt
    let bm := q.rows / 8 * (if b = 6 then 8 else 2)
    if !pairOk a b (fmtAcc fmt) || (dup && b == 6) then .error .illegal
    else if !geoOk true geo || decide (q.rows < v.toNat) || !localOk 16 addr.toNat (v.toNat * apitch a b) then .error .operand
    else if zb.any fun z => !localOk 8 z.toNat bm then .error .operand
    else .ok { reads := if pair && core % 2 == 1 then []
                        else secs addr.toNat (v.toNat * apitch a b) ++ (match zb with | some z => secs z.toNat bm | none => []) }

/-- R262 to R264: the checks of a drain. -/
def checkDrain (s : State) (core plan crew id : Nat) (fmt vd geo vx vs : Word) (out : Elem) (bias bar pipe : Bool) : Except MBad MTake :=
  let q := geoOf geo
  let ranges := drainReads s core fmt geo vx vs bias
  if !geoOk false geo then .error .operand
  else if bar && !localOk 16 (16 * bitsN vx.toNat 16 16) 16 then .error .operand
  else if fmtScl fmt != 0 && (bitsN vs.toNat 20 9 != 0 || vs.toNat % 16 != 0) then .error .operand
  else if ranges.any fun r => !localOk 2 r.1 r.2 then .error .operand
  else
    let rd := (ranges.map fun r => secs r.1 r.2).flatten
    if pipe then
      match heldFor s plan crew id vd with
      | none => .error .operand
      | some p =>
        let t := readToken vd
        if p.fmt != out.bits || decide (p.rows < q.rows) then .error .operand
        else .ok { reads := rd, slot := some (plan, t.pipe, t.ref.spill, t.ref.ix) }
    else
      let rows := drainRows vd geo out
      let pitch := 16 * bitsN vd.toNat 20 12
      if decide (pitch < (q.ncb + 1) * blockBytes out) || vd.toNat % 16 != 0 || rows.any fun r => !localOk 16 r.1 r.2 then .error .operand
      else .ok { reads := rd, writes := (rows.map fun r => secs r.1 r.2).flatten }

/-- R96, R254: the B rows that a load reads from memory: with dup, not the rows that the map gives. -/
def loadRows (fmt : Word) : Nat := if fmtDup fmt then 120 else planeK (fmtB fmt)

/-- The checks of a command of a crew on a core (R246, R256). -/
def checkCmd (s : State) (core plan stage crew id : Nat) (fmt : Word) (op : MOp) : Except MBad MTake :=
  match op with
  | .mldp a =>
    let n := planeK (fmtB fmt) * rowBytes (fmtB fmt)
    if fmtDup fmt && fmtB fmt == 6 then .error .illegal
    else if localOk 16 a.toNat n then .ok { reads := secs a.toNat (loadRows fmt * rowBytes (fmtB fmt)) } else .error .operand
  | .mdup _ => .ok {}
  | .mswap => .ok {}
  | .mstr pair v addr geo zb => checkStream s core plan stage fmt pair v addr geo zb
  | .mzero geo => if geoOk false geo then .ok {} else .error .operand
  | .mdrn vd geo vx vs out _ _ bias bar pipe => checkDrain s core plan crew id fmt vd geo vx vs out bias bar pipe

/-- Whether a command is of a pair. -/
def MOp.paired : MOp → Bool
  | .mstr p _ _ _ _ => p
  | _ => false

/-- R245: a command entered into a core's queue; its group has one more command pending. -/
def enqueueCmd (core id grp crew : Nat) (fmt : Word) (pc : Pc) (op : MOp) (t : MTake) (s : State) : State :=
  let c := s.core core
  let m := c.mat
  let cmd : MCmd := { id := id, op := op, slot := t.slot, fmt := fmt, grp := grp, crew := crew, pc := pc, reads := t.reads, writes := t.writes
                      k := m.pairs }
  let s := s.setCore core { c with mat := { m with queue := m.queue ++ [cmd], pairs := m.pairs + b2n op.paired } }
  s.setGrp grp { s.grp grp with mcmd := (s.grp grp).mcmd + 1 }

/-- R245: a matrix instruction. -/
def matrixOp (i : Instr) (op : Group → MOp) (s : State) : Res :=
  groupOp i (fun u S s =>
    let G := s.me
    match checkCmd s G.place.core G.place.plan G.place.stage G.place.crew s.serial G.regs.fmt (op G) with
    | .error .illegal => .next (raiseAt 1 0 0 S s)
    | .error .operand => .next (raiseAt 9 0 0 S s)
    | .ok t =>
      if 32 ≤ (s.core G.place.core).mat.queue.length then .next (holdFor stallMq s)
      else
        .next (retire u S []
          (enqueueCmd G.place.core s.serial s.cur G.place.crew G.regs.fmt G.pc (op G) t { s with serial := s.serial + 1 }))) s

/-- R254. -/
def execMldp (g : Guard) (vb : Reg) (s : State) : Res := matrixOp (.mldp g vb) (fun G => .mldp (G.uval vb)) s
/-- R255. -/
def execMswap (g : Guard) (s : State) : Res := matrixOp (.mswap g) (fun _ => .mswap) s
/-- R256. -/
def execMstr (g : Guard) (vn va vg : Reg) (vz : Option Reg) (s : State) : Res :=
  matrixOp (.mstr g vn va vg vz) (fun G => .mstr false (G.uval vn) (G.uval va) (G.uval vg) (vz.map G.uval)) s
/-- R256, R258. -/
def execMstrp (g : Guard) (vn va vg : Reg) (vz : Option Reg) (s : State) : Res :=
  matrixOp (.mstrp g vn va vg vz) (fun G => .mstr true (G.uval vn) (G.uval va) (G.uval vg) (vz.map G.uval)) s
/-- R262 to R264. -/
def execMdrn (g : Guard) (vd vg vx vs : Reg) (out : Elem) (relu clr bias bar pipe : Bool) (s : State) : Res :=
  matrixOp (.mdrn g vd vg vx vs out relu clr bias bar pipe)
    (fun G => .mdrn (G.uval vd) (G.uval vg) (G.uval vx) (G.uval vs) out relu clr bias bar pipe) s
/-- R261. -/
def execMzero (g : Guard) (vg : Reg) (s : State) : Res := matrixOp (.mzero g vg) (fun G => .mzero (G.uval vg)) s
/-- R253. -/
def execMdup (g : Guard) (vm : Reg) (s : State) : Res := matrixOp (.mdup g vm) (fun G => .mdup (G.upair vm)) s

/-! ### Planes and passes (R91, R92, R96, R257) -/

/-- R96: rows 120 to 127 of a plane set from the map. -/
def dupRows (map : Word64) (rows : List (List Word)) : List (List Word) :=
  let entry := fun e => bitsN map.toNat (8 * e) 8
  rows.take 120 ++ (List.range 8).map fun e =>
    if bitN (entry e) 7 && decide (entry e % 128 ≤ 119) then rows.getD (entry e % 128) [] else List.replicate 256 0

/-- R254: the plane a load leaves, with its flags. -/
def loadPlane (s : State) (core : Nat) (fmt addr : Word) : Plane × Word :=
  let b := fmtB fmt
  let read := (List.range (loadRows fmt)).map fun k => engineRead s core (addr.toNat + k * rowBytes b) (rowBytes b)
  let rows := read.map fun r => unpackBits r.1 256 (fmtElem b).width
  ({ full := true, bfmt := BitVec.ofNat 4 b, dup := fmtDup fmt, rows := if fmtDup fmt then dupRows (s.core core).mat.map rows else rows },
   flagIf (b == 6 && rows.any fun r => r.contains 2) flagTcode ||| flagIf (read.any Prod.snd) flagPoison)

/-- R91: the product of two input elements; a NaN that sets nv is a signalling one. -/
def product (x y : FVal) : FVal :=
  if x.isNan || y.isNan then .nan (x.isSig || y.isSig) else if zeroTimesInf x y then .nan true else mulExact x y

/-- R91: one product added to the exact sum. A NaN stays one, and nv comes of ∞ + (−∞) or of a product that sets it. -/
def addProduct (s p : FVal) : FVal :=
  if s.isNan || p.isNan then .nan (s.isSig || p.isSig)
  else if s.isInf && p.isInf && s.neg != p.neg then .nan true
  else addExact .rne s p

/-- R91: the exact sum of a group of products, one after the other in ascending k from an exact zero. -/
def groupSum (ps : List FVal) : FVal := ps.foldl addProduct (.fin false 0 0)

/-- R91, R257: a floating-point pass over one accumulator element: `a` and `b` the elements of the row and the column, `z` the band's bits. -/
def floatPass (fsr : Bool) (z : Nat) (a b : List FVal) (acc : Nat) : Nat × Word :=
  (List.range (a.length / 8)).foldl (fun (r : Nat × Word) g =>
    if bitN z g then r
    else
      let t := packFloat fp32 fsr .rne (groupSum ((((a.drop (8 * g)).take 8).zip ((b.drop (8 * g)).take 8)).map fun e => product e.1 e.2))
      let u := addFloat fp32 fsr .rne (readFloat fp32 false r.1) (readFloat fp32 false t.1)
      (u.1, r.2 ||| t.2 ||| u.2)) (acc, 0)

/-- R92, R257: an integer pass over one accumulator element. -/
def intPass (sat : Bool) (z : Nat) (a b : List Int) (acc : Nat) : Nat × Word :=
  let p := ((a.zip b).mapIdx fun k e => if bitN z (k / 8) then 0 else e.1 * e.2).foldl (· + ·) 0
  let r := (BitVec.ofNat 32 acc).toInt + p
  if sat then saturate .i32 r else ((BitVec.ofInt 32 r).toNat, 0)

/-- One pass over one accumulator element. -/
def passElem (fmt : Word) (b z : Nat) (row col : List Word) (acc : Nat) : Nat × Word :=
  let ea := fmtElem (fmtA fmt)
  let eb := fmtElem b
  if fmtA fmt < 4 then
    floatPass (fmtFsr fmt) z (row.map fun x => readValue ea (fmtZsi fmt) x.toNat) (col.map fun x => readValue eb (fmtZsi fmt) x.toNat) acc
  else intPass (fmtAcc fmt == 2) z (row.map fun x => readInt ea x.toNat) (col.map fun x => readInt eb x.toNat) acc

/-- R252: the bits of band `b` of the bitmap at `z`. -/
def bandBits (s : State) (core : Nat) (k : Nat) (z : Option Word) (b : Nat) : Nat × Bool :=
  match z with
  | none => (0, false)
  | some z =>
    let n := if k = 512 then 8 else 2
    let r := engineRead s core (z.toNat + n * b) n
    (leNat r.1, r.2)

/-- An accumulator with its flags. -/
structure Accum where
  acc : Tab Word
  flags : Word

/-- R257: one row of a stream against a plane. -/
def streamRow (fmt : Word) (b z : Nat) (cols : List (List Word)) (row : List Word) (base : Nat) (m : Accum) : Accum :=
  (cols.mapIdx fun j col => (j, col)).foldl (fun m e =>
    let r := passElem fmt b z row e.2 (getT 0 m.acc (base + e.1)).toNat
    { acc := setT m.acc (base + e.1) (BitVec.ofNat 32 r.1), flags := m.flags ||| r.2 }) m

/-- R257: a stream run on the accumulators of a core against its live plane; the A rows and the bitmap come from core `src` (R258). -/
def runStream (s : State) (core src : Nat) (fmt v addr geo : Word) (zb : Option Word) : Accum :=
  let m := (s.core core).mat
  let p := if m.live then m.plane1 else m.plane0
  let b := p.bfmt.toNat
  let q := geoOf geo
  let k := planeK b
  let pitch := apitch (fmtA fmt) b
  let cols := (List.range 256).map fun j => p.rows.map fun r => r.getD j 0
  (List.range (q.rows / 8)).foldl (fun m n =>
    let z := bandBits s src k zb n
    let m := { m with flags := m.flags ||| flagIf z.2 flagPoison }
    if z.1 = 2 ^ (k / 8) - 1 then m
    else
      (List.range 8).foldl (fun (m : Accum) j =>
        let i := 8 * n + j
        if v.toNat ≤ i then m
        else
          let r := engineRead s src (addr.toNat + i * pitch) pitch
          let m := { m with flags := m.flags ||| flagIf r.2 flagPoison }
          streamRow fmt b z.1 cols (unpackBits r.1 k (fmtElem (fmtA fmt)).width) (1024 * (q.arow + i) + 256 * q.cb) m) m)
    { acc := m.acc, flags := 0 }

/-! ### Draining (R93, R262 to R264) -/

/-- R93: one element through the epilogue. `x` is the accumulator's code. -/
def epilogue (fmt : Word) (out : Elem) (relu : Bool) (scaled : Bool) (rs cs : Nat) (bias : Option Nat) (x : Nat) : Nat × Word :=
  let fsr := fmtFsr fmt
  let isInt := fmtAcc fmt != 0
  let toF := isInt && (scaled || bias.isSome)
  let a : Nat × Word := if toF then convert .i32 .f32 false fsr .rne x else (x, 0)
  let mul := fun (r : Nat × Word) (y : Nat) =>
    let t := mulFloat fp32 fsr .rne (readFloat fp32 false r.1) (readFloat fp32 false y)
    (t.1, r.2 ||| t.2)
  let a := if scaled then mul (mul a rs) cs else a
  let a := match bias with
    | some y =>
      let t := addFloat fp32 fsr .rne (readFloat fp32 false a.1) (readFloat fp32 false y)
      (t.1, a.2 ||| t.2)
    | none => a
  let stillInt := isInt && !toF
  let a := if !relu then a
    else if stillInt then (if bitN a.1 31 then (0, a.2) else a)
    else if bitN a.1 31 && !(readFloat fp32 false a.1).isNan then (0, a.2) else a
  let y := convert (if stillInt then .i32 else .f32) out (fmtZsi fmt) fsr (roundOfFmt fmt) a.1
  (y.1, a.2 ||| y.2)

/-- A vector of scales or biases read from local memory: FP32 codes. -/
def readVector (s : State) (core : Nat) (bf : Bool) (a n : Nat) : List Nat × Bool :=
  let sz := if bf then 2 else 4
  let r := engineRead s core a (n * sz)
  ((unpackBits r.1 n (8 * sz)).map fun x => if bf then x.toNat * 65536 else x.toNat, r.2)

/-- The operands of a drain as it reads them at its start. -/
structure DrainIn where
  bias : Option (List Nat)
  rows : Option (List Nat)
  cols : Option (List Nat)
  bad : Bool

/-- R262, R264. A header copy in a bad row reads as zeros and sets no flag (DEDUCED, log 33). -/
def drainIn (s : State) (core : Nat) (fmt geo vx vs : Word) (bias : Bool) : DrainIn :=
  let q := geoOf geo
  let c := scalesOf s core fmt vs q.rows
  let b := if bias then some (readVector s core false (16 * bitsN vx.toNat 0 16) (256 * (q.ncb + 1))) else none
  let r := c.row.map fun a => readVector s core c.bf a q.rows
  let k := c.col.map fun a => readVector s core c.bf a (256 * (q.ncb + 1))
  { bias := b.map Prod.fst, rows := r.map Prod.fst, cols := k.map Prod.fst
    bad := (b.any Prod.snd) || (r.any Prod.snd) || (k.any Prod.snd) }

/-- The code of 1.0 in binary32. -/
def fp32One : Nat := 0x3F800000

/-- R262: the bytes of the row block (i, c) of a drain, with its flags. -/
def drainBlock (m : Matrix) (bad : List Nat) (fmt : Word) (q : Geo) (out : Elem) (relu : Bool) (d : DrainIn) (i c : Nat) : List Byte × Word :=
  let base := 1024 * (q.arow + i) + 256 * (q.cb + c)
  let err := bad.any fun e => decide (base ≤ e) && decide (e < base + 256)
  let w := out.width
  let one := fun j =>
    let n := 256 * c + j
    let get := fun (l : Option (List Nat)) (k : Nat) => match l with | some l => l.getD k 0 | none => fp32One
    epilogue fmt out relu (fmtScl fmt != 0) (get d.rows i) (get d.cols n) (d.bias.map fun l => l.getD n 0)
      (getT 0 m.acc (base + j)).toNat
  if err then (List.replicate (blockBytes out) 0, flagPoison)
  else
    let ys := (List.range 256).map one
    (leBytes (blockBytes out) (ys.foldr (fun y acc => y.1 + 2 ^ w * acc) 0), ys.foldl (fun f y => f ||| y.2) 0)

/-- The accumulator columns of a region set to zero; errors in them are gone. -/
def clearRegion (q : Geo) (core : Nat) (s : State) : State :=
  let c := s.core core
  let inside := fun (e : Nat) => decide (q.arow ≤ e / 1024) && decide (e / 1024 < q.arow + q.rows) &&
    decide (256 * q.cb ≤ e % 1024) && decide (e % 1024 < 256 * (q.cb + q.ncb + 1))
  s.setCore core { c with mat := { c.mat with acc := c.mat.acc.filter fun e => !inside e.1 }, badAcc := c.badAcc.filter fun e => !inside e }

/-- R239, R241: an engine asks its core's L1 TLB for an address, on the lanes' terms: a hit in the shared TLB fills the L1 TLB, a miss joins or
starts a walk. The boolean says that the translation, or the failure of its walk, has come. -/
def engineAsk (core ctx va : Nat) (s : State) : State × Bool :=
  if 2 ^ 57 ≤ va then (s, true)
  else match tlbLookup s core ctx va with
  | some x => (if (s.core core).tlb.contains x then s else fillL1Tlb s core x, true)
  | none =>
    if (s.core core).xfail.any fun e => e.1 == ctx && e.2.1 == pageOf va then (s, true) else (startWalk s core ctx va none, false)

/-- The same for several addresses. -/
def engineReady (core ctx : Nat) (vas : List Nat) (s : State) : State × Bool :=
  vas.foldl (fun r va => ((engineAsk core ctx va r.1).1, r.2 && (engineAsk core ctx va r.1).2)) (s, true)

/-- The failures that an engine's access has met are told (R239). -/
def forgetFails (core ctx : Nat) (vas : List Nat) (s : State) : State :=
  let c := s.core core
  if c.xfail.isEmpty then s
  else s.setCore core { c with xfail := c.xfail.filter fun e => !(e.1 == ctx && vas.any fun va => pageOf va == e.2.1) }

/-- R241: the translation an engine of a core uses once it has come, or the cause of R404. -/
def engineXlat (s : State) (core ctx va : Nat) : Except Nat Xlat :=
  if 2 ^ 57 ≤ va then .error causeNonCanonical
  else match tlbLookup s core ctx va with
  | some x => .ok x
  | none => match (s.core core).xfail.find? fun e => e.1 == ctx && e.2.1 == pageOf va with
    | some e => .error e.2.2
    | none => walk s ctx va

/-- A global write of an engine of a crew: where it goes, or the cause for which it is not made (R337, R435, R437). -/
def enginePlace (s : State) (core ctx va : Nat) : Except Nat Xlat :=
  match engineXlat s core ctx va with
  | .error c => .error c
  | .ok x =>
    if !x.write || (tileState s ctx va).refusesWrites || tileState s ctx va == .failed then .error causeReadOnly else .ok x

/-- A global write of an engine at a place (R335, R451). -/
def enginePut (va : Nat) (bs : List Byte) (x : Xlat) (s : State) : State :=
  if x.stream then streamWrite (x.phys va) bs s else pointGlobal 0 (x.phys va) bs s

/-- The pieces of a write that stay inside one 32-byte sector. -/
def pieces : Nat → Nat → List Byte → List (Nat × List Byte)
  | 0, _, _ => []
  | n + 1, va, bs =>
    if bs.isEmpty then [] else
    let k := 32 - va % 32
    (va, bs.take k) :: pieces n (va + k) (bs.drop k)

/-- Global pieces written where they may be; the first address refused is kept. -/
def putPieces (core ctx : Nat) (ps : List (Nat × List Byte)) (s : State) : State × Option Nat :=
  ps.foldl (fun (r : State × Option Nat) e =>
    match enginePlace r.1 core ctx e.1 with
    | .ok x => (enginePut e.1 e.2 x r.1, r.2)
    | .error _ => (r.1, r.2.orElse fun _ => some e.1)) (s, none)

/-- The bytes of a drain by row block, in the order of R262, with its flags. -/
def drainBlocks (s : State) (core : Nat) (fmt geo vx vs : Word) (out : Elem) (relu bias : Bool) : List (Nat × Nat × List Byte) × Word :=
  let q := geoOf geo
  let c := s.core core
  let d := drainIn s core fmt geo vx vs bias
  let l := ((List.range q.rows).map fun i => (List.range (q.ncb + 1)).map fun b => (i, b, drainBlock c.mat c.badAcc fmt q out relu d i b)).flatten
  (l.map fun e => (e.1, e.2.1, e.2.2.1), l.foldl (fun f e => f ||| e.2.2.2) (flagIf d.bad flagPoison))

/-- The header bytes that hold a slot's format, valid rows and scale fields, as they stand (R306). -/
def slotForm (s : State) (ctx : Nat) (p : Pipe) (r : SlotRef) : Nat :=
  match readVirtual s ctx (p.hdrAddr r + 37) 3 with | some bs => leNat bs | none => 0

/-- The writes of a .pipe drain into its slot (R263): pieces of the tile, and the header's format, valid rows and scale fields, of
which sfmt is 0; with INT4 and an odd tile width a row's last byte takes the drained element of the column beyond it too (DEDUCED, log 33). -/
def slotPieces (old : Nat) (p : Pipe) (r : SlotRef) (out : Elem) (q : Geo) (blocks : List (Nat × Nat × List Byte)) : List (Nat × List Byte) :=
  let tile := (blocks.map fun e =>
    let n := min 256 (p.cols - 256 * e.2.1)
    if n = 0 then [] else
    pieces 40 (p.tileAddr r + e.1 * p.pitch + e.2.1 * blockBytes out) (e.2.2.take ((n * out.width + 7) / 8))).flatten
  let new := old % 16 + out.bits.toNat * 16 + q.rows * 256 + bitsN old 18 3 * 2 ^ 18
  tile ++ [(p.hdrAddr r + 37, leBytes 3 new)]

/-- R322: a pipe whose slots another package holds, with its slot addresses as offsets: of the tile from 0, of the header from 2^24 on. -/
def Pipe.asOffsets (p : Pipe) : Pipe := { p with mem := { tileVa := 0, ringVa := 0, thdrVa := 2 ^ 24, rhdrVa := 2 ^ 24 } }

/-- R322: bytes of a slot sent to the package that holds it, and noted until it answers. -/
def sendSlotData (ctx : Nat) (w : SlotWrite) (s : State) (e : Nat × List Byte) : State :=
  sendFor ctx w.dst 0x12 (.linkData w.lkey w.slot e.1 s.serial e.2)
    { s with slotWrites := setT s.slotWrites s.serial { w with off := e.1 }, serial := s.serial + 1 }

/-! ### MATRIX_DISPATCH (R266) -/

/-- The unit of a command (R244). -/
def MOp.unit : MOp → MUnit
  | .mldp _ | .mdup _ => .loader
  | .mswap | .mstr .. => .array
  | .mzero _ | .mdrn .. => .drain

/-- The region of a command. -/
def MOp.geo : MOp → Option Geo
  | .mstr _ _ _ g _ => some (geoOf g)
  | .mzero g => some (geoOf g)
  | .mdrn _ g .. => some (geoOf g)
  | _ => none

/-- What a command is to the conditions of R266. -/
def MOp.isLoad : MOp → Bool
  | .mldp _ => true
  | _ => false
def MOp.isStream : MOp → Bool
  | .mstr .. => true
  | _ => false
def MOp.isDrain : MOp → Bool
  | .mdrn .. => true
  | _ => false

/-- Whether the regions of two commands meet. -/
def opsMeet (a b : MOp) : Bool :=
  match a.geo, b.geo with
  | some p, some q => p.meets q
  | _, _ => false

/-- R266: whether the unit and the condition of a command allow it to dispatch. -/
def mayDispatch (m : Matrix) (c : MCmd) : Bool :=
  let busy := fun u => m.run.any fun r => r.1 == u
  match c.op with
  | .mdup _ => !busy .loader
  | .mldp _ => !busy .loader && !m.run.any fun r => r.2.op.isStream && r.2.plane != m.live
  | .mswap => !m.run.any fun r => r.2.op.isLoad
  | .mstr .. => !m.run.any fun r => r.2.op.isDrain && opsMeet r.2.op c.op
  | .mzero _ | .mdrn .. => !busy .drain && !m.run.any fun r => r.2.op.isStream && opsMeet r.2.op c.op

/-- A command moved from the head of the queue to its unit, with the flags it has raised. -/
def startCmd (core : Nat) (c : MCmd) (f : Word) (s : State) : State :=
  let x := s.core core
  s.setCore core { x with mat := { x.mat with queue := x.mat.queue.tail, run := x.mat.run ++ [(c.op.unit, { c with flags := c.flags ||| f, plane := x.mat.live })] } }

/-- A change to the matrix engine of a core. -/
def onMatrix (core : Nat) (f : Matrix → Matrix) (s : State) : State :=
  let x := s.core core
  s.setCore core { x with mat := f x.mat }

/-- A command dispatched; loads, swaps and streams act at once, a drain at its completion. `src` is the core whose A rows a stream reads,
`sc` the command that names them (R258). -/
def dispatchCmd (core src : Nat) (c sc : MCmd) (s : State) : State :=
  match c.op, sc.op with
  | .mldp a, _ =>
    let r := loadPlane s core c.fmt a
    startCmd core c r.2 (onMatrix core (fun m => if m.live then { m with plane0 := r.1 } else { m with plane1 := r.1 }) s)
  | .mdup w, _ => startCmd core c 0 (onMatrix core (fun m => { m with map := w }) s)
  | .mswap, _ => startCmd core c 0 (onMatrix core (fun m => { m with live := !m.live, gen := m.gen + 1 }) s)
  | .mstr _ v _ geo _, .mstr _ _ addr _ zb =>
    let r := runStream s core src c.fmt v addr geo zb
    startCmd core c r.flags (onMatrix core (fun m => { m with acc := r.acc }) s)
  | .mzero geo, _ => startCmd core c 0 (clearRegion (geoOf geo) core s)
  | _, _ => startCmd core c 0 s

/-- R258: the other core of a pair. -/
def partner (core : Nat) : Nat := if core % 2 = 0 then core + 1 else core - 1

/-- R260: what the commands of a pair must share. -/
def sameStream (a b : MOp) : Bool :=
  match a, b with
  | .mstr _ v _ g z, .mstr _ v' _ g' z' => v == v' && (geoOf g).rows == (geoOf g').rows && z.isSome == z'.isSome
  | _, _ => false

/-- R258: the partner of a core's head command at the head of the other queue. -/
def headPair (s : State) (core : Nat) : Option (MCmd × MCmd) :=
  match (s.core core).mat.queue, (s.core (partner core)).mat.queue with
  | a :: _, b :: _ => if a.op.paired && b.op.paired && a.k == b.k then some (a, b) else none
  | _, _ => none

/-- R257, R258: a pair's two streams dispatched together. -/
def dispatchPair (core : Nat) (a b : MCmd) (s : State) : State :=
  let even := core / 2 * 2
  let sc := if core = even then a else b
  dispatchCmd (partner core) even b sc (dispatchCmd core even a sc s)

/-- MATRIX_DISPATCH. -/
def execMatrixDispatch (core : Nat) (s : State) : Res :=
  match (s.core core).mat.queue with
  | [] => .next s
  | c :: _ =>
    if c.op.paired then
      match headPair s core with
      | some (a, b) =>
        if sameStream a.op b.op && mayDispatch (s.core core).mat a && mayDispatch (s.core (partner core)).mat b then .next (dispatchPair core a b s)
        else .next s
      | none => .next s
    else if mayDispatch (s.core core).mat c then .next (dispatchCmd core core c c s)
    else .next s

/-! ### MATRIX_COMPLETE, MSTRP_PAIR_DISCARD (R247, R249, R260) -/

/-- A command of a group no longer pending. -/
def cmdGone (grp : Nat) (s : State) : State := s.setGrp grp { s.grp grp with mcmd := (s.grp grp).mcmd - 1 }

/-- An engine's discarded update or error counted in the crew's exit status (R277, R332). -/
def countDiscard (core crew : Nat) (s : State) : State :=
  let c := s.core core
  s.setCore core { c with eng := { c.eng with discarded := setT c.eng.discarded crew (getT 0 c.eng.discarded crew + 1) } }

/-- R277: an engine's update of a barrier, discarded and counted on an uninitialised block. -/
def engineUpdate (core crew a : Nat) (f : Bar → Bar) (s : State) : State :=
  if blockInited s core a then updateBarrier 0 core a f s else countDiscard core crew s

/-- R456: whether a write to ranges of local memory must wait for a reserved chunk. -/
def localHeld (s : State) (core : Nat) (ranges : List (Nat × Nat)) : Bool :=
  let bytes := (ranges.map fun r => (List.range r.2).map (r.1 + ·)).flatten
  heldByReserved s 0 none ((bytes.map (locKey core)).eraseDups) core bytes

/-- R456: whether writes to global pieces must wait for a reserved chunk. -/
def globalHeld (s : State) (core ctx : Nat) (ps : List (Nat × List Byte)) : Bool :=
  let keys := ps.filterMap fun e => match enginePlace s core ctx e.1 with
    | .ok x => if x.stream then none else some (Key.glob (lineOf (x.phys e.1)))
    | .error _ => none
  heldByReserved s 0 none keys.eraseDups core []

/-- The arrival of a drain with .bar (R262, R320). -/
def drainArrival (core : Nat) (c : MCmd) (vx : Word) (bar cancel : Bool) (s : State) : State :=
  if bar then
    engineUpdate core c.crew (16 * bitsN vx.toNat 16 16)
      (fun b => (({ b with err := if cancel then b.err ||| errCancel else b.err }).arrive 1).advance) s
  else s

/-- Whether a drain's slot has been discarded (R320). -/
def slotDiscarded (s : State) (plan pipe : Nat) (r : SlotRef) : Bool :=
  match s.pipe plan pipe with
  | some p => (p.slot r).state == .discarded
  | none => true

/-- R262, R263, R451: a drain's writes into local memory, each 32-byte sector a point write. -/
def drainLocal (core : Nat) (vd : Word) (out : Elem) (blocks : List (Nat × Nat × List Byte)) (s : State) : State :=
  blocks.foldl (fun s e =>
    (pieces 40 (bitsN vd.toNat 0 20 + e.1 * (16 * bitsN vd.toNat 20 12) + e.2.1 * blockBytes out) e.2.2).foldl
      (fun s p => pointLocal 0 core p.1 p.2 s) s) s

/-- A drain's end; none while a reserved chunk holds one of its writes (R456). -/
def finishDrain (core : Nat) (c : MCmd) (vd geo vx vs : Word) (out : Elem) (relu clr bias bar : Bool) (s : State) : Option (State × Word) :=
  let (blocks, flags) := drainBlocks s core c.fmt geo vx vs out relu bias
  let clear := fun s => if clr then clearRegion (geoOf geo) core s else s
  if bar && barrierHeld s 0 core (16 * bitsN vx.toNat 16 16) then none
  else if c.sent then some (drainArrival core c vx bar false s, 0)
  else match c.slot with
  | none =>
    if localHeld s core (drainRows vd geo out) then none
    else some (drainArrival core c vx bar false (clear (drainLocal core vd out blocks s)), flags)
  | some (plan, pipe, spill, ix) =>
    let r : SlotRef := ⟨spill, ix⟩
    if slotDiscarded s plan pipe r then some (drainArrival core c vx bar true (clear s), flags)
    else match s.pipe plan pipe with
    | none => some (clear s, flags)
    | some p =>
      let ctx := (s.grp c.grp).place.ctx
      let ps := slotPieces (slotForm s ctx p r) p r out (geoOf geo) blocks
      if globalHeld s core ctx ps then none
      else
        let (t, bad) := putPieces core ctx ps s
        let t := match bad with
          | some va => lateOn core c.grp 0x22 3 va c.pc 0 t
          | none => t
        some (drainArrival core c vx bar false (clear t), flags)

/-- A command's own end: what it writes and the flags it has raised in all. -/
def finishCmd (core : Nat) (c : MCmd) (s : State) : Option (State × Word) :=
  match c.op with
  | .mdrn vd geo vx vs out relu clr bias bar _ =>
    match finishDrain core c vd geo vx vs out relu clr bias bar s with
    | some (t, f) => some (t, f ||| c.flags)
    | none => none
  | _ => some (s, c.flags)

/-- An address in each 512 KiB page of a range. -/
def pagesOf (va n : Nat) : List Nat := va :: (List.range ((va + n - 1) / 524288 - va / 524288)).map fun k => (va / 524288 + k + 1) * 524288

/-- The addresses at whose pages a drain writes its slot (R241, R263). -/
def drainPages (s : State) (c : MCmd) : List Nat :=
  match c.slot with
  | none => []
  | some (plan, pipe, spill, ix) => match s.pipe plan pipe with
    | none => []
    | some p =>
      if p.remote || (p.slot ⟨spill, ix⟩).state == .discarded then []
      else pagesOf (p.tileAddr ⟨spill, ix⟩) p.tileSize ++ [p.hdrAddr ⟨spill, ix⟩]

/-- R322: a drain that has still to send its bytes to the package that holds its slot, with that package, its pipe's key and the slot. -/
def drainAway (s : State) (c : MCmd) : Option (Nat × Nat × SlotRef) :=
  match c.slot with
  | none => none
  | some (plan, pipe, spill, ix) => match s.pipe plan pipe with
    | none => none
    | some p =>
      if c.sent || !p.remote || (p.slot ⟨spill, ix⟩).state == .discarded then none
      else p.peer.map fun dst => (dst, p.lkey, ⟨spill, ix⟩)

/-- R263, R269, R322: a drain into another package's slot sends its bytes; its region is read, and cleared with .clr, now. -/
def sendDrain (core k : Nat) (c : MCmd) (dst lkey : Nat) (r : SlotRef) (s : State) : State :=
  match c.op, c.slot with
  | .mdrn _ geo vx vs out relu clr bias _ _, some (plan, pipe, _, _) =>
    let p := ((s.pipe plan pipe).getD {}).asOffsets
    let (blocks, flags) := drainBlocks s core c.fmt geo vx vs out relu bias
    let w : SlotWrite := { core := core, op := c.id, sector := none, dst := dst, lkey := lkey, slot := r.num, off := 0, grp := c.grp, crew := c.crew, pc := c.pc }
    let s := (slotPieces 0 p ⟨r.spill, 0⟩ out (geoOf geo) blocks).foldl (sendSlotData (s.grp c.grp).place.ctx w) s
    let s := if clr then clearRegion (geoOf geo) core s else s
    onMatrix core (fun m => { m with run := m.run.mapIdx fun i e => if i = k then (e.1, { e.2 with sent := true, flags := e.2.flags ||| flags }) else e }) s
  | _, _ => s

/-- R269, R322: whether the package that holds a drain's slot has still to answer for some of its bytes. -/
def drainUnderWay (s : State) (core : Nat) (c : MCmd) : Bool := s.slotWrites.any fun e => e.2.core == core && e.2.op == c.id

/-- MATRIX_COMPLETE. Commands of one unit complete in the order of their dispatch; a drain into a slot waits for its translations (R241), one into another
package's slot, taken a second time, for that package's answers (R269). -/
def execMatrixComplete (core k : Nat) (s : State) : Res :=
  let m := (s.core core).mat
  match m.run[k]? with
  | none => .next s
  | some (u, c) =>
    if (m.run.take k).any fun r => r.1 == u then .next s
    else
      let ctx := (s.grp c.grp).place.ctx
      match engineReady core ctx (drainPages s c) s with
      | (t, false) => .next t
      | (s, true) =>
        match drainAway s c with
        | some (dst, lkey, r) => .next (sendDrain core k c dst lkey r s)
        | none =>
        if drainUnderWay s core c then .next s
        else match finishCmd core c s with
        | none => .next s
        | some (t, f) => .next (forgetFails core ctx (drainPages s c) (orFlags c.grp f (cmdGone c.grp (onMatrix core (fun m => { m with run := m.run.eraseIdx k }) t))))

/-- R260: a command discarded unrun and reported. -/
def discardCmd (core cause : Nat) (c : MCmd) (s : State) : State :=
  lateOn core c.grp 0x22 cause 0 c.pc 0
    (cmdGone c.grp (onMatrix core (fun m => { m with queue := m.queue.filter fun x => x.id != c.id }) s))

/-- R260: whether no crew that could queue a partner command runs on a core; one whose crews are only saved has none (DEDUCED, log 100). -/
def noCrewOn (s : State) (core : Nat) : Bool := !s.crews.any fun c => c.2.core == core && !c.2.saved

/-- MSTRP_PAIR_DISCARD. -/
def execMstrpPairDiscard (core : Nat) (s : State) : Res :=
  match (s.core core).mat.queue with
  | [] => .next s
  | c :: _ =>
    if !c.op.paired then .next s
    else match headPair s core with
    | some (a, b) => if sameStream a.op b.op then .next s else .next (discardCmd (partner core) 1 b (discardCmd core 1 a s))
    | none =>
      if noCrewOn s (partner core) && !(s.core (partner core)).mat.queue.any fun x => x.op.paired && x.k == c.k then .next (discardCmd core 2 c s)
      else .next s

/-- R258: the pair counts of a core and its partner start again at 0, and the partner's MSTRPs without a partner are discarded; the core's own keep their
number (DEDUCED, log 100). -/
def resetPairs (core : Nat) (s : State) : State :=
  let mine := (s.core core).mat.queue
  let lone := (s.core (partner core)).mat.queue.filter fun x => x.op.paired && !(mine.any fun y => y.op.paired && y.k == x.k)
  let s := lone.foldl (fun s c => discardCmd (partner core) 2 c s) s
  onMatrix core (fun m => { m with pairs := 0 }) (onMatrix (partner core) (fun m => { m with pairs := 0 }) s)

end Sys2Proof.Machine
end

