-- ==== Sys2Proof/Machine/Engine.lean ====
section
/-! DEFINITION. The request engine (R324 to R340): records, instances, sectors, completion. -/
namespace Sys2Proof.Machine

/-! ### Records (R325 to R330) -/

/-- A field of a record. -/
def recField (r : List Byte) (lo n : Nat) : Nat := bitsN (leNat r) lo n

/-- A signed field of a record. -/
def recSigned (r : List Byte) (lo n : Nat) : Int := (BitVec.ofNat n (recField r lo n)).toInt

/-- The header fields (R325). -/
def recKind (r : List Byte) : Nat := recField r 0 8
def recPreds (r : List Byte) : Nat := recField r 8 8
def recBar (r : List Byte) : Bool := recField r 16 1 == 1
def recArr (r : List Byte) : Bool := recField r 17 1 == 1
def recNoCache (r : List Byte) : Bool := recField r 18 1 == 1
def recBaddr (r : List Byte) : Nat := 16 * recField r 20 16

/-- The valid successors of a record. -/
def recSucc (r : List Byte) : List Nat :=
  (List.range 4).filterMap fun k => if recField r (50 + 15 * k) 1 = 1 then some (recField r (36 + 15 * k) 14) else none

/-- R325, R326, R336: the header's own limits. -/
def recHeadOk (r : List Byte) : Bool :=
  recField r 96 32 == 0 && recField r 19 1 == 0 && decide (1 ≤ recKind r) && decide (recKind r ≤ 5)

/-- One side of a moving operation (R327, R328): its space, its token where it is a slot, its start and the strides of dimensions 2 and 1. -/
structure Side where
  sp : Nat
  tok : Word
  base : Nat
  str2 : Int
  str1 : Int

/-- A side of a copy. -/
def sideOf (r : List Byte) (sp addr s2 s1 : Nat) : Side :=
  let a := recField r addr 64
  let sp := recField r sp 2
  { sp := sp, tok := BitVec.ofNat 32 a, base := if sp ≤ 1 then a else a / 2 ^ 32, str2 := recSigned r s2 40, str1 := recSigned r s1 40 }

/-- The sides of a copy (R327). -/
def copySrc (r : List Byte) : Side := sideOf r 296 128 392 352
def copyDst (r : List Byte) : Side := sideOf r 298 192 472 432

/-- The counts of a copy: sectors of a run, and of dimensions 1 and 2. -/
def copyN0 (r : List Byte) : Nat := recField r 300 15 + 1
def copyN1 (r : List Byte) : Nat := recField r 320 16 + 1
def copyN2 (r : List Byte) : Nat := recField r 336 16 + 1

/-- The address of a run of a side. -/
def runAddr (d : Side) (i2 i1 : Nat) : Int := d.base + i2 * d.str2 + i1 * d.str1

/-- The lowest and the highest end of a side's runs. -/
def sideSpan (r : List Byte) (d : Side) : Int × Int :=
  let e2 := ((copyN2 r : Int) - 1) * d.str2
  let e1 := ((copyN1 r : Int) - 1) * d.str1
  ((d.base : Int) + min 0 e2 + min 0 e1, (d.base : Int) + max 0 e2 + max 0 e1 + 32 * copyN0 r)

/-- How a slot token stands for an engine operation (R288, R289, R337). -/
inductive SlotFor where
  | held (p : Pipe)
  | gone
  | none

/-- R288, R289, R320, R337. -/
def slotFor (s : State) (plan crew id : Nat) (w : Word) : SlotFor :=
  let t := readToken w
  match s.pipe plan t.pipe with
  | Option.none => .none
  | some p =>
    let x := p.slot t.ref
    match holding s plan crew w with
    | .discarded => .gone
    | .reserved | .taken => .held p
    | .committing => if x.waits.contains id then .held p else .none
    | .none =>
      match x.state with
      | .releasing c =>
        if t.valid && t.taken && c == crew && x.seq.toNat % 2048 == t.seq && x.waits.contains id then .held p else .none
      | _ => .none

/-- The plan, stage and context of a crew. -/
def crewPlan (s : State) (crew : Nat) : Nat := (s.crew crew).plan

/-- R327, R336: the limits of a side of a copy. -/
def sideOk (s : State) (crew id : Nat) (r : List Byte) (d : Side) : Bool :=
  let (lo, hi) := sideSpan r d
  d.base % 32 == 0 && d.str2 % 32 == 0 && d.str1 % 32 == 0 &&
  (match d.sp with
   | 0 => true
   | 1 => decide (d.base < 1048576) && decide (0 ≤ lo) && decide (hi ≤ 1048576)
   | 2 => (match slotFor s (crewPlan s crew) crew id d.tok with
     | .held p => decide (0 ≤ lo) && decide (hi ≤ p.stride)
     | _ => true)
   | _ => (d.base == 0 || d.base == 32) && decide (0 ≤ lo) && decide (hi ≤ 64))

/-- The fields of a gather or scatter (R328). -/
def gsSpace (r : List Byte) : Nat := recField r 312 2
def gsEsz (r : List Byte) : Nat := recField r 292 6 + 1
def gsCount (r : List Byte) : Nat := recField r 276 16 + 1
def gsList (r : List Byte) : Nat := recField r 256 20
def gsShift (r : List Byte) : Nat := recField r 304 6
def gsBase (r : List Byte) : Nat := recField r 128 64
def gsSide (r : List Byte) : Side :=
  { sp := gsSpace r, tok := BitVec.ofNat 32 (recField r 192 64)
    base := if gsSpace r = 1 then recField r 192 64 else recField r 192 64 / 2 ^ 32, str2 := 0, str1 := 0 }

/-- R328, R336. -/
def gatherOk (s : State) (crew id : Nat) (r : List Byte) : Bool :=
  let d := gsSide r
  let hi := d.base + gsCount r * 32 * gsEsz r
  recField r 314 198 == 0 && recField r 310 2 == 0 && recField r 298 6 == 0 && (d.sp == 1 || d.sp == 2) && decide (gsShift r ≤ 40) &&
  gsList r % 16 == 0 && decide (gsList r + 4 * gsCount r ≤ 1048576) && d.base % 32 == 0 && gsBase r % 32 == 0 &&
  (if d.sp = 1 then decide (hi ≤ 1048576)
   else match slotFor s (crewPlan s crew) crew id d.tok with | .held p => decide (hi ≤ p.stride) | _ => true)

/-- R336: the checks of a record's fields that need no command or pool entry. -/
def recOk (s : State) (crew id : Nat) (r : List Byte) : Bool :=
  recHeadOk r &&
  (match recKind r with
   | 1 => recField r 315 5 == 0 && recField r 256 40 == 0 && sideOk s crew id r (copySrc r) && sideOk s crew id r (copyDst r)
   | 2 | 3 => gatherOk s crew id r
   | 4 => recField r 288 224 == 0 && decide (0xC0 ≤ recField r 128 9) && decide (recField r 128 9 ≤ 0xC6)
   | _ => recField r 152 360 == 0)

/-- R172: the local sectors of a side of a copy, run by run. -/
def sideSecs (r : List Byte) (d : Side) : List Nat :=
  if d.sp ≠ 1 then []
  else ((List.range (copyN2 r)).map fun i2 => ((List.range (copyN1 r)).map fun i1 =>
    (List.range (copyN0 r)).map fun k => (runAddr d i2 i1).toNat / 32 + k).flatten).flatten.eraseDups

/-- R172: the pending-read and pending-write sectors of a record's instance. -/
def recPending (s : State) (crew id : Nat) (r : List Byte) : List Nat × List Nat :=
  if !recOk s crew id r then ([], [])
  else match recKind r with
  | 1 => (sideSecs r (copySrc r), sideSecs r (copyDst r))
  | 2 | 3 =>
    let ix := secs (gsList r) (4 * gsCount r)
    let side := if gsSpace r = 1 then secs (gsSide r).base (gsCount r * 32 * gsEsz r) else []
    if recKind r = 2 then (ix, side) else (ix ++ side, [])
  | _ => ([], [])

/-! ### Arrivals (R331 to R333) -/

/-- Whether the instances of a core include one of a cached record. -/
def Engine.busy (e : Engine) (r : CachedRec) : Bool := (e.waiting ++ e.running).any fun i => i.crew == r.crew && i.index == r.index

/-- The cached record of a crew and index. -/
def Engine.find (e : Engine) (crew n : Nat) : Option CachedRec := e.cache.find? fun r => r.crew == crew && r.index == n

/-- R332, R333: whether the cache has the record or can take it. -/
def Engine.room (e : Engine) (crew n : Nat) : Bool :=
  (e.find crew n).isSome || decide (e.cache.length < 128) || e.cache.any fun r => !e.busy r

/-- R332: the cache with a record put first; the least recently used one without an instance leaves where it is full. -/
def Engine.put (e : Engine) (r : CachedRec) : Engine :=
  let rest := e.cache.filter fun x => !(x.crew == r.crew && x.index == r.index)
  let rest := if rest.length < 128 then rest
    else match rest.reverse.find? fun x => !e.busy x with
    | some v => rest.filter fun x => x != v
    | none => rest
  { e with cache := r :: rest }

/-- An update of an instance's barrier, if it names one (R334, R336). -/
def instUpdate (core : Nat) (i : Inst) (f : Bar → Bar) (s : State) : State := engineUpdate core i.crew (recBaddr i.recd) f s

/-- R333: an arrival discarded: fault on the barrier of the record that sent it, and the exit count. -/
def discardArrival (core crew : Nat) (sender : Option Inst) (s : State) : State :=
  let s := match sender with
    | some i => if recBar i.recd || recArr i.recd then instUpdate core i (fun b => ({ b with err := b.err ||| errFault }).advance) s else s
    | none => s
  countDiscard core crew s

/-- Whether an arrival is one for a crew's record. -/
def HeldArrival.isFor (h : HeldArrival) (crew n : Nat) : Bool := h.crew == crew && h.index == n

/-- R333: an arrival held, or discarded beyond 255 of its entry. -/
def holdArrival (core : Nat) (h : HeldArrival) (sender : Option Inst) (s : State) : State :=
  if 255 ≤ ((s.core core).eng.held.filter fun x => x.isFor h.crew h.index).length then discardArrival core h.crew sender s
  else onEngine core (fun e => { e with held := e.held ++ [h] }) s

/-- R333: an arrival at a cached record. The instance it may bring into being has its KICK's number, or else a new one. -/
def arriveAt (core : Nat) (h : HeldArrival) (r : CachedRec) (sender : Option Inst) (s : State) : State :=
  let e := (s.core core).eng.put r
  let s := onEngine core (fun _ => e) s
  match e.waiting.find? fun i => i.crew == r.crew && i.index == r.index with
  | some i =>
    if i.need = 0 then holdArrival core h sender s
    else if i.need = 1 then
      onEngine core (fun e => { e with waiting := (e.waiting.filter fun x => x.id != i.id) ++ [{ i with need := 0 }] }) s
    else onEngine core (fun e => { e with waiting := e.waiting.map fun x => if x.id == i.id then { x with need := x.need - 1 } else x }) s
  | none =>
    if e.running.any fun i => i.crew == r.crew && i.index == r.index then holdArrival core h sender s
    else
      let id := h.kick.getD s.serial
      let p := recPending s r.crew id r.bytes
      let i : Inst := { id := id, index := r.index, recd := r.bytes, crew := r.crew, grp := h.grp, fmt := h.fmt, need := recPreds r.bytes - 1
                        pread := p.1, pwrite := p.2 }
      onEngine core (fun e => { e with waiting := e.waiting ++ [i] }) { s with serial := s.serial + 1 }

/-- R331 to R333: an arrival for a record of a crew, fetched if the cache does not hold it. -/
def arrival (core : Nat) (h : HeldArrival) (sender : Option Inst) (s : State) : State :=
  match (s.core core).eng.find h.crew h.index with
  | some r => arriveAt core h r sender s
  | none =>
    if !(s.core core).eng.room h.crew h.index then discardArrival core h.crew sender s
    else if !blockInited s core (64 * h.index) then reportEngine core h.crew 5 0 0 (64 * h.index) h.index s
    else arriveAt core h { crew := h.crew, index := h.index, bytes := (engineRead s core (64 * h.index) 64).1 } sender s

/-- R339, R416: whether the groups of a core that is being saved have all parked or stopped. -/
def atRest (s : State) (core : Nat) : Bool :=
  (s.core core).save.isSome && s.groups.all fun e =>
    !e.2.live || e.2.place.core != core || e.2.place.slice.isSome ||
    (match e.2.status with | .ended | .saved => true | .suspended (.parked _) => true | .suspended .stopped => true | _ => false)

/-- RECORD_FETCH (R331): the head of the kick queue dequeued. -/
def execRecordFetch (core : Nat) (s : State) : Res :=
  match (s.core core).eng.kicks with
  | [] => .next s
  | k :: ks =>
    if atRest s core || !(s.core core).eng.room k.crew k.index then .next s
    else .next (arrival core { crew := k.crew, index := k.index, grp := k.grp, fmt := k.fmt, kick := some k.id } none (onEngine core (fun e => { e with kicks := ks }) s))

/-! ### Starting (R329, R330, R333) -/

/-- R329: the command of a record, or none where its fields name no instruction form. -/
def recCommand (r : List Byte) : Option MOp :=
  let m := recField r 137 23
  let dv := BitVec.ofNat 32 (recField r 160 32)
  let s1 := BitVec.ofNat 32 (recField r 192 32)
  let s2 := BitVec.ofNat 32 (recField r 224 32)
  let s3 := BitVec.ofNat 32 (recField r 256 32)
  let stream := fun pair => if m ≤ 1 then some (MOp.mstr pair dv s1 s2 (if m = 1 then some s3 else none)) else none
  match recField r 128 9 with
  | 0xC0 => if m = 0 then some (.mldp s1) else none
  | 0xC1 => if m = 0 then some .mswap else none
  | 0xC2 => stream false
  | 0xC3 => stream true
  | 0xC4 =>
    match Elem.ofBits (BitVec.ofNat 4 (bitsN m 18 4)) with
    | some out =>
      if out == .t2 || bitN m 22 || bitsN m 0 13 != 0 then none
      else some (.mdrn dv s1 s2 s3 out (bitN m 17) (bitN m 16) (bitN m 15) (bitN m 14) (bitN m 13))
    | none => none
  | 0xC5 => if m = 0 then some (.mzero s1) else none
  | 0xC6 => if m = 0 then some (.mdup (s2 ++ s1)) else none
  | _ => none

/-- R329, R330: whether the command or the pool entry of a record passes its checks. -/
def recRuns (s : State) (core : Nat) (i : Inst) : Bool :=
  let g := s.grp i.grp
  match recKind i.recd with
  | 4 => match recCommand i.recd with
    | some op => (match checkCmd s core (crewPlan s i.crew) (s.crew i.crew).stage i.crew i.id i.fmt op with | .ok _ => true | .error _ => false)
    | none => false
  | 5 => match poolEntry s g (recField i.recd 128 20) with
    | .ok e => e.kind == 6
    | .error _ => false
  | _ => true

/-- The number of sectors an instance moves. -/
def recSectors (r : List Byte) : Nat :=
  match recKind r with
  | 1 => copyN0 r * copyN1 r * copyN2 r
  | 2 | 3 => gsCount r * gsEsz r
  | _ => 0

/-- R336: a record error of a running instance: it moves nothing, sets fault on its barrier when it ends, and is reported. -/
def recordError (core : Nat) (i : Inst) (s : State) : State :=
  reportEngine core i.crew 5 0 0 (64 * i.index) i.index
    (onEngine core (fun e => { e with running := e.running.map fun x =>
      if x.id == i.id then { x with bad := true, err := x.err ||| errFault, left := [] } else x }) s)

/-- R329: the command of a running instance enters the matrix queue, if there is room; a check that fails only then is a record error too. It
has no instruction's address (log 100). -/
def sendCommand (core : Nat) (i : Inst) (s : State) : State :=
  match recCommand i.recd with
  | none => s
  | some op =>
    match checkCmd s core (crewPlan s i.crew) (s.crew i.crew).stage i.crew i.id i.fmt op with
    | .error _ => recordError core i s
    | .ok t =>
      if 32 ≤ (s.core core).mat.queue.length then s
      else
        onEngine core (fun e => { e with running := e.running.map fun x => if x.id == i.id then { x with sent := true } else x })
          (enqueueCmd core i.id i.grp i.crew i.fmt (BitVec.ofNat 48 0) op t s)

/-- R333, R336: a ready instance starts. -/
def startInst (core : Nat) (i : Inst) (s : State) : State :=
  let ok := recOk s i.crew i.id i.recd && recRuns s core i
  let i' := { i with left := if ok then List.range (recSectors i.recd) else [] }
  let s := onEngine core (fun e => { e with waiting := e.waiting.filter fun x => x.id != i.id, running := e.running ++ [i'] }) s
  if !ok then recordError core i' s
  else if recKind i.recd = 4 then sendCommand core i' s else s

/-- INSTANCE_START. A core whose groups have come to rest for a save starts no instance (R339). -/
def execInstanceStart (core : Nat) (s : State) : Res :=
  let c := s.core core
  match c.eng.waiting.find? fun i => i.need == 0 with
  | none => .next s
  | some i => if atRest s core || 16 ≤ c.eng.running.length then .next s else .next (startInst core i s)

/-! ### Sectors (R327, R328, R334, R337) -/

/-- One end of a moving sector: local memory, global memory, a slot that another package holds (R322), a slot that a forced drain discarded, or
a sector error with its address. -/
inductive End where
  | loc (a : Nat)
  | glob (va : Nat)
  | away (dst lkey slot off : Nat)
  | gone
  | bad (cause addr : Nat)
deriving DecidableEq, Repr

/-- An offset of a side as an end. -/
def sideEnd (s : State) (crew id : Nat) (d : Side) (off : Int) : End :=
  match d.sp with
  | 0 => .glob (off % 2 ^ 64).toNat
  | 1 => .loc off.toNat
  | sp =>
    match slotFor s (crewPlan s crew) crew id d.tok with
    | .gone => .gone
    | .none => .bad 0x21 off.toNat
    | .held p =>
      let r := (readToken d.tok).ref
      if p.remote then .away (p.peer.getD 0) p.lkey r.num ((if sp = 2 then 0 else 2 ^ 24) + off.toNat)
      else .glob ((if sp = 2 then p.tileAddr (readToken d.tok).ref else p.hdrAddr (readToken d.tok).ref) + off.toNat)

/-- R328: the index of an element as it reads now, 2^32 greater where its word has an uncorrectable error and so reads as zero (R337, log 83). -/
def readIndex (s : State) (core : Nat) (r : List Byte) (j : Nat) : Nat :=
  let x := engineRead s core (gsList r + 4 * j) 4
  if x.2 then 2 ^ 32 else leNat x.1

/-- R328: a sector's instance with the index of the sector's element read, once for all its sectors. -/
def withIndex (core : Nat) (i : Inst) (n : Nat) (s : State) : Inst × State :=
  let j := n / gsEsz i.recd
  if recKind i.recd = 1 || (findT i.xs j).isSome then (i, s)
  else
    let i := { i with xs := setT i.xs j (readIndex s core i.recd j) }
    (i, onEngine core (fun e => { e with running := e.running.map fun x => if x.id == i.id then i else x }) s)

/-- Whether the index of a sector's element had an uncorrectable error (R337). -/
def indexBad (i : Inst) (n : Nat) : Bool := recKind i.recd != 1 && decide (2 ^ 32 ≤ getT 0 i.xs (n / gsEsz i.recd))

/-- Source and destination of sector `n` of an instance (R327, R328). -/
def secEnds (s : State) (i : Inst) (n : Nat) : End × End :=
  let r := i.recd
  if recKind r = 1 then
    let k := n % copyN0 r
    let q := n / copyN0 r
    let at' := fun (d : Side) => sideEnd s i.crew i.id d (runAddr d (q / copyN1 r) (q % copyN1 r) + 32 * k)
    (at' (copySrc r), at' (copyDst r))
  else
    let j := n / gsEsz r
    let k := n % gsEsz r
    let x := getT 0 i.xs j % 2 ^ 32
    let g := (gsBase r + x * 2 ^ gsShift r) % 2 ^ 64
    let d := gsSide r
    let near := sideEnd s i.crew i.id d (d.base + 32 * n)
    let far := if g % 32 ≠ 0 then End.bad 0x20 g else .glob (g + 32 * k)
    if recKind r = 2 then (far, near) else (near, far)

/-- R337: an end that cannot be used: the error bit it sets and the cause and address of the report, if it is reported. -/
def endError (s : State) (core ctx : Nat) (write : Bool) : End → Option (Nat × Option (Nat × Nat))
  | .gone => some (errCancel, none)
  | .bad c a => some (errFault, some (c, a))
  | .loc _ => none
  | .away _ _ _ off => if write then none else some (errFault, some (causeNoTranslation, off))
  | .glob va =>
    if write then
      match enginePlace s core ctx va with
      | .ok _ => none
      | .error c => some (errFault, some (c, va))
    else
      match engineXlat s core ctx va with
      | .error c => some (errFault, some (c, va))
      | .ok _ => if tileState s ctx va == .failed then some (errFault, some (causeReadOnly, va)) else none

/-- The 32 bytes at a source that can be read, and whether they had an uncorrectable error (R337). -/
def readEnd (s : State) (core ctx : Nat) (who : TileUser) : End → List Byte × Bool
  | .loc a =>
    let r := engineRead s core a 32
    if r.2 then (List.replicate 32 0, true) else r
  | .glob va => match engineXlat s core ctx va with
    | .ok x => readFor s ctx va (x.phys va) 32 who
    | .error _ => (List.replicate 32 0, false)
  | _ => (List.replicate 32 0, false)

/-- R456: whether a write to an end must wait for a reserved chunk. -/
def endHeld (s : State) (core ctx : Nat) : End → Bool
  | .loc a => localHeld s core [(a, 32)]
  | .glob va => globalHeld s core ctx [(va, [])]
  | .away dst .. => !mayLeave s dst 0x12
  | _ => false

/-- R180, R181: whether a request that left the engine's die before is still on the path to an end. -/
def endBehind (s : State) (core ctx : Nat) : End → Bool
  | .glob va => match engineXlat s core ctx va with
    | .ok x => pathBusy s core s.serial (x.phys va)
    | .error _ => false
  | _ => false

/-- R335: a read of a line by an engine finds or brings it into the L2 (R229, R231). -/
def touchEnd (core ctx : Nat) (s : State) : End → State
  | .glob va => match engineXlat s core ctx va with
    | .ok x => touchL2 s (lineOf (x.phys va)) false
    | .error _ => s
  | _ => s

/-- 32 bytes written to an end (R335, R451). A sector for another package's slot is sent, and lands when that package has answered (R334). -/
def writeEnd (core ctx : Nat) (i : Inst) (sec err : Nat) (bs : List Byte) (s : State) : End → State
  | .loc a => pointLocal 0 core a bs s
  | .glob va => match enginePlace s core ctx va with
    | .ok x => enginePut va bs x s
    | .error _ => s
  | .away dst lkey slot off =>
    onEngine core (fun e => { e with running := e.running.map fun x => if x.id == i.id then { x with away := (sec, err, false, 0) :: x.away } else x })
      (sendSlotData ctx { core := core, op := i.id, sector := some sec, dst := dst, lkey := lkey, slot := slot, off := off, grp := i.grp, crew := i.crew, pc := 0 } s (off, bs))
  | _ => s

/-- R334, R337: a sector counted as landed with its error bits; an engine error is reported once. -/
def landSector (core n err : Nat) (rep : Option (Nat × Nat)) (i : Inst) (s : State) : State :=
  let tell := rep.isSome && !i.told
  let s := onEngine core (fun e => { e with running := e.running.map fun x =>
    if x.id == i.id then { x with left := x.left.filter fun m => m != n, told := x.told || tell, err := if recBar x.recd then x.err else x.err ||| err } else x }) s
  let s := match rep with
    | some (c, a) => if tell then reportEngine core i.crew 4 5 c a i.index s else s
    | none => s
  if recBar i.recd then instUpdate core i (fun b => (({ b with err := b.err ||| err }).addSec (-1)).advance) s else s

/-- R335, R438: what a read of global memory asks of a tile: a dropped one is recomputed, one with an uncorrectable error dropped first. -/
def tileWait (core ctx : Nat) (who : TileUser) (e : End) (s : State) : Option State :=
  match e with
  | .glob va =>
    match tileAt s ctx va, engineXlat s core ctx va with
    | some (c, r, t), .ok x =>
      if t.state == .sealed && s.badSec.contains (x.phys va / 32) then some (noteMiss c r core 0 (some who) (dropTile c r s))
      else if t.waitsFor who then some (noteMiss c r core 0 (some who) s) else none
    | _, _ => none
  | _ => none

/-- The global addresses of an end. -/
def End.globals : End → List Nat
  | .glob va => [va]
  | _ => []

/-- Whether a sector lands somewhere else than in this package. -/
def End.isAway : End → Bool
  | .away .. => true
  | _ => false

/-- Whether the update of a sector's barrier must wait for a reserved chunk (R456). -/
def barWaits (s : State) (core : Nat) (i : Inst) : Bool := recBar i.recd && barrierHeld s 0 core (recBaddr i.recd)

/-- R337: a sector that meets an error, or lands nowhere. An index word with an uncorrectable error adds poison. -/
def failSector (core ctx n : Nat) (vas : List Nat) (e : Nat × Option (Nat × Nat)) (i : Inst) (s : State) : Res :=
  if barWaits s core i then .next s
  else .next (forgetFails core ctx vas (landSector core n (e.1 ||| (if indexBad i n then errPoison else 0)) e.2 i s))

/-- R337: the error of a sector's ends: a slot that a forced drain discarded is tested first. -/
def endsError (s : State) (core ctx : Nat) (src dst : End) : Option (Nat × Option (Nat × Nat)) :=
  if src == .gone || dst == .gone then some (errCancel, none)
  else (endError s core ctx false src).orElse fun _ => endError s core ctx true dst

/-- R247: whether the destination of a sector is a sector that a queued or running matrix command has still to read. -/
def drainReadsEnd (s : State) (core : Nat) : End → Bool
  | .loc a => ((s.core core).mat.queue ++ (s.core core).mat.run.map Prod.snd).any fun m => m.reads.contains (a / 32)
  | _ => false

/-- The 32-byte sector of local memory at an end. -/
def End.sectors : End → List Nat
  | .loc a => [a / 32]
  | _ => []

/-- R170, R207: the requests of a sector of local memory, one for each of its two rows. -/
def sectorRows (sectors : List Nat) : List Nat := sectors.flatMap fun x => [2 * x, 2 * x + 1]

/-- A sector whose translations have come: it is read and written, or meets its error. -/
def moveSector (core ctx n : Nat) (src dst : End) (i : Inst) (s : State) : Res :=
  let vas := src.globals ++ dst.globals
  match endsError s core ctx src dst with
  | some e => failSector core ctx n vas e i s
  | none =>
    match tileWait core ctx (.engine core i.id) src s with
    | some t => .next t
    | none =>
      let local' := src.sectors ++ dst.sectors
      if banksRefuse (s.core core) local' || drainReadsEnd s core dst || endBehind s core ctx src || endBehind s core ctx dst || endHeld s core ctx dst || barWaits s core i then .next s
      else
        let (bs, bad) := readEnd s core ctx (.engine core i.id) src
        let err := if bad || indexBad i n then errPoison else 0
        let s := writeEnd core ctx i n err bs (touchEnd core ctx (enterBanks core (sectorRows local') s) src) dst
        .next (if dst.isAway then s else landSector core n err none i s)

/-- SECTOR_LAND. -/
def execSectorLand (core inst sec : Nat) (s : State) : Res :=
  match (s.core core).eng.running.find? fun i => i.id == inst with
  | none => .next s
  | some i =>
    if !i.left.contains sec then .next s
    else
      let ctx := (s.crew i.crew).ctx
      match i.away.find? fun a => a.1 == sec with
      | some (_, _, false, _) => .next s
      | some (_, e, true, c) => failSector core ctx sec [] (e, if c = 0 then none else some (c, 64 * i.index)) i s
      | none =>
        let (i, s) := withIndex core i sec s
        let (src, dst) := secEnds s i sec
        match engineReady core ctx (src.globals ++ dst.globals) s with
        | (t, false) => .next t
        | (t, true) => moveSector core ctx sec src dst i t

/-! ### Completion (R333, R334, R336) -/

/-- Whether an instance has nothing left to do. -/
def instDone (s : State) (core : Nat) (i : Inst) : Bool :=
  i.bad ||
  (match recKind i.recd with
   | 4 => i.sent && !((s.core core).mat.queue ++ (s.core core).mat.run.map Prod.snd).any fun c => c.id == i.id
   | 5 => decide ((s.core core).launches.length < 4)
   | _ => i.left.isEmpty)

/-- R330: the launch of an instance entered. -/
def recLaunch (core : Nat) (i : Inst) (s : State) : State :=
  let g := s.grp i.grp
  match poolEntry s g (recField i.recd 128 20) with
  | .error _ => s
  | .ok e =>
    let plan := crewPlan s i.crew
    let pri := if recField i.recd 151 1 = 1 then recField i.recd 148 3 else match findT s.plans plan with | some p => p.pri | none => 0
    enterLaunch core { ctx := (s.crew i.crew).ctx, addr := e.base, pri := pri, parent := plan, org := originOf s plan, since := s.now } s

/-- The arrival of an instance at its barrier, with the error bits it still has to set (R334, R336). -/
def instArrival (core : Nat) (i : Inst) (s : State) : State :=
  if recArr i.recd || (recBar i.recd && i.err != 0) then
    instUpdate core i (fun b =>
      let b := { b with err := b.err ||| i.err }
      (if recArr i.recd then b.arrive 1 else b).advance) s
  else s

/-- R333: the arrivals of an instance's successors, while the instance still stands. -/
def sendArrivals (core : Nat) (i : Inst) (s : State) : State :=
  (recSucc i.recd).foldl (fun s n => arrival core { crew := i.crew, index := n, grp := i.grp, fmt := i.fmt, kick := none } (some i) s) s

/-- An instance removed, with its record's copy where it is not to be cached (R331). -/
def removeInst (core : Nat) (i : Inst) (s : State) : State :=
  onEngine core (fun e => { e with
    running := e.running.filter fun x => x.id != i.id
    cache := if recNoCache i.recd then e.cache.filter fun r => !(r.crew == i.crew && r.index == i.index) else e.cache }) s

/-- R333: a held arrival taken up, unless its record has an instance again. -/
def takeHeld (core : Nat) (s : State) (h : HeldArrival) : State :=
  let e := (s.core core).eng
  if (e.waiting ++ e.running).any fun x => x.crew == h.crew && x.index == h.index then onEngine core (fun e => { e with held := e.held ++ [h] }) s
  else arrival core h none s

/-- R333: the arrivals held for a record's entry: the first makes the next instance. -/
def resumeHeld (core crew n : Nat) (s : State) : State :=
  let hs := (s.core core).eng.held.filter fun h => h.isFor crew n
  hs.foldl (takeHeld core) (onEngine core (fun e => { e with held := e.held.filter fun h => !h.isFor crew n }) s)

/-- An instance completed (R333, R334): its barrier, its successors, then the arrivals held for its own record. -/
def completeInst (core : Nat) (i : Inst) (s : State) : State :=
  let s := if recKind i.recd = 5 && !i.bad then recLaunch core i s else s
  resumeHeld core i.crew i.index (removeInst core i (sendArrivals core i (instArrival core i s)))

/-- INSTANCE_COMPLETE. A command that found the queue full tries again. -/
def execInstanceComplete (core inst : Nat) (s : State) : Res :=
  match (s.core core).eng.running.find? fun i => i.id == inst with
  | none => .next s
  | some i =>
    if recKind i.recd = 4 && !i.sent && !i.bad then .next (sendCommand core i s)
    else if !instDone s core i then .next s
    else if (recArr i.recd || recBar i.recd) && barrierHeld s 0 core (recBaddr i.recd) then .next s
    else .next (completeInst core i s)

end Sys2Proof.Machine
end

