-- ==== Sys2Proof/Machine/Csr.lean ====
section
/-! DEFINITION. The control registers of a group: fmt (R77 to R79, R135), and those CSRR and CSRW address (R107 to R109, R136). -/
namespace Sys2Proof.Machine

/-- R79: the values fmt may hold. -/
def fmtLegal (w : Word) : Bool :=
  decide (fmtA w ≤ 6) && decide (fmtB w ≤ 6) && fmtAcc w != 3 && decide (fmtRound w ≤ 4) && w.extractLsb' 14 2 != 3 && !w.getLsbD 7

/-- The fmt after SETFMT: its reserved bits [6:0] read as zero (R77). -/
def fmtKept (w : Word) : Word := w &&& 0xFFFFFF80

/-- R79, R135. -/
def execSetfmt (g : Guard) (a : Reg) (s : State) : Res :=
  groupOp (.setfmt g a) (fun u S s =>
    let G := s.me
    if fmtLegal (G.uval a) then .next (retire u S [] (s.setMe { G with regs := { G.regs with fmt := fmtKept (G.uval a) } }))
    else .next (raiseAt 1 0 0 S s)) s

/-- R135. -/
def execGetfmt (g : Guard) (d : Reg) (fit : Bool) (s : State) : Res := vecOp (.getfmt g d fit) d fit (fun G _ _ => G.regs.fmt) s

/-- R107: what CSRR reads. -/
def csrValue (r : Regs) : Creg → Word
  | .fmt => r.fmt
  | .flg => r.flg
  | .lmask => r.lmask
  | .chklim => r.chklim
  | .stk => r.stk
  | .rsdepth => BitVec.ofNat 32 (stkDepth r)
  | .amask => r.amask

/-- R107, R136. -/
def execCsrr (g : Guard) (d : Reg) (n : Creg) (fit : Bool) (s : State) : Res :=
  vecOp (.csrr g d n fit) d fit (fun G _ _ => csrValue G.regs n) s

/-- R136: the new value of a control register. -/
def csrNew (op : CsrOp) (old a : Word) : Word :=
  match op with
  | .write => a
  | .set => old ||| a
  | .clear => old &&& ~~~a

/-- The bits of flg that a write reaches (R81). -/
def flgMask : Word := 0x01FF01FF

/-- R81, R108, R109: a control register written, or none where the value is not legal. -/
def csrPut (r : Regs) (n : WCreg) (op : CsrOp) (a : Word) : Option Regs :=
  match n with
  | .flg => some { r with flg := csrNew op r.flg a &&& flgMask }
  | .chklim =>
    let v := csrNew op r.chklim a &&& 0x1FFF
    if 16 ≤ v.toNat ∧ v.toNat ≤ 4096 then some { r with chklim := v } else none
  | .stk =>
    let r' := { r with stk := csrNew op r.stk a &&& 0xFFFFFFF0 }
    if 1048576 < stkBase r' + 16 * stkCap r' ∨ r.spilled ≠ 0 then none else some r'

/-- R107, R136. -/
def execCsrw (g : Guard) (n : WCreg) (a : Reg) (op : CsrOp) (s : State) : Res :=
  groupOp (.csrw g n a op) (fun u S s =>
    let G := s.me
    match csrPut G.regs n op (G.uval a) with
    | some r => .next (retire u S [] (s.setMe { G with regs := r }))
    | none => .next (raiseAt 1 0 0 S s)) s

end Sys2Proof.Machine
end

