-- ==== Sys2Proof/Machine/System.lean ====
section
/-! DEFINITION. Traps, breakpoints, the arithmetic trap, pre-emption points, sleep and performance counters (R367 to R374), and SLEEP_EXPIRE. -/
namespace Sys2Proof.Machine

/-- R57: whether the running instruction is the last of a clause with yield. -/
def Group.yieldsHere (g : Group) : Bool :=
  g.atLast && (match g.clause with | some c => c.hdr.getLsbD 35 | none => false)

/-- R406: a trap that an instruction takes as its own effect; at the end of its clause it honours yield (R57). -/
def ownTrap (u : Use) (S : Mask) (cls : Nat) (info : Word) (ret : Pc) (s : State) : State :=
  let t := takeTrap s.cur { fltAt s.me cls 0 info 0 S (lowest S) with ret := ret, yields := s.me.yieldsHere } (charge u S s)
  t.setMe (throttled t.thr t.me)

/-- R367. -/
def execTrap (g : Guard) (imm : Word) (s : State) : Res :=
  groupOp (.trap g imm) (fun u S s => .next (ownTrap u S 0x10 imm (nextClause s.me) s)) s

/-- R369: without the context's enable nothing happens, and no chunk closes. -/
def execBkpt (g : Guard) (imm : Word) (s : State) : Res :=
  groupOp (.bkpt g imm) (fun u S s =>
    if !(s.ctx s.me.place.ctx).ccb.bkpt then .next (retire u S [] s)
    else if s.me.uncommitted then .next (closeAndHold s)
    else .next (ownTrap u S 0x11 imm (nextClause s.me) s)) s

/-- R368: the top entry is popped, and the group goes on where it points (R59). -/
def execRett (s : State) : Res :=
  match prelude .rett (fun _ => 0) s with
  | .stop r => r
  | .go s S =>
    let u := useOf s.me.regs.fmt .rett
    match popEntry s.cur s with
    | none => .next (stackFault 2 S s)
    | some (e, t) =>
      if 3 < e.kind.toNat then .next (stackFault 3 S s)
      else if e.kind ≠ 3 then .next (stackFault 2 S s)
      else
        let t := t.setMe { t.me with regs := { t.me.regs with amask := e.mask, fmt := e.fmt } }
        if e.mask = 0 then finishAfter u S [] s t
        else
          let t := jumpTo u S [] e.target t
          .next (t.setMe { t.me with entry := .resume })

/-- R370: the flags that are raised and enabled. -/
def trappingFlags (flg : Word) : Word := flg.extractLsb' 0 9 &&& flg.extractLsb' 16 9 |>.zeroExtend 32

/-- R370. -/
def execTfence (g : Guard) (s : State) : Res :=
  groupOp (.tfence g) (fun u S s =>
    let G := s.me
    if G.mcmd ≠ 0 ∨ G.dlv ≠ 0 then .next (holdFor stallFence s)
    else if trappingFlags G.regs.flg = 0 then .next (retire u S [] s)
    else .next (ownTrap u S 0x12 ((G.regs.flg.extractLsb' 0 9).zeroExtend 32) (G.pc + 8) s)) s

/-! ### Names of groups and the Den's view of a save (R390) -/

/-- The Den index of a name (R386). -/
def nameIndex (n : Word64) : Nat := (n.extractLsb' 32 24).toNat

/-- The package of a name. -/
def namePkg (n : Word64) : Nat := (n.extractLsb' 56 8).toNat

/-- R390: the Den entry of a group put into a state. -/
def denState (k : Nat) (st : DenState) (s : State) : State :=
  let n := (s.grp k).place.name
  match findT s.den (nameIndex n) with
  | some e => if e.grp == k && e.state != .free then { s with den := setT s.den (nameIndex n) { e with state := st } } else s
  | none => s

/-- R371: the liveness record that a PHINT names, or the cause of the memory fault. -/
def hintOf (s : State) (G : Group) (idx : BitVec 20) (h : Option Reg) : Except Nat Nat :=
  match poolEntry s G (poolIndex G idx h) with
  | .error c => .error c
  | .ok e => if e.kind = 4 then .ok e.base else .error causePoolKind

/-- R372: the group parks with a liveness record; it goes on at the word after its PHINT. -/
def parkAt (hint : Nat) (u : Use) (S : Mask) (s : State) : State :=
  let t := retire u S [] s
  denState t.cur .moving (t.setMe { t.me with
    status := .suspended (.parked hint), clause := none, entry := if s.me.atLast then .header else .resume, last := t.now })

/-- R371, R372. In a slice it has no effect (R434). -/
def execPhint (g : Guard) (idx : BitVec 20) (h : Option Reg) (s : State) : Res :=
  groupOp (.phint g idx h) (fun u S s =>
    if s.me.place.slice.isSome then .next (retire u S [] s)
    else match hintOf s s.me idx h with
    | .error c => .next (raiseAt 5 c 0 S s)
    | .ok hint =>
      if (s.core s.me.place.core).save.isNone then .next (retire u S [] s)
      else if s.me.uncommitted then .next (closeAndHold s)
      else .next (parkAt hint u S (s.setMe { s.me with opn := none }))) s

/-! ### Sleep -/

/-- R373: the group sleeps; it goes on at the next clause. -/
def execSleep (g : Guard) (imm : Word) (dlv : Bool) (s : State) : Res :=
  groupOp (.sleep g imm dlv) (fun u S s =>
    if imm = 0 then
      let t := retire u S [] s
      .next (t.setMe { t.me with yielded := true })
    else .next (sleepPast (.sleep (s.now + imm.toNat) dlv) u S s)) s

/-- SLEEP_EXPIRE (R373). -/
def execSleepExpire (grp : Nat) (s : State) : Res :=
  let g := s.grp grp
  match g.status with
  | .suspended (.sleep till _) => .next (if till ≤ s.now then wakeNext grp s else s)
  | _ => .next s

/-! ### Counters -/

/-- R217, R218, R374: the value of a counter of a context on a core. -/
def counterOf (s : State) (ctx core code : Nat) : Nat :=
  if code = 0x200 then s.now % 2 ^ 64
  else if code ≤ 0x206 then getT 0 s.ctr (ctrKey ctx core code)
  else 0

/-- R374. -/
def execPmcr (g : Guard) (d : Reg) (code : Word) (hi fit : Bool) (s : State) : Res :=
  groupOp (.pmcr g d code hi fit) (fun u S s =>
    let v := counterOf s s.me.place.ctx s.me.place.core code.toNat
    finishWrite u d (fun _ => BitVec.ofNat 32 (if hi then v / 2 ^ 32 else v)) S fit s) s

end Sys2Proof.Machine
end

