-- ==== Sys2Proof/Machine/Image.lean ====
section
/-! DEFINITION. The record of a saved group in a core image (R418, R419): its layout, and what reaches it while the group is saved (R394,
R399). -/
namespace Sys2Proof.Machine

/-- Bytes written to a range of a context's virtual memory, 64-byte block by block, over at most `n` blocks. A block that its page refuses is not
written. -/
def putRange (ctx : Nat) : Nat → Nat → List Byte → State → State
  | 0, _, _, s => s
  | n + 1, va, bs, s =>
    if bs.isEmpty then s
    else
      let m := 64 - va % 64
      putRange ctx n (va + m) (bs.drop m) ((writeVirtual s ctx va (bs.take m)).getD s)

/-- Bytes written to a range of a context's virtual memory. -/
def putBytes (ctx va : Nat) (bs : List Byte) (s : State) : State := putRange ctx (bs.length + 1) va bs s

/-- Bytes of a context's virtual memory; a page that does not translate reads as zero. -/
def getBytes (s : State) (ctx va n : Nat) : List Byte :=
  (List.range n).map fun i => match walk s ctx (va + i) with | .ok x => readByte s.mem (x.phys (va + i)) | .error _ => 0

/-- A little-endian number of a context's virtual memory. -/
def getLE (s : State) (ctx va n : Nat) : Nat := leNat (getBytes s ctx va n)

/-- The size of a group record's header, and of the record with its register image (R419). -/
def recordHeader : Nat := 832
def recordSize (storageWords : Nat) : Nat := recordHeader + (4 * storageWords + 63) / 64 * 64

/-- R419: the byte of a register's words in the record. -/
def regOffset (sh : BitVec 256) (r : Nat) : Nat :=
  recordHeader + 4 * ((List.range r).map (regWords sh)).sum

/-- R419: the hold byte of a register. -/
def holdByte (h : HoldBits) : Nat := h.cause.toNat * 16 + b2n h.watched * 8 + b2n h.poison * 4 + b2n h.landed * 2 + b2n h.held

/-- The hold bits of a hold byte, for a hold that was armed as another. -/
def holdOfByte (armed : HoldBits) (b : Nat) : HoldBits :=
  { armed with held := bitN b 0, landed := bitN b 1, poison := bitN b 2, watched := bitN b 3, cause := BitVec.ofNat 2 (bitsN b 4 2) }

/-- R419: the four watch entries. -/
def watchBits (l : List (Reg × Word64)) : Nat :=
  l.foldr (fun w acc => w.2.toNat + w.1.toNat * 2 ^ 64 + 2 ^ 71 + 2 ^ 128 * acc) 0

/-- The watch entries read back. -/
def watchOf (x : Nat) : List (Reg × Word64) :=
  (List.range 4).filterMap fun k =>
    if bitN x (128 * k + 71) then some (BitVec.ofNat 7 (bitsN x (128 * k + 64) 7), BitVec.ofNat 64 (bitsN x (128 * k) 64)) else none

/-- R419: the header of a group's record; `saved` marks the registers whose words the save writes. -/
def recordBytes (g : Group) (saved : Nat) : List Byte :=
  let r := g.regs
  let at' := fun (byte x : Nat) => x * 2 ^ (8 * byte)
  leBytes recordHeader
    (at' 0 g.pc.toNat + at' 8 r.amask.toNat + at' 12 r.fmt.toNat + at' 16 r.flg.toNat + at' 20 r.lmask.toNat + at' 24 r.chklim.toNat
      + at' 28 r.stk.toNat + at' 32 ((List.range 7).foldr (fun p acc => (getT 0 r.p p).toNat + 2 ^ 32 * acc) 0) + at' 60 r.stack.length
      + at' 64 ((List.range 128).foldr (fun i acc => holdByte (getT {} g.holds i) + 256 * acc) 0) + at' 208 saved + at' 224 (watchBits g.watch)
      + at' 288 g.place.name.toNat + at' 320 (r.stack.foldl (fun acc e => (entryBits e).toNat + 2 ^ 128 * acc) 0))

/-- A change to the record of a group that stands in an image, at a byte of it. -/
def pokeRecord (k byte : Nat) (bs : List Byte) (s : State) : State :=
  match (s.grp k).image with
  | some va => putBytes (s.grp k).place.ctx (va + byte) bs s
  | none => s

/-- R394, R399: the hold byte and the watch entries of a saved group as they now stand. -/
def pokeHold (k : Nat) (r : Reg) (s : State) : State :=
  let g := s.grp k
  pokeRecord k 224 (leBytes 64 (watchBits g.watch)) (pokeRecord k (64 + r.toNat) (leBytes 1 (holdByte (getT {} g.holds r.toNat))) s)

/-- R394: a delivery's words in the image, and its bit in the delivered mask. -/
def pokeWords (k : Nat) (vt : Reg) (ws : List Word) (s : State) : State :=
  match (s.grp k).image with
  | none => s
  | some va =>
    let dlvd := getLE s (s.grp k).place.ctx (va + 192) 16 ||| 2 ^ vt.toNat
    pokeRecord k 192 (leBytes 16 dlvd)
      (pokeRecord k (regOffset (s.grp k).place.shape vt.toNat) (ws.flatMap fun w => leBytes 4 w.toNat) s)

/-- R380: a flag that reaches the saved flg. -/
def pokeFlags (k : Nat) (f : Word) (s : State) : State :=
  match (s.grp k).image with
  | none => s
  | some va => pokeRecord k 16 (leBytes 4 (getLE s (s.grp k).place.ctx (va + 16) 4 ||| f.toNat)) s

end Sys2Proof.Machine
end

