-- ==== Sys2Proof/Machine/Names.lean ====
section
/-! DEFINITION. Names, holds and deliveries (R354 to R361, R386 to R401): GNAME, ARM, ARMIF, HOLDQ, REGPUT, and the events of the Den. -/
namespace Sys2Proof.Machine

/-! ### The Den (R386 to R390) -/

/-- A Den entry. -/
def State.denEntry (s : State) (i : Nat) : DenEntry := getT {} s.den i

/-- A Den entry changed. -/
def onDen (i : Nat) (f : DenEntry → DenEntry) (s : State) : State := { s with den := setT s.den i (f (s.denEntry i)) }

/-- The generation of a name (R386). -/
def nameGen (n : Word64) : Word := n.extractLsb' 0 32

/-- R391: whether this package's Den finds a name stale. -/
def staleName (s : State) (n : Word64) : Bool :=
  decide (1048576 ≤ nameIndex n) || (s.denEntry (nameIndex n)).state == .free || (s.denEntry (nameIndex n)).gen != nameGen n

/-- R389: the field loc of an entry: the group's place, or the address of its record while it is SAVED or moves out of its image; of a group that was ended
there, the address its record had. -/
def denLoc (s : State) (e : DenEntry) : Nat :=
  let p := (s.grp e.grp).place
  match e.state, (s.grp e.grp).image with
  | .free, _ => 0
  | .resident, _ => p.core * 2 ^ 11 + p.lane * 2 ^ 3 + p.slot
  | _, some va => va
  | .saved, none => e.area
  | _, none => p.core * 2 ^ 11 + p.lane * 2 ^ 3 + p.slot

/-- The code of an entry's state (R389). -/
def DenState.code : DenState → BitVec 2
  | .free => 0
  | .resident => 1
  | .saved => 2
  | .moving => 3

/-- R389: the 128 bits of a Den entry. -/
def denBits (s : State) (i : Nat) : BitVec 128 :=
  let e := s.denEntry i
  e.gen ++ e.state.code ++ BitVec.ofNat 6 e.ctx ++ BitVec.ofNat 4 e.stage ++ 0#4 ++ BitVec.ofNat 8 e.fwd ++ 0#8 ++ BitVec.ofNat 64 (denLoc s e)

/-- The package-wide counters of the Den, beyond those R493 numbers: stale and shape drops, retries (R391). -/
def denStale : Nat := 0x10000
def denShape : Nat := 0x10001
def denRetry : Nat := 0x10002

/-- A package counter raised, modulo 2^64 (R479). -/
def countPkg (code n : Nat) (s : State) : State := { s with pcnt := setT s.pcnt code ((getT 0 s.pcnt code + n) % 2 ^ 64) }

/-! ### Hold bits -/

/-- The hold bits of a register written. -/
def Group.setHold (g : Group) (r : Reg) (h : HoldBits) : Group := { g with holds := setT g.holds r.toNat h }

/-- R358, R401: a group suspended on a register that is no longer held tries its instruction again. -/
def wakeHeld (k : Nat) (r : Reg) (s : State) : State :=
  if (s.grp k).status == .suspended (.held r) then wakeAt k s else s

/-- A watcher taken off the Den entry of a name of this package, or a request to another package's Den to do so (R398). -/
def unwatch (k : Nat) (r : Reg) (n : Word64) (s : State) : State :=
  if namePkg n = s.pkg.pkg then
    onDen (nameIndex n) (fun e => { e with watchers := e.watchers.filter fun w => !(w.pkg == s.pkg.pkg && w.grp == k && w.reg == r) }) s
  else
    sendFor (s.grp k).place.ctx (namePkg n) 0x0A (.watch n k r.toNat false) s

/-- R398: the watch entry of a register freed at both ends. -/
def freeWatch (k : Nat) (r : Reg) (s : State) : State :=
  match (s.grp k).watch.find? fun w => w.1 == r with
  | none => s
  | some w => unwatch k r w.2 (s.setGrp k { s.grp k with watch := (s.grp k).watch.filter fun x => x.1 != r })

/-- R358, R399, R400: a register poisoned. -/
def poisonReg (k : Nat) (r : Reg) (cause : BitVec 2) (s : State) : State :=
  let g := s.grp k
  let s := s.setGrp k ({ g with watch := g.watch.filter fun w => w.1 != r }.setHold r
    { g.holdOf r with poison := true, held := false, watched := false, cause := cause })
  wakeHeld k r (pokeHold k r s)

/-- R361, R394: a delivery's storage words written to a register, in the copies of the uncommitted chunks as well; loads issued before it
are discarded (R102, R396). -/
def landWords (vt : Reg) (ws : List Word) (g : Group) : Group :=
  let put := fun (r : Regs) => { r with v := putWords r.v vt 0 ws }
  let fix := fun (c : Chunk) => { c with ckpt := put c.ckpt }
  let g := { g with
    regs := put g.regs, opn := g.opn.map fix, clo := g.clo.map fix
    loads := g.loads.map fun (l : Load) => if (regsFrom l.dst l.nreg).contains vt then { l with newer := (vt, 0) :: l.newer } else l }
  g.setHold vt { g.holdOf vt with landed := true, held := false, poison := false, watched := false, cause := 0 }

/-- R373: a landing ends a SLEEP.dlv. -/
def wakeSleeper (k : Nat) (s : State) : State :=
  match (s.grp k).status with
  | .suspended (.sleep _ true) => wakeNext k s
  | _ => s

/-- R361, R394: a delivery lands in a group, or in its image. -/
def land (k : Nat) (vt : Reg) (ws : List Word) (s : State) : State :=
  let s := freeWatch k vt s
  let s := pokeHold k vt (pokeWords k vt ws (s.setGrp k (landWords vt ws (s.grp k))))
  wakeSleeper k (wakeHeld k vt s)

/-! ### GNAME, ARM, ARMIF, HOLDQ -/

/-- R355. -/
def execGname (g : Guard) (d : Reg) (fit : Bool) (s : State) : Res :=
  groupOp (.gname g d fit) (fun u S s =>
    match writePair s.me d (fun _ => s.me.place.name) S fit with
    | .ok G => .next (retire u S u.writes (s.setMe G))
    | .error r => .next (shapeFault r S s)) s

/-- R357: the register held, with nothing landed and no watch. -/
def holdReg (vr : Reg) (s : State) : State :=
  let s := freeWatch s.cur vr s
  s.setMe (s.me.setHold vr { held := true, landed := false, poison := false, watched := false, cause := 0, since := s.now
                             limit := 1000 * ((s.ctx s.me.place.ctx).ccb.wdog % 65536) })

/-- R357, R398: the register watched for the name's group: with a free watch entry, and a free place at a Den entry of this package. -/
def watchReg (vr : Reg) (n : Word64) (s : State) : State :=
  let G := s.me
  let linked := s.setMe ({ G with watch := G.watch ++ [(vr, n)] }.setHold vr { G.holdOf vr with watched := true })
  if 4 ≤ G.watch.length then s
  else if namePkg n = s.pkg.pkg then
    if 8 ≤ (s.denEntry (nameIndex n)).watchers.length then s
    else onDen (nameIndex n) (fun e => { e with watchers := e.watchers ++ [{ pkg := s.pkg.pkg, grp := s.cur, reg := vr }] }) linked
  else
    sendFor G.place.ctx (namePkg n) 0x0A (.watch n s.cur vr.toNat true) linked

/-- R357: whether a name is found null or stale at ARM.p. The Den of another package answers later (R398). -/
def nameGone (s : State) (n : Word64) : Bool :=
  n == nullName || !inPod s (namePkg n) || (namePkg n == s.pkg.pkg && staleName s n)

/-- R357: arm. -/
def armReg (vr : Reg) (n : Option Word64) (s : State) : State :=
  let s := holdReg vr s
  match n with
  | none => s
  | some n => if nameGone s n then poisonReg s.cur vr 1 s else watchReg vr n s

/-- R398, R470: the packages to which arming a register sends a message: that of the name it has watched, and that of the name it is to watch. -/
def armPackages (s : State) (vr : Reg) (n : Option Word64) : List Nat :=
  let old := (s.me.watch.filter fun w => w.1 == vr).map fun w => namePkg w.2
  let new := match n with | some n => if nameGone s n then [] else [namePkg n] | none => []
  ((old.take 1) ++ new).filter (· != s.pkg.pkg)

/-- R470: whether a free reservation for each of these messages is there. -/
def armMayLeave (s : State) (l : List Nat) : Bool := l.all fun p => mayLeaveAll s p 0x0A (l.count p)

/-- R357. A lane waits for the reservations of its messages (R470). -/
def execArm (g : Guard) (vr : Reg) (vn : Option Reg) (s : State) : Res :=
  groupOp (.arm g vr vn) (fun u S s =>
    let n := vn.map s.me.upair
    if !armMayLeave s (armPackages s vr n) then .next (holdFor stallSlot s) else .next (retire u S [] (armReg vr n s))) s

/-- R357. -/
def execArmif (g : Guard) (vr : Reg) (vn : Option Reg) (s : State) : Res :=
  groupOp (.armif g vr vn) (fun u S s =>
    let n := vn.map s.me.upair
    if (s.me.holdOf vr).landed then .next (retire u S [] s)
    else if !armMayLeave s (armPackages s vr n) then .next (holdFor stallSlot s)
    else .next (retire u S [] (armReg vr n s))) s

/-- R359: the word of one register. -/
def holdWord (h : HoldBits) : Word := BitVec.ofNat 32 (holdByte h)

/-- R359: the word of HOLDQ.any. -/
def anyHeld (g : Group) : Word :=
  match (List.range 128).filter fun r => (g.holdOf (BitVec.ofNat 7 r)).held with
  | [] => 0x8000
  | r :: rs => BitVec.ofNat 32 (r * 256 + (rs.length + 1))

/-- R359. -/
def execHoldq (g : Guard) (d : Reg) (vr : Option Reg) (fit : Bool) (s : State) : Res :=
  groupOp (.holdq g d vr fit) (fun u S s =>
    finishWrite u d (fun _ => match vr with | some r => holdWord (s.me.holdOf r) | none => anyHeld s.me) S fit s) s

/-! ### REGPUT -/

/-- The number of a tag in a packet (R35). -/
def tagCode : Tag → Nat
  | .u => 0
  | .a => 1
  | .g => 2

/-- The tag of a number. -/
def tagOfCode (n : Nat) : Tag := if n = 0 then .u else if n = 1 then .a else .g

/-- A delivery sent to the Den of its receiver's package: on this package's own path, or as a packet. -/
def sendDelivery (k : Nat) (d : Delivery) (s : State) : State :=
  let dst := namePkg d.name
  if dst = s.pkg.pkg then { s with dlvs := setT s.dlvs k { d with stage := .toDen } }
  else
    sendFor d.sctx dst 0x08 (.regput d.name d.vt.toNat (tagCode d.tag) d.words k d.sender)
      { s with dlvs := setT s.dlvs k { d with stage := .away } }

/-- R360. -/
def execRegput (g : Guard) (vt vn vs : Reg) (s : State) : Res :=
  groupOp (.regput g vt vn vs) (fun u S s =>
    let G := s.me
    let n := G.upair vn
    if n = nullName ∨ !inPod s (namePkg n) then .next (raiseAt 0xA 0 0 S s)
    else if 16 ≤ G.dlv then .next (holdFor stallDlv s)
    else if namePkg n ≠ s.pkg.pkg ∧ !mayLeave s (namePkg n) 0x08 then .next (holdFor stallSlot s)
    else
      let d : Delivery :=
        { name := n, vt := vt, tag := tagOf G.place.shape vs, words := storage G.place.shape G.regs.v vs
          sender := s.cur, spkg := s.pkg.pkg, score := G.place.core, sctx := G.place.ctx, back := s.serial }
      let t := sendDelivery s.serial d { s.setMe { G with dlv := G.dlv + 1 } with serial := s.serial + 1 }
      .next (retire u S [] t)) s

/-! ### The Den's handling of deliveries (R391 to R396) -/

/-- The sender of a delivery as the Den's table names it (R393). -/
def Delivery.origin (d : Delivery) : Nat := d.sender * 256 + d.spkg

/-- Whether two deliveries go from one sender to one name. -/
def sameLink (a b : Delivery) : Bool := a.name == b.name && a.origin == b.origin

/-- R393: the delivery of a sender to an entry that was refused first and has not come again. -/
def firstRefused (s : State) (d : Delivery) : Option Nat :=
  (s.refused.find? fun r => r.1 == nameIndex d.name && r.2.1 == d.origin).map fun r => r.2.2

/-- R393: whether the table of (entry, sender) pairs is full. -/
def tableFull (s : State) : Bool := decide (8192 ≤ ((s.refused.map fun r => (r.1, r.2.1)).eraseDups).length)

/-- R393, R395: whether the Den refuses a delivery that would otherwise be forwarded or written: while the entry moves, behind a refused one of the same
sender, and, with the table full, for any entry in it, unless the delivery is the first of its sender that comes again. -/
def refuses (s : State) (d : Delivery) : Bool :=
  (s.denEntry (nameIndex d.name)).state == .moving ||
  (match firstRefused s d with
   | some b => b != d.back
   | none => tableFull s && s.refused.any fun r => r.1 == nameIndex d.name)

/-- R393: a delivery that is no longer refused. -/
def forgetRefusal (d : Delivery) (s : State) : State :=
  { s with refused := s.refused.filter fun r => !(r.1 == nameIndex d.name && r.2.1 == d.origin && r.2.2 == d.back) }

/-- R393, R395: a refused delivery noted behind those of its sender that were refused before it (log 84). -/
def noteRefusal (d : Delivery) (s : State) : State :=
  if s.refused.contains (nameIndex d.name, d.origin, d.back) then s
  else { s with refused := s.refused ++ [(nameIndex d.name, d.origin, d.back)] }

/-- R466: the Den's answer to a delivery from another package, to the context that issued it. -/
def answerAway (d : Delivery) (b : Body) (s : State) : State := sendPacket d.spkg 0x09 (tenantOf s d.sctx) d.ictx d.sctx b s

/-- R393: a delivery sent back: it waits at its sender, or the sender's package is told. -/
def refuse (k : Nat) (d : Delivery) (s : State) : State :=
  let s := countPkg denRetry 1 (noteRefusal d s)
  if d.spkg = s.pkg.pkg then { s with dlvs := setT s.dlvs k { d with stage := .refused s.now } }
  else answerAway d (.denRefuse d.back) { s with dlvs := delT s.dlvs k }

/-- A delivery's outcome noted (R391). -/
def answer (k : Nat) (d : Delivery) (outcome : Nat) (s : State) : State :=
  { s with dlvs := setT s.dlvs k { d with stage := .answered outcome } }

/-- DELIVERY_ARRIVE (R391). A delivery waits while the entry's fwd, of 8 bits, has its greatest value (R389, log 85). -/
def execDeliveryArrive (k : Nat) (s : State) : Res :=
  match findT s.dlvs k with
  | none => .next s
  | some d =>
    let e := s.denEntry (nameIndex d.name)
    if d.stage ≠ .toDen ∨ (s.dlvs.any fun o => o.2.stage == .toDen && decide (o.1 < k) && sameLink o.2 d) then .next s
    else if staleName s d.name then .next (countPkg denStale 1 (answer k d 1 (forgetRefusal d s)))
    else if !hasReg (s.grp e.grp).place.shape d.vt.toNat || tagOf (s.grp e.grp).place.shape d.vt != d.tag then .next (countPkg denShape 1 (answer k d 2 (forgetRefusal d s)))
    else if refuses s d then .next (refuse k d s)
    else if 255 ≤ e.fwd then .next s
    else
      let s := forgetRefusal d s
      match e.state with
      | .resident =>
        .next { onDen (nameIndex d.name) (fun e => { e with fwd := e.fwd + 1 })
                  { s with dlvs := setT s.dlvs k { d with stage := .forwarded s.fresh } } with fresh := s.fresh + 1 }
      | _ => .next (answer k d 0 (land e.grp d.vt d.words s))

/-- DELIVERY_LAND (R361). Deliveries to one group land in the order in which they reached the Den (R395), and none while the group's STG has made a part of its
stores (R396, log 81). -/
def execDeliveryLand (k : Nat) (s : State) : Res :=
  match findT s.dlvs k with
  | none => .next s
  | some d => match d.stage with
    | .forwarded n =>
      if s.dlvs.any fun o => o.2.name == d.name && (match o.2.stage with | .forwarded m => decide (m < n) | _ => false) then .next s
      else
        let i := nameIndex d.name
        let e := s.denEntry i
        if e.gen = nameGen d.name ∧ (s.grp e.grp).regs.stored ≠ 0 then .next s
        else .next (answer k d 0 (if e.gen = nameGen d.name then onDen i (fun e => { e with fwd := e.fwd - 1 }) (land e.grp d.vt d.words s) else s))
    | _ => .next s

/-- DELIVERY_RESEND (R393): half a microsecond after the refusal, in issue order. -/
def execDeliveryResend (k : Nat) (s : State) : Res :=
  match findT s.dlvs k with
  | none => .next s
  | some d => match d.stage with
    | .refused since =>
      let earlier := s.dlvs.any fun o =>
        decide (o.1 < k) && sameLink o.2 d && (match o.2.stage with | .refused _ => true | _ => false)
      if earlier ∨ s.now < since + 500 then .next s else .next (sendDelivery k d s)
    | _ => .next s

/-- R360, R391: the outcome as the sender meets it. -/
def acknowledge (d : Delivery) (outcome : Nat) (s : State) : State :=
  let s := s.setGrp d.sender { s.grp d.sender with dlv := (s.grp d.sender).dlv - 1 }
  let s := if outcome = 0 then s else pokeFlags d.sender flagDlvdrop (orFlags d.sender flagDlvdrop s)
  if outcome = 1 then s.count d.sctx d.score 0x203 1 else if outcome = 2 then s.count d.sctx d.score 0x204 1 else s

/-- DELIVERY_ACK (R360). -/
def execDeliveryAck (k : Nat) (s : State) : Res :=
  match findT s.dlvs k with
  | none => .next s
  | some d => match d.stage with
    | .answered outcome =>
      let s := { s with dlvs := delT s.dlvs k }
      .next (if d.spkg = s.pkg.pkg then acknowledge d outcome s else answerAway d (.denAck d.back outcome) s)
    | _ => .next s

/-! ### The release of names (R388, R399) -/

/-- R399: whether a watcher's group is on its way into or out of an image. -/
def watcherMoving (s : State) (w : Watcher) : Bool :=
  w.pkg == s.pkg.pkg && (let n := (s.grp w.grp).place.name
    n != nullName && (s.denEntry (nameIndex n)).grp == w.grp && (s.denEntry (nameIndex n)).state == .moving)

/-- R399: one watcher poisoned, here or on its package. -/
def poisonWatcher (ctx : Nat) (name : Word64) (cause : BitVec 2) (s : State) (w : Watcher) : State :=
  if w.pkg = s.pkg.pkg then poisonReg w.grp w.reg cause s
  else sendFor ctx w.pkg 0x0A (.poison name w.grp w.reg.toNat cause.toNat) s

/-- NAME_RELEASE (R388). The watchers are poisoned, one that is moving once it has moved; then the name is free (R399). -/
def execNameRelease (idx : Nat) (s : State) : Res :=
  match findT s.den idx with
  | none => .next s
  | some e => match e.ending with
    | none => .next s
    | some cause =>
      if (s.grp e.grp).dlv ≠ 0 then .next s
      else
        let name := BitVec.ofNat 64 (s.pkg.pkg * 2 ^ 56 + idx * 2 ^ 32 + e.gen.toNat)
        let moving := e.watchers.filter (watcherMoving s)
        let s := (e.watchers.filter fun w => !watcherMoving s w).foldl (poisonWatcher e.ctx name cause) s
        if !moving.isEmpty then .next (onDen idx (fun e => { e with watchers := moving }) s)
        else .next { s with den := setT s.den idx { gen := e.gen + 1 }, denFree := s.denFree ++ [idx], refused := s.refused.filter fun r => r.1 != idx }

/-- R400, R405: the unwatched holds of a group that have stood for the time that was set when they were armed. -/
def staleHolds (s : State) (g : Group) : List Nat :=
  if !g.live then []
  else (g.holds.filter fun h => h.2.held && !h.2.watched && h.2.limit != 0 && decide (h.2.since + h.2.limit ≤ s.now)).map Prod.fst

/-- HOLD_WATCHDOG (R400). -/
def execHoldWatchdog (s : State) : Res :=
  .next (s.groups.foldl (fun s e =>
    (staleHolds s (s.grp e.1)).foldl (fun s r => poisonReg e.1 (BitVec.ofNat 7 r) 3 s) s) s)

end Sys2Proof.Machine
end

