-- ==== Sys2Proof/Machine/Recipes.lean ====
section
/-! DEFINITION. Recipe instructions (R375 to R379) and the life of recipe tiles (R423 to R439): RECOMPUTE_START, RECOMPUTE_COMPLETE,
RECOMPUTE_FAIL, SEALED_TILE_ERROR. -/
namespace Sys2Proof.Machine

/-! ### Operand checks (R375) -/

/-- A recipe fault (R403). -/
def recipeFault (cause : Nat) (S : Mask) (s : State) : Res := .next (raiseAt 0xC cause 0 S s)

/-- R375: a tile address. -/
def tileAddrOk (va : Nat) : Bool := va % 4096 == 0

/-- R375: a tile size. -/
def tileSizeOk (n : Nat) : Bool := n % 4096 == 0 && decide (4096 ≤ n) && decide (n ≤ 65536)

/-- R375: a tile. -/
def TileRef.ok (t : TileRef) : Bool := tileAddrOk t.va && tileSizeOk t.size

/-- Whether two tiles overlap. -/
def TileRef.meets (a b : TileRef) : Bool := decide (a.va < b.va + b.size) && decide (b.va < a.va + a.size)

/-- R375, R165: the first address of some tiles, page by page of 4 KiB, that does not translate, with the cause of R404. -/
def tileMiss (s : State) (ctx : Nat) (ts : List TileRef) : Option (Nat × Nat) :=
  (ts.flatMap fun t => (List.range (t.size / 4096)).map (t.va + 4096 * ·)).findSome? fun va =>
    if 2 ^ 57 ≤ va then some (causeNonCanonical, va)
    else match walk s ctx va with | .ok _ => none | .error c => some (c, va)

/-- R376: whether a tile lies wholly on droppable pages. -/
def droppable (s : State) (ctx : Nat) (t : TileRef) : Bool :=
  (List.range (t.size / 4096)).all fun i => match walk s ctx (t.va + 4096 * i) with | .ok x => x.drop | .error _ => false

/-- A tile operation between its operand checks and its effect: a breach of R375, then a missing translation. -/
def withTiles (ts : List TileRef) (S : Mask) (s : State) (k : Res) : Res :=
  if !ts.all TileRef.ok then recipeFault 1 S s
  else match tileMiss s s.me.place.ctx ts with
  | some (c, va) => .next (raise (fltAt s.me 5 c 0 va S (lowest S)) s)
  | none => k

/-! ### The quota (R423, R424) -/

/-- R424: whether an access that has waited for a tile's recomputation has still to complete. -/
def TileUser.going (s : State) : TileUser → Bool
  | .load k id => (s.grp k).loads.any fun l => l.id == id
  | .store k id => (s.grp k).stores.any fun x => x.id == id
  | .group k pc => (s.grp k).live && (s.grp k).status == .issuing && (s.grp k).pc == pc
  | .engine core inst => (s.core core).eng.running.any fun i => i.id == inst && !i.left.isEmpty
  | .remote src seq => (s.parked.any fun p => p.src == src && p.seq == seq) || s.outbox.any fun e => e.1 == loopPort && e.2.src == src && e.2.seq == seq
  | .window id => s.reads.any fun r => r.id == id

/-- R424: whether a tile is in use. -/
def inUse (s : State) (ctx : Nat) (e : Recipe) : Bool :=
  e.state == .recomputing ||
  ((s.ctx ctx).recipes.any fun r => r.2.state == .recomputing && r.2.src.contains e.tgt) ||
  e.users.any fun u => u.going s

/-- R423: the residency list: the sealed tiles of a context. -/
def residency (c : Context) : List (Nat × Recipe) := c.recipes.filter fun e => e.2.state == .sealed

/-- The entry with the oldest seal time. -/
def oldest : List (Nat × Recipe) → Option (Nat × Recipe)
  | [] => none
  | e :: es => match oldest es with
    | none => some e
    | some b => if b.2.stime < e.2.stime then some b else some e

/-- R423: tiles dropped until the list is within the quota, over at most `n` of them. -/
def quotaDrop (ctx : Nat) : Nat → State → State
  | 0, s => s
  | n + 1, s =>
    let c := s.ctx ctx
    let l := residency c
    if c.quota = 0 ∨ l.length ≤ c.quota then s
    else match oldest (l.filter fun e => !e.2.pins && !inUse s ctx e.2) with
    | none => s
    | some e => quotaDrop ctx n (dropTile ctx e.1 s)

/-- R423: what follows a seal event. -/
def afterSeal (ctx : Nat) (s : State) : State := quotaDrop ctx (s.ctx ctx).recipes.length s

/-! ### Sealing (R377, R432) -/

/-- Whether a line of a range carries an uncorrectable error. -/
def linesBad (s : State) (lines : List Nat) : Bool := s.badSec.any fun b => lines.contains (b / 4)

/-- R432, R439: a tile sealed, its lines filled; one that meets an uncorrectable error or a set without a free way, or whose recomputed bytes have bypassed the
L2, is dropped at once. -/
def sealTile (ctx key : Nat) (s : State) : State :=
  let c := s.ctx ctx
  match findT c.recipes key with
  | none => s
  | some e =>
    let lines := vaLines s ctx e.tgt.va e.tgt.size
    let t := s.setCtx ctx { c with stime := c.stime + 1
                                   recipes := setT c.recipes key { e with state := .sealed, stime := c.stime + 1, wants := [] } }
    let t := lines.foldl (fun t l => touchL2 t l false) t
    let gone := match findT (t.ctx ctx).recipes key with | some x => x.state != .sealed | none => true
    let lost := linesBad s lines || e.byp || gone || lines.any fun l => (findT t.l2 l).isNone
    if lost then dropTile ctx key t else t

/-- The tile that RSEAL and RDROP name by its address alone: of the size its record gives, or, without a record, its first page of 4 KiB. -/
def tileOf (s : State) (ctx va : Nat) : TileRef :=
  match (s.ctx ctx).recipes.find? fun e => e.2.tgt.va == va with
  | some (_, e) => e.tgt
  | none => ⟨va, 4096⟩

/-- R377. -/
def execRseal (g : Guard) (vt : Reg) (s : State) : Res :=
  groupOp (.rseal g vt) (fun u S s =>
    let ctx := s.me.place.ctx
    let va := (s.me.upair vt).toNat
    if !tileAddrOk va then recipeFault 1 S s
    else withTiles [tileOf s ctx va] S s
      (match (s.ctx ctx).recipes.find? fun e => e.2.tgt.va == va && e.2.state != .none && e.2.state != .pinned with
      | none => recipeFault 2 S s
      | some (k, e) =>
        if e.state ≠ .unsealed then recipeFault 2 S s
        else .next (retire u S [] (afterSeal ctx (sealTile ctx k s))))) s

/-- R378. A pinned tile is not dropped; one dropped or being recomputed stays as it is (R380). -/
def execRdrop (g : Guard) (vt : Reg) (s : State) : Res :=
  groupOp (.rdrop g vt) (fun u S s =>
    let ctx := s.me.place.ctx
    let va := (s.me.upair vt).toNat
    if !tileAddrOk va then recipeFault 1 S s
    else withTiles [tileOf s ctx va] S s
      (match (s.ctx ctx).recipes.find? fun e => e.2.tgt.va == va with
      | none => recipeFault 2 S s
      | some (k, e) =>
        if e.pins then .next (retire u S [] s)
        else if e.state == .sealed then .next (retire u S [] (dropTile ctx k s))
        else if e.state.refusesWrites then .next (retire u S [] s)
        else recipeFault 2 S s)) s

/-! ### Pins (R379, R439) -/

/-- R230, R439: a line brought in for a pin; one whose set is all pinned stays absent and is counted. -/
def pinLine (s : State) (line : Nat) : State := if bypasses s line then countPkg 5 1 s else touchL2 s line false

/-- The lines of a tile brought in for a pin. -/
def pinLines (ctx : Nat) (t : TileRef) (s : State) : State := (vaLines s ctx t.va t.size).foldl pinLine s

/-- The record of a tile, made if there is none. -/
def ensureRecord (ctx : Nat) (t : TileRef) (s : State) : Nat × State :=
  let c := s.ctx ctx
  match recordOf c t with
  | some (k, _) => (k, s)
  | none => (s.serial, { s.setCtx ctx { c with recipes := setT c.recipes s.serial { tgt := t } } with serial := s.serial + 1 })

/-- R379: one more pin on a tile. -/
def addPin (ctx : Nat) (t : TileRef) (s : State) : State :=
  let (k, s) := ensureRecord ctx t s
  pinLines ctx t (onRecipe ctx k (fun e =>
    { e with pinc := e.pinc + 1, state := if e.state == .none then .pinned else e.state }) s)

/-- R379: a tile operand of RPIN and RUNPIN. -/
def pinOperand (G : Group) (vt vz : Reg) : TileRef := ⟨(G.upair vt).toNat, (G.uval vz).toNat⟩

/-- R379. -/
def execRpin (g : Guard) (vt vz : Reg) (s : State) : Res :=
  groupOp (.rpin g vt vz) (fun u S s =>
    let ctx := s.me.place.ctx
    let t := pinOperand s.me vt vz
    withTiles [t] S s
      (match recordOf (s.ctx ctx) t with
      | none =>
        if (s.ctx ctx).recipes.any fun e => e.2.tgt.meets t then recipeFault 2 S s
        else .next (retire u S [] (addPin ctx t s))
      | some (k, e) =>
        if 255 ≤ e.pinc then recipeFault 3 S s
        else if e.state == .failed && !e.users.contains (.group s.cur s.me.pc) then .next (raise (fltAt s.me e.fault.1 e.fault.2 e.finfo t.va S (lowest S)) s)
        else if e.state == .dropped || e.state == .recomputing then
          if e.waitsFor (.group s.cur s.me.pc) then
            .next (holdFor stallFence (noteMiss ctx k s.me.place.core (missLevel s.me) (some (.group s.cur s.me.pc)) s))
          else .next (retire u S [] (dropUser (.group s.cur s.me.pc) (addPin ctx t s)))
        else .next (retire u S [] (dropUser (.group s.cur s.me.pc) (addPin ctx t s))))) s

/-- R379, R430: a pin and the refusal pin given up. -/
def Recipe.unpin (e : Recipe) : Recipe :=
  let n := e.pinc - 1
  { e with pinc := n, rpin := false
           state := if e.state == .refused || e.state == .pinned then (if n = 0 then .none else .pinned) else e.state }

/-- R379. -/
def execRunpin (g : Guard) (vt vz : Reg) (s : State) : Res :=
  groupOp (.runpin g vt vz) (fun u S s =>
    let ctx := s.me.place.ctx
    let t := pinOperand s.me vt vz
    withTiles [t] S s
      (match recordOf (s.ctx ctx) t with
      | none => .next (retire u S [] s)
      | some (k, _) => .next (retire u S [] (tidy ctx (onRecipe ctx k Recipe.unpin s))))) s

/-! ### RCPDEF (R376, R431) -/

/-- R376: the descriptor block of `n` sources. -/
structure Block where
  tgt : TileRef
  zero : Word
  src : List TileRef
deriving DecidableEq, Repr

/-- The registers of a descriptor block. -/
def blockRegs (vb : Reg) (n : Nat) : List Reg := regsFrom vb (4 + 3 * n)

/-- R376: the descriptor block read. -/
def readBlock (G : Group) (vb : Reg) (n : Nat) : Block :=
  let pair := fun i => (G.uval (regAt vb (i + 1)) ++ G.uval (regAt vb i)).toNat
  { tgt := ⟨pair 0, (G.uval (regAt vb 2)).toNat⟩, zero := G.uval (regAt vb 3)
    src := (List.range n).map fun k => ⟨pair (4 + 3 * k), (G.uval (regAt vb (6 + 3 * k))).toNat⟩ }

/-- R376: the depth of a source: 0 without a recipe or with a refused one. -/
def tileDepth (c : Context) (t : TileRef) : Nat := match recordOf c t with | some (_, e) => e.depth | none => 0

/-- R376: the depth of a new recipe. -/
def newDepth (c : Context) (src : List TileRef) : Nat := 1 + (src.map (tileDepth c)).foldl max 0

/-- R429: the records of a recipe table. -/
def recipeRoom : Nat := 262144

/-- R429: whether the table has no room for the records of some tiles. -/
def recipesFull (c : Context) (ts : List TileRef) : Bool :=
  decide (recipeRoom < c.recipes.length + (ts.eraseDups.filter fun t => (recordOf c t).isNone).length)

/-- R431: whether a recipe would give a source more references than its record counts. Those of the recipe that is replaced are given up first. -/
def refsFull (c : Context) (b : Block) : Bool :=
  let old := match recordOf c b.tgt with | some (_, e) => e.src | none => []
  b.src.any fun t => match recordOf c t with
    | some (_, e) => decide (65535 < e.refc - (old.filter (· == t)).length + (b.src.filter (· == t)).length)
    | none => false

/-- R376: the breaches of cause 0x02 by the block itself. -/
def blockBad (s : State) (ctx : Nat) (b : Block) : Bool :=
  let c := s.ctx ctx
  let sealed := match recordOf c b.tgt with | some (_, e) => e.state.refusesWrites | none => false
  let refc := match recordOf c b.tgt with | some (_, e) => e.refc | none => 0
  b.zero != 0 || !droppable s ctx b.tgt || (b.src.any fun t => t.meets b.tgt) || sealed ||
  (decide (0 < refc) && decide (tileDepth c b.tgt < newDepth c b.src)) ||
  (c.recipes.any fun e => e.2.tgt != b.tgt && e.2.tgt.meets b.tgt)

/-- R430: whether RCPDEF writes every byte of its target as zero: that of a failed tile, and with a new recipe of a refused one. -/
def clears (c : Context) (t : TileRef) (accepted : Bool) : Bool :=
  match recordOf c t with
  | some (_, e) => e.state == .failed || (accepted && e.state == .refused)
  | none => false

/-- R456: whether the writes of a cleared target must wait for a reserved chunk. -/
def clearHeld (s : State) (ctx : Nat) (t : TileRef) (accepted : Bool) : Bool :=
  clears (s.ctx ctx) t accepted && heldByReserved s s.cur none ((vaLines s ctx t.va t.size).map Key.glob) s.me.place.core []

/-- R430: every byte of a tile written as zero. -/
def clearTile (ctx : Nat) (t : TileRef) (s : State) : State :=
  (vaLines s ctx t.va t.size).foldl (fun s l => pointGlobal 0 (128 * l) (List.replicate 128 0) s) s

/-- R430: what of a target's old recipe is undone by RCPDEF: an unsealed recipe gives up its references; the bytes of a failed tile, and with
a new recipe those of a refused one, become zero. -/
def undoRecipe (ctx : Nat) (t : TileRef) (accepted : Bool) (s : State) : State :=
  match recordOf (s.ctx ctx) t with
  | none => s
  | some (k, e) =>
    let z := clears (s.ctx ctx) t accepted
    let s := if e.state == .unsealed || e.state == .failed then dropRefs ctx k s else s
    if z then clearTile ctx t s else s

/-- A record of a context changed, or made where there was none. -/
def putRecipe (ctx key : Nat) (f : Recipe → Recipe) (s : State) : State :=
  let c := s.ctx ctx
  s.setCtx ctx { c with recipes := setT c.recipes key (f (getT {} c.recipes key)) }

/-- R376: a refused recipe. -/
def refuseRecipe (ctx : Nat) (t : TileRef) (s : State) : State :=
  let s := undoRecipe ctx t false s
  let (k, s) := ensureRecord ctx t s
  pinLines ctx t (putRecipe ctx k (fun e => { e with tgt := t, state := .refused, rpin := true, depth := 0, src := [] }) s)

/-- R376: a recipe attached. -/
def attachRecipe (ctx : Nat) (b : Block) (slice : Nat) (arg : Word) (core d : Nat) (pool : Nat × Nat) (s : State) : State :=
  let s := undoRecipe ctx b.tgt true s
  let (k, s) := ensureRecord ctx b.tgt s
  let s := b.src.foldl (addRef ctx) s
  let s := b.src.foldl (fun s t => if tileDepth (s.ctx ctx) t = 0 then pinLines ctx t s else s) s
  putRecipe ctx k (fun e =>
    { e with tgt := b.tgt, state := .unsealed, slice := slice, arg := arg, src := b.src, depth := d, ocore := core, rpin := false
             fault := (0, 0), finfo := 0, again := false, pool := pool, waits := [], users := [], kept := [], wants := [], byp := false }) s

/-- R376. -/
def execRcpdef (g : Guard) (d vh vb : Reg) (idx : BitVec 20) (fit : Bool) (s : State) : Res :=
  groupOp (.rcpdef g d vh vb idx fit) (fun u S s =>
    let G := s.me
    let ctx := G.place.ctx
    match poolEntry s G idx.toNat with
    | .error c => .next (raiseAt 5 c 0 S s)
    | .ok e =>
      if e.kind ≠ 5 then .next (raiseAt 5 causePoolKind 0 S s)
      else if 128 < vb.toNat + 4 + 3 * e.extent then .next (raiseAt 1 0 0 S s)
      else if !(blockRegs vb e.extent).all fun r => tagOf G.place.shape r == .u then .next (raiseAt 1 0 0 S s)
      else match obstacle { reads := blockRegs vb e.extent } G with
      | some o => .next (meetObstacle o S s)
      | none =>
        let b := readBlock G vb e.extent
        withTiles (b.tgt :: b.src) S s
          (if 4 < e.extent || blockBad s ctx b then recipeFault 2 S s
          else
            let n := newDepth (s.ctx ctx) b.src
            if recipesFull (s.ctx ctx) (if 4 < n then [b.tgt] else b.tgt :: b.src) || (decide (n ≤ 4) && refsFull (s.ctx ctx) b) then recipeFault 2 S s
            else if clearHeld s ctx b.tgt (decide (n ≤ 4)) then .next (holdFor stallChunk s)
            else if 4 < n then
              finishWrite u d (fun _ => BitVec.ofNat 32 (2 ^ 31 + n)) S fit ((refuseRecipe ctx b.tgt s).countMe 0x206 1)
            else
              finishWrite u d (fun _ => BitVec.ofNat 32 n) S fit
                (attachRecipe ctx b e.base (G.uval vh) G.place.core n ((poolOf s G).getD (0, 0)) s))) s

/-! ### Recomputation (R425, R426, R433 to R435, R438) -/

/-- The slice group that runs at a level of a core. -/
def sliceOn (s : State) (core level : Nat) : Option (Nat × Group) :=
  s.groups.find? fun e => e.2.live && e.2.place.core == core && (match e.2.place.slice with | some sl => sl.level == level | none => false)

/-- Whether a shape map holds the code 0b11 (R36). -/
def shapeBad (sh : BitVec 256) : Bool := (List.range 128).any fun r => sh.extractLsb' (2 * r) 2 == 3

/-- R44: a slice header: its shape map and the address of its entry, or the fault it makes the slice fail with. -/
def sliceHeader (s : State) (ctx va : Nat) : Except (Nat × Nat) (BitVec 256 × Nat) :=
  match fetchWords s ctx va 8 with
  | .error e => .error (5, e.1)
  | .ok ws =>
    let h := ws.foldr (fun w acc => w.toNat + 2 ^ 64 * acc) 0
    let sh := BitVec.ofNat 256 h
    let entry := va + bitsN h 256 48
    if bitsN h 304 208 ≠ 0 ∨ shapeBad sh ∨ 2048 < shapeWords sh then .error (2, 0)
    else match fetchWord s ctx entry with
    | .error c => .error (5, c)
    | .ok w => if isHeader w then .ok (sh, entry) else .error (2, 0)

/-- R425: the values a slice starts with, register by register. -/
def sliceValues (e : Recipe) : List (Nat × Nat) :=
  [(0, e.tgt.va % 2 ^ 32), (1, e.tgt.va / 2 ^ 32), (2, e.tgt.size), (3, e.arg.toNat)] ++
  (e.src.mapIdx fun k t => [(4 + 3 * k, t.va % 2 ^ 32), (5 + 3 * k, t.va / 2 ^ 32), (6 + 3 * k, t.size)]).flatten

/-- R425: the registers a slice starts with. -/
def sliceRegs (sh : BitVec 256) (e : Recipe) : Regs :=
  { v := (sliceValues e).foldl (fun v x => (writeVec sh v (BitVec.ofNat 7 x.1) (fun _ => BitVec.ofNat 32 x.2) (BitVec.allOnes 32) true).getD v) [] }

/-- R425: the slice group of a record at a level of a core. A bad header leaves a group that has ended with its fault (R44, R435). -/
def sliceGroup (s : State) (ctx key core level : Nat) (e : Recipe) : Group :=
  let place : Place := { core := core, lane := 252 + level, slot := 65536, ctx := ctx
                         slice := some { rcp := key, level := level, va := e.tgt.va, size := e.tgt.size, npool := e.pool.1, poolVa := e.pool.2 } }
  match sliceHeader s ctx e.slice with
  | .ok (sh, entry) =>
    { live := true, place := { place with shape := sh }, regs := sliceRegs sh e, pc := BitVec.ofNat 48 entry, status := .waiting }
  | .error (cls, cause) =>
    let pc := BitVec.ofNat 48 e.slice
    { live := true, place := place, status := .ended
      pend := some { cls := cls, cause := cause, info := 0, addr := 0, fmask := 0, thr := 0, pc := pc, ret := pc } }

/-- R433, R434: a slice started: every byte of its target reads as zero, whatever a run before has left. -/
def startSlice (ctx key core level : Nat) (e : Recipe) (s : State) : State :=
  let s := zeroRange ctx e.tgt.va e.tgt.size (loseLines (vaLines s ctx e.tgt.va e.tgt.size) s)
  let s := onRecipe ctx key (fun e => { e with state := .recomputing, wants := [], again := false, byp := false }) s
  let s := s.setCore core { s.core core with used := if (s.core core).used.contains ctx then (s.core core).used else ctx :: (s.core core).used }
  { s with groups := setT s.groups s.serial (sliceGroup s ctx key core level e), serial := s.serial + 1 }

/-- RECOMPUTE_START (R433). A miss whose recompute context is busy waits. -/
def execRecomputeStart (ctx rcp core level : Nat) (s : State) : Res :=
  match findT (s.ctx ctx).recipes rcp with
  | none => .next s
  | some e =>
    if e.state ≠ .dropped ∨ !e.wants.contains (core, level) ∨ 4 ≤ level ∨ (sliceOn s core level).isSome then .next s
    else .next (startSlice ctx rcp core level e s)

/-- The loads that wait on a tile with these lines: group and load. -/
def tileLoads (s : State) (lines : List Nat) : List (Nat × Load) :=
  s.groups.flatMap fun e => (e.2.loads.filter fun l =>
    match l.src with | .global acc _ => acc.any fun a => a.awaited && lines.contains (lineOf a.pa) | _ => false).map fun l => (e.1, l)

/-- R426: the accesses of a load to a tile take their bytes as they stand. -/
def takeTile (s : State) (core : Nat) (lines : List Nat) (l : Load) : Load :=
  match l.src with
  | .global acc ev => { l with src := .global (acc.map fun a => if lines.contains (lineOf a.pa) then settleAcc s core a else a) ev }
  | _ => l

/-- Whether an access is an outstanding load. -/
def TileUser.isLoad : TileUser → Bool
  | .load .. => true
  | _ => false

/-- R426: every access that waits on a tile reads it at this moment: the loads take their bytes, and for the others the record keeps them. -/
def takeAll (ctx key : Nat) (e : Recipe) (s : State) : State :=
  let lines := vaLines s ctx e.tgt.va e.tgt.size
  let kept := if e.waits.all TileUser.isLoad then [] else lines.flatMap fun l => readHome s (128 * l) 128
  onRecipe ctx key (fun e => { e with users := e.waits, waits := [], kept := kept })
    { s with groups := mapT (fun _ g => { g with loads := g.loads.map (takeTile s g.place.core lines) }) s.groups }

/-- The slice group gone, its recompute context idle. -/
def dropSlice (k : Nat) (s : State) : State := s.setGrp k { s.grp k with live := false, pend := none }

/-- A count that stays at its greatest value (R429). -/
def satCount (n : Nat) : Nat := min (n + 1) (2 ^ 32 - 1)

/-- RECOMPUTE_COMPLETE (R426, R438, R439). -/
def execRecomputeComplete (core level : Nat) (s : State) : Res :=
  match sliceOn s core level with
  | none => .next s
  | some (k, g) => match g.place.slice with
    | none => .next s
    | some sl =>
      let ctx := g.place.ctx
      if g.status ≠ .ended ∨ g.pend.isSome then .next s
      else match findT (s.ctx ctx).recipes sl.rcp with
      | none => .next (dropSlice k s)
      | some e =>
        let s := (dropSlice k s).count ctx core 0x205 1
        if e.state ≠ .recomputing then .next s
        else
          let s := onRecipe ctx sl.rcp (fun e => { e with rcnt := satCount e.rcnt }) s
          if e.again then .next (startSlice ctx sl.rcp core level e s)
          else .next (afterSeal ctx (sealTile ctx sl.rcp (takeAll ctx sl.rcp e s)))

/-- R435: the chunks of the accesses that wait on a tile: loads, and stores whose line is still to be filled. -/
def tileChunks (s : State) (ctx : Nat) (t : TileRef) : List (Nat × Nat) :=
  let lines := vaLines s ctx t.va t.size
  ((tileLoads s lines).map fun e => (e.1, e.2.chunk)) ++
  s.groups.flatMap fun e => (e.2.stores.filter fun x => match x.kind with | .fill line _ => lines.contains line | _ => false).map fun x => (e.1, x.chunk)

/-- R435: a tile left FAILED, with the fault of the accesses that wait for it: their chunks are squashed, which does not count toward halving. -/
def failTile (ctx key : Nat) (t : TileRef) (f : Recipe → Recipe) (s : State) : State :=
  let s := onRecipe ctx key (fun e => { f e with state := .failed, wants := [], again := false, waits := [], users := [], kept := [] }) s
  ((tileChunks s ctx t).filter fun w => w.2 != 0).foldl (fun s w => squash false w.1 w.2 s) s

/-- R435: the byte offset of the failing instruction from the slice's first clause header. -/
def failOffset (e : Recipe) (pc : Pc) : Word := BitVec.ofNat 32 (pc.toNat - (e.slice + 64))

/-- RECOMPUTE_FAIL (R435). The squashes it brings do not count toward halving. -/
def execRecomputeFail (core level : Nat) (s : State) : Res :=
  match sliceOn s core level with
  | none => .next s
  | some (k, g) => match g.place.slice, g.pend with
    | some sl, some f =>
      let ctx := g.place.ctx
      if g.status ≠ .ended then .next s
      else match findT (s.ctx ctx).recipes sl.rcp with
      | none => .next (dropSlice k s)
      | some e =>
        let s := (dropSlice k s).count ctx core 0x205 1
        if e.state ≠ .recomputing then .next s
        else .next (failTile ctx sl.rcp e.tgt (fun e => { e with fault := (f.cls, f.cause), finfo := failOffset e f.pc }) s)
    | _, _ => .next s

/-- The error of a tile's line counted as one of the L2 and logged with the address of the tile's first line (R485, R486, R493). -/
def tileError (ctx : Nat) (e : Recipe) (s : State) : State :=
  logError 1 (128 * (vaLines s ctx e.tgt.va e.tgt.size).headD 0) (countPkg 0x103 1 s)

/-- R438: an uncorrectable error in a line of a tile: a sealed one is dropped, and recomputed at once where RPIN has pinned it; one that is being recomputed
will be again. -/
def hitTile (ctx rcp : Nat) (s : State) : State :=
  match findT (s.ctx ctx).recipes rcp with
  | none => s
  | some e => match e.state with
    | .sealed =>
      let s := dropTile ctx rcp s
      if 0 < e.pinc then noteMiss ctx rcp e.ocore 0 none s else s
    | .recomputing => onRecipe ctx rcp (fun e => { e with again := true }) s
    | _ => s

/-- SEALED_TILE_ERROR (R438). -/
def execSealedTileError (ctx rcp : Nat) (s : State) : Res :=
  match findT (s.ctx ctx).recipes rcp with
  | none => .next s
  | some e =>
    if e.state == .sealed || e.state == .recomputing then .next (tileError ctx e (hitTile ctx rcp s)) else .next s

/-- R430: a tile whose allocation is freed: its slice ends, its references and pins are released. -/
def freeTile (ctx key : Nat) (s : State) : State :=
  let slices := (s.groups.filter fun g => g.2.live && g.2.place.ctx == ctx && g.2.place.slice.any fun x => x.rcp == key).map Prod.fst
  freeRecipe ctx key (onRecipe ctx key (fun e => { e with pinc := 0, rpin := false, wants := [], waits := [], users := [], kept := [] }) (slices.foldl (fun s k => dropSlice k s) s))

end Sys2Proof.Machine
end

