-- ==== Sys2Proof/Machine/Remote.lean ====
section
/-! DEFINITION. Remote access (R362 to R366): RLD, RST, RATOM, RRED, and what becomes of their answers. -/
namespace Sys2Proof.Machine

/-! ### Checks (R362, R364) -/

/-- The memory causes of a remote access (R404). -/
def causeOutsidePod : Nat := 0xA
def causeNotExported : Nat := 0xB
def causeBeyondWindow : Nat := 0xC
def causeWindowRights : Nat := 0xD

/-- A thread's remote access: thread, peer value, package, target address. -/
structure RemAcc where
  t : Nat
  peer : Word
  pkg : Nat
  va : Nat
deriving DecidableEq, Repr

/-- R362, R364: one thread's access, or the cause and address of its fault. -/
def remoteLook (s : State) (g : Group) (write : Bool) (size : Nat) (vp vo : Reg) (t : Nat) : Except (Nat × Nat) RemAcc :=
  let p := g.elem vp t
  let off := (g.elem vo t).toNat
  let pkg := bitsN p.toNat 0 8
  if bitsN p.toNat 12 20 ≠ 0 ∨ !inPod s pkg then .error (causeOutsidePod, off)
  else match windowOf s g.place.ctx pkg (bitsN p.toNat 8 4) with
  | none => .error (causeNotExported, off)
  | some w =>
    let va := w.base + off
    if w.len < off + size then .error (causeBeyondWindow, va)
    else if (write && !w.wr) || (!write && !w.rd) then .error (causeWindowRights, va)
    else if va % size ≠ 0 then .error (causeMisaligned, va)
    else .ok { t := t, peer := p, pkg := pkg, va := va }

/-- The accesses of an instruction that are good, and the threads that fault with cause and address. -/
def remoteSplit (s : State) (g : Group) (write : Bool) (size : Nat) (vp vo : Reg) (S : Mask) : List RemAcc × List (Nat × Nat × Nat) :=
  let all := (threads (execSet g S)).map fun t => (t, remoteLook s g write size vp vo t)
  (all.filterMap fun e => match e.2 with | .ok a => some a | .error _ => none,
   all.filterMap fun e => match e.2 with | .error (c, a) => some (e.1, c, a) | .ok _ => none)

/-- R365: the accesses in the order of the replays: by peer value in the order of its lowest thread, then by thread. -/
def replayOrder (l : List RemAcc) : List RemAcc :=
  ((l.map RemAcc.peer).eraseDups).flatMap fun p => l.filter fun a => a.peer == p

/-- R353, R365: the lane cycles of a remote instruction: those of R103 for each replay. -/
def replayCycles (u : Use) (g : Group) (acc : List RemAcc) : Nat :=
  (((acc.map RemAcc.peer).eraseDups).map fun p =>
    laneCycles u g ((acc.filter fun a => a.peer == p).foldl (fun m a => m ||| oneThread a.t) 0)).sum

/-- The group whose remote access a packet carries. -/
def accessOf : Body → Option Nat
  | .rld grp .. => some grp
  | .rst _ _ grp _ _ => some grp
  | .ratom grp .. => some grp
  | .rred _ _ _ _ grp _ _ => some grp
  | _ => none

/-- R470: whether a packet of a group's remote access has still to leave. -/
def unsent (s : State) (k : Nat) : Bool := s.targets.any fun t => t.2.copies.any fun c => !c.numbered && accessOf c.pkt.body == some k

/-- R470: the end of a remote instruction that has made its packets. The lane waits until every one has left. -/
def afterSend (u : Use) (S : Mask) (s : State) : Res :=
  if unsent s s.cur then .next (holdFor stallSlot (charge u S (s.setMe { s.me with sending := true }))) else .next (retire u S [] s)

/-- R470: a remote instruction whose packets are made, tried again: it is complete once they have left. Its cycles have been charged. -/
def finishSend (i : Instr) (s : State) : Res :=
  let u := { useOf s.me.regs.fmt i with cost := .fixed 0 }
  if unsent s s.cur then .next (holdFor stallSlot s)
  else .next (retire u (setFor u s.me.regs) [] (s.setMe { s.me with sending := false }))

/-- A remote instruction between the check of its accesses and its end. It does not begin while a target takes no new packet (R470). -/
def withRemote (i : Instr) (write : Bool) (size : Nat) (vp vo : Reg) (kind : Nat) (k : Use → Mask → List RemAcc → State → Res) (s : State) : Res :=
  if s.me.live && s.me.sending then finishSend i s
  else groupOp i (fun u S s =>
    let G := s.me
    match remoteSplit s G write size vp vo S with
    | (_, (t, c, a) :: more) =>
      .next (raise (fltAt G 5 c 0 a ((t :: more.map Prod.fst).foldl (fun m x => m ||| oneThread x) 0) t) s)
    | (acc, []) =>
      if (acc.any fun a => !mayLeave s a.pkg kind) then .next (holdFor stallSlot s)
      else k { u with cost := .fixed (replayCycles u G (replayOrder acc)) } S (replayOrder acc) s) s

/-! ### Sending -/

/-- A packet of the running group's context to a peer. -/
def sendRemote (kind : Nat) (dst : Nat) (b : Body) (s : State) : State := sendFor s.me.place.ctx dst kind b s

/-- The group's count of accesses that their targets have not acknowledged raised (R180). -/
def moreRemote (n : Nat) (s : State) : State := s.setMe { s.me with rem := s.me.rem + n }

/-- R363, R365. Where the lane is held for the data, the cycles of one replay are charged when they come, those of the others now. -/
def execRld (g : Guard) (d vp vo : Reg) (sz : Size) (sgn fit : Bool) (s : State) : Res :=
  withRemote (.rld g d vp vo sz sgn fit) false sz.bytes vp vo 1 (fun u S acc s =>
    if loadsFull s then .next (holdFor stallSlot s)
    else
      let G := s.me
      let hold := holdsLane G d sz.regs fit S
      let t := acc.foldl (fun s a => sendRemote 1 a.pkg (.rld s.cur G.nextId a.t a.va sz.bytes) s) (moreRemote acc.length s)
      let t := issueLoad d sz.regs sz.bytes sgn fit hold S (.remote [] (acc.map RemAcc.t)) t
      let w := useOf G.regs.fmt (.rld g d vp vo sz sgn fit)
      if hold then .next (holdFor stallScoreboard (charge { u with cost := .fixed (replayCycles w G acc - laneCycles w G S) } S t))
      else afterSend u S t) s

/-- R363, R365. -/
def execRst (g : Guard) (d vp vo : Reg) (sz : Size) (s : State) : Res :=
  withRemote (.rst g d vp vo sz) true sz.bytes vp vo 2 (fun u S acc s =>
    if storesFull s then .next (holdFor stallSlot s)
    else
      let G := s.me
      let one := fun (s : State) (a : RemAcc) =>
        let g := s.me
        let o : OutStore := { id := g.nextId, ins := G.nextId, chunk := 0, kind := .remote a.pkg (s.target a.pkg).made }
        sendRemote 2 a.pkg (.rst a.va (storeData G d sz.bytes a.t) s.cur G.pc.toNat (oneThread a.t).toNat)
          (s.setMe { g with nextId := g.nextId + 1, stores := g.stores ++ [o] })
      afterSend u S (acc.foldl one (moreRemote acc.length s))) s

/-- R363, R365. Old values are written as if the fit bit were set (R163). -/
def execRatom (g : Guard) (d vp vo vx : Reg) (op : AOp) (fit : Bool) (s : State) : Res :=
  withRemote (.ratom g d vp vo vx op fit) true op.bytes vp vo 3 (fun u S acc s =>
    if loadsFull s then .next (holdFor stallSlot s)
    else
      let G := s.me
      let one := fun (s : State) (a : RemAcc) =>
        let x := opArgs G op vx a.t
        sendRemote 3 a.pkg (.ratom s.cur G.nextId a.t a.va op (BitVec.ofNat 64 x.1) (BitVec.ofNat 64 x.2) G.regs.fmt G.pc.toNat) s
      let t := acc.foldl one (moreRemote acc.length s)
      afterSend u S (issueLoad d op.destRegs op.bytes false true false S (.remote [] (acc.map RemAcc.t)) t)) s

/-- R365, R179: the operands of the threads of one replay merged by target address. -/
def mergeRemote (G : Group) (op : AOp) (vx : Reg) : List RemAcc → List (RemAcc × Nat × Mask) → List (RemAcc × Nat × Mask)
  | [], out => out
  | a :: as, out =>
    let v := (opArgs G op vx a.t).1
    let same := fun (o : RemAcc × Nat × Mask) => o.1.peer == a.peer && o.1.va == a.va
    mergeRemote G op vx as
      (if out.any same then out.map fun o => if same o then (o.1, applyOp op G.regs.fmt o.2.1 v 0, o.2.2 ||| oneThread a.t) else o
       else out ++ [(a, v, oneThread a.t)])

/-- R363, R365. -/
def execRred (g : Guard) (vp vo vx : Reg) (op : AOp) (s : State) : Res :=
  withRemote (.rred g vp vo vx op) true op.bytes vp vo 4 (fun u S acc s =>
    let G := s.me
    let l := mergeRemote G op vx acc []
    let t := l.foldl (fun s e => sendRemote 4 e.1.pkg (.rred e.1.va op (BitVec.ofNat 64 e.2.1) G.regs.fmt s.cur G.pc.toNat e.2.2.toNat) s)
      (moreRemote l.length s)
    afterSend u S t) s

/-! ### Answers -/

/-- A thread's data of a remote load, with its uncorrectable error (R168). -/
def gotThread (grp load thr : Nat) (bs : List Byte) (s : State) (bad : Bool := false) : State :=
  let g := s.grp grp
  let take := fun (l : Load) =>
    if l.id == load then (match l.src with
      | .remote got want => if want.contains thr then { l with src := .remote (got ++ [(thr, bs)]) (want.filter (· != thr)), bad := l.bad || bad } else l
      | _ => l) else l
  s.setGrp grp { g with loads := g.loads.map take }

/-- R365, R403: a late fault of some threads' remote access; the data of a load's thread is zero. `load` is 0 for a store or a reduction. -/
def failRemote (grp load : Nat) (thrs : Mask) (cls cause : Nat) (pc : Pc) (va : Nat) (s : State) : State :=
  let s := lateOn (s.grp grp).place.core grp cls cause va pc thrs s
  if load = 0 then s else gotThread grp load (lowest thrs) (List.replicate 16 0) s

/-- The program counter of an outstanding load. -/
def loadPc (s : State) (grp load : Nat) : Pc :=
  match (s.grp grp).loads.find? fun l => l.id == load with
  | some l => l.pc
  | none => 0

/-- An access acknowledged by its target (R54, R180). -/
def remoteDone (grp dst copy : Nat) (s : State) : State :=
  let g := s.grp grp
  s.setGrp grp { g with rem := g.rem - 1, stores := g.stores.filter fun x => x.kind != .remote dst copy }

/-- R400: a watch that its producer's Den cannot be asked for is no watch: the hold stands, covered by the watchdog. -/
def loseWatch (grp : Nat) (r : Reg) (s : State) : State :=
  let g := s.grp grp
  pokeHold grp r (s.setGrp grp ({ g with watch := g.watch.filter fun w => w.1 != r }.setHold r { g.holdOf r with watched := false }))

/-- A delivery that is known not to reach its Den (R393). -/
def loseDelivery (k : Nat) (s : State) : State :=
  match findT s.dlvs k with
  | some d => if d.stage == .away then answer k d 3 s else s
  | none => s

/-! ### Linked pipes (R322) -/

/-- The group that has made a request about a linked pipe. -/
def askerOf (s : State) (no : Nat) : Option Nat := (s.groups.find? fun e => e.2.live && e.2.ask.any fun a => a.no == no).map Prod.fst

/-- R334, R337: a sector sent to another package's slot has been answered for, with error bits and a cause to report, 0 for none. -/
def sectorAnswered (w : SlotWrite) (sec err cause : Nat) (s : State) : State :=
  let take := fun (a : Nat × Nat × Bool × Nat) => if a.1 == sec && !a.2.2.1 then (sec, a.2.1 ||| err, true, cause) else a
  onEngine w.core (fun e => { e with running := e.running.map fun i => if i.id == w.op then { i with away := i.away.map take } else i }) s

/-- R263: whether a drain has a late fault for its slot already, which it takes once. -/
def drainTold (s : State) (w : SlotWrite) : Bool :=
  (s.ctx (s.grp w.grp).place.ctx).late.any fun f => f.grp == w.grp && f.cls == 0x22 && f.cause == 3 && f.pc == w.pc

/-- R263, R334: bytes sent to another package's slot are answered for; `cause` is 0 where they have been written, else what hindered them at address
`va`. -/
def slotWritten (piece cause va : Nat) (s : State) : State :=
  match findT s.slotWrites piece with
  | none => s
  | some w =>
    let s := { s with slotWrites := delT s.slotWrites piece }
    match w.sector with
    | some sec => sectorAnswered w sec (if cause = 0 then 0 else errFault) cause s
    | none => if cause = 0 || drainTold s w then s else lateOn w.core w.grp 0x22 3 va w.pc 0 s

/-- R322: an answer from package `src` to a request about a linked pipe: the group that asks tries its instruction again. A slot granted to a group that
asks no more is given back (R292, R295). -/
def linkAnswer (src ctx lkey op who : Nat) (val : List Nat) (s : State) : State :=
  if op = linkWritten then slotWritten who (val.headD 0) (val.getD 1 0) s
  else if op = linkFill then
    s.plans.foldl (fun s e => if e.2.ctx != ctx then s
      else onPlanPipes e.1 (fun q => if q.remote && q.lkey == lkey && q.sampling then { q with sampling := false, far := val.headD 0 } else q) s) s
  else match askerOf s who with
  | some k =>
    let g := s.grp k
    let s := s.setGrp k { g with ask := g.ask.map fun a => { a with got := some val } }
    (match g.status with
     | .suspended (.pipe _ _ _) => wakeAt k s
     | _ => s)
  | none => match op, val with
    | 0, 1 :: n :: _ => sendFor ctx src 0x10 (.linkReq lkey linkGiveBack 0 n) s
    | _, _ => s

/-- R468: the report of a linked-pipe packet that is denied. -/
def reportLink (grp : Nat) (s : State) : State := reportGroup (s.grp grp) 4 5 causeIsolation 0 (s.grp grp).pc 0 0 s

/-- R468: the report of a linked-pipe packet of no group or crew that is denied. -/
def reportPipe (ctx lkey : Nat) (s : State) : State :=
  let plan := (s.plans.find? fun e => e.2.ctx == ctx && e.2.pipes.any fun q => q.link && q.lkey == lkey).map Prod.snd
  let q := plan.bind fun p => p.pipes.find? fun q => q.link && q.lkey == lkey
  addReport ctx (reportBytes 0 0 5 causeIsolation 4
    { stage := match q with | some q => if q.lside then q.cons else q.prod | none => 0, core := 0, gid := 0, tag := match plan with | some p => p.tag.toNat | none => 0
      name := nullName } 0 lkey) s

/-- R468: a denied request about a linked pipe: its group or crew has a report, and an asking group the closed token. -/
def failLinkReq (p : Packet) (lkey op who : Nat) (s : State) : State :=
  if op = 1 then reportLink ((s.crew who).groups.headD 0) s
  else if op < linkClosed then
    match askerOf s who with
    | some k => reportLink k (linkAnswer p.dst p.ictx lkey op who [0] s)
    | none => reportPipe p.ictx lkey s
  else reportPipe p.ictx lkey (if op = linkFill then linkAnswer p.dst p.ictx lkey op who [0] s else s)

/-- R334, R468: slot data that is denied: the sector ends with an error, or the crew that drained it has a report. -/
def failData (lkey piece : Nat) (p : Packet) (s : State) : State :=
  match findT s.slotWrites piece with
  | none => reportPipe p.ictx lkey s
  | some w =>
    let s := { s with slotWrites := delT s.slotWrites piece }
    match w.sector with
    | some sec => sectorAnswered w sec errFault causeIsolation s
    | none => reportEngine w.core w.crew 4 5 causeIsolation w.off 0 s

/-- R468, R471: an operation whose packet was denied (cause 2) or whose peer cannot be reached (cause 3). -/
def failPacket (cause : Nat) (p : Packet) (s : State) : State :=
  match p.body with
  | .rld grp load thr va _ => failRemote grp load (oneThread thr) 0x21 cause (loadPc s grp load) va s
  | .rst va _ grp pc thrs => failRemote grp 0 (BitVec.ofNat 32 thrs) 0x21 cause (BitVec.ofNat 48 pc) va s
  | .ratom grp load thr va _ _ _ _ pc => failRemote grp load (oneThread thr) 0x21 cause (BitVec.ofNat 48 pc) va s
  | .rred va _ _ _ grp pc thrs => failRemote grp 0 (BitVec.ofNat 32 thrs) 0x21 cause (BitVec.ofNat 48 pc) va s
  | .regput _ _ _ _ k _ => loseDelivery k s
  | .watch _ grp reg true => loseWatch grp (BitVec.ofNat 7 reg) s
  | .linkReq lkey op who _ => failLinkReq p lkey op who s
  | .linkResp lkey _ _ _ => reportPipe p.ictx lkey s
  | .linkData lkey _ _ piece _ => failData lkey piece p s
  | _ => s

/-- The copy of a packet no longer kept: its reservation and its access are given back (R470, R54), and what waits may leave. -/
def freeCopy (dst : Nat) (c : Copy) (s : State) : State :=
  let t := s.target dst
  let s := { s with targets := setT s.targets dst { t with
    copies := t.copies.filter fun x => x.id != c.id, free := t.free + b2n c.taken } }
  pump dst (match accessOf c.pkt.body with | some grp => remoteDone grp dst c.id s | none => s)

/-- The operation of a copy ends as a failure (R468, R471). -/
def failCopy (cause dst : Nat) (c : Copy) (s : State) : State := failPacket cause c.pkt (freeCopy dst c s)

end Sys2Proof.Machine
end

