-- ==== Sys2Proof/Machine/Fabric.lean ====
section
/-! DEFINITION. The fabric (R461 to R472): FABRIC_PACKET_RECEIVE, E2E_TIMEOUT, E2E_ACK, ROUTE_DETOUR, LINK_TRAIN. -/
namespace Sys2Proof.Machine

/-! ### Packets at their target -/

/-- What the application of a packet comes to: it is applied, or it waits at its home slice. -/
abbrev Applied := Except State State

/-- The kind of a body (R467). -/
def bodyKind : Body → Nat
  | .rld .. => 1
  | .rst .. => 2
  | .ratom .. => 3
  | .rred .. => 4
  | .response .. | .failed .. => 5
  | .ack _ | .denial _ => 6
  | .regput .. => 8
  | .denAck .. | .denRefuse _ => 9
  | .watch .. | .poison .. => 0xA
  | .linkReq .. => 0x10
  | .linkResp .. => 0x11
  | .linkData .. => 0x12

/-- R466: the 128 bits of a packet's header. The check code over its other bits is not given: it is free (log 8). -/
def Packet.header (p : Packet) : BitVec 128 :=
  let low : BitVec 120 := BitVec.ofNat 6 p.kind ++ BitVec.ofNat 8 p.src ++ BitVec.ofNat 8 p.dst ++ BitVec.ofNat 16 p.tenant ++ BitVec.ofNat 6 p.ctx ++
    BitVec.ofNat 2 p.vc ++ BitVec.ofNat 32 p.seq ++ BitVec.ofNat 8 p.blen ++ 0#34
  (Config.freeWord low.toNat).extractLsb' 0 8 ++ low

/-- An answer of a target to a remote access. -/
def respond (p : Packet) (b : Body) (s : State) : State := sendBack p 5 b s

/-- R365, R403: a late fault sent back to the group that made an access. The number carries class and cause. -/
def respondFault (p : Packet) (grp load thrs cls cause pc va : Nat) (s : State) : State :=
  respond p (.failed grp load thrs (256 * cls + cause) pc va) s

/-- R365, R403: the cause of a late remote fault for a translation that fails. -/
def behindWindow (c : Nat) : Nat := if c = causeNoTranslation then 1 else 2

/-- R433, R438: what an access from the fabric asks of a tile: a dropped one is recomputed on its own core. -/
def remoteTile (s : State) (ctx va : Nat) (who : TileUser) (x : Xlat) : Option State :=
  match tileAt s ctx va with
  | some (c, r, e) =>
    if e.state == .sealed && s.badSec.contains (x.phys va / 32) then some (noteMiss c r e.ocore 0 (some who) (dropTile c r s))
    else if e.waitsFor who then some (noteMiss c r e.ocore 0 (some who) s) else none
  | none => none

/-- Where an access lands: a page of the context, or the cause of its late remote fault. -/
def remotePlace (s : State) (ctx va : Nat) (write : Bool) : Except Nat Xlat :=
  match walk s ctx va with
  | .error c => .error (behindWindow c)
  | .ok x => if (write && !x.write) || tileState s ctx va == .failed then .error 2 else .ok x

/-- RLD at its target (R365, R168). -/
def applyRld (p : Packet) (grp load thr va size : Nat) (s : State) : Applied :=
  match remotePlace s p.ctx va false with
  | .error c => .ok (respondFault p grp load (2 ^ thr) 0x21 c 0 va s)
  | .ok x => match remoteTile s p.ctx va (.remote p.src p.seq) x with
    | some t => .error t
    | none =>
      let r := readFor s p.ctx va (x.phys va) size (.remote p.src p.seq)
      .ok (respond p (.response grp load thr va r.1 r.2)
        (touchL2 s (lineOf (x.phys va)) false))

/-- A write of an access at its home slice (R365, R451, R456). -/
def applyWrite (pa : Nat) (bs : List Byte) (x : Xlat) (s : State) : Applied :=
  if x.stream then .ok (streamWrite pa bs s)
  else if heldByReserved s 0 none [.glob (lineOf pa)] 0 [] then .error s
  else .ok (pointGlobal 0 pa bs s)

/-- RST at its target (R365, R437). -/
def applyRst (p : Packet) (va : Nat) (bs : List Byte) (grp pc thrs : Nat) (s : State) : Applied :=
  match remotePlace s p.ctx va true with
  | .error c => .ok (respondFault p grp 0 thrs 0x21 c pc va s)
  | .ok x =>
    if (tileState s p.ctx va).refusesWrites then .ok (respondFault p grp 0 thrs 0x20 3 pc va s) else applyWrite (x.phys va) bs x s

/-- RATOM at its target (R365, R437). -/
def applyRatom (p : Packet) (grp load thr va : Nat) (op : AOp) (x y : Word64) (fmt : Word) (pc : Nat) (s : State) : Applied :=
  match remotePlace s p.ctx va true with
  | .error c => .ok (respondFault p grp load (2 ^ thr) 0x21 c pc va s)
  | .ok e =>
    let pa := e.phys va
    match remoteTile s p.ctx va (.remote p.src p.seq) e with
    | some t => .error t
    | none =>
      let s := settleArrived pa op.bytes s
      let r := readFor s p.ctx va pa op.bytes (.remote p.src p.seq)
      let old := leNat r.1
      let reply := fun s => respond p (.response grp load thr va (leBytes op.bytes old) r.2) s
      if (tileState s p.ctx va).refusesWrites then .ok (respondFault p grp 0 (2 ^ thr) 0x20 3 pc va (reply s))
      else match applyWrite pa (leBytes op.bytes (applyOp op fmt old x.toNat y.toNat)) e s with
      | .ok s => .ok (reply s)
      | .error s => .error s

/-- R191, R365: the two halves of a packet's packed reduction take their place in the order of arrival at the home slice. -/
def enterHalves (p : Packet) (va pa : Nat) (op : AOp) (x : Word64) (fmt : Word) (thrs : Nat) (s : State) : State :=
  let f : Flight := { id := s.serial, ins := 0, grp := 0, core := 0, ctx := p.ctx, va := va, pa := pa, op := .red op x fmt, pc := 0, half := 0, arrived := some s.serial
                      thrs := BitVec.ofNat 32 thrs, orig := some (p.src, p.seq) }
  { s with flights := s.flights ++ [f, { f with half := 1 }], reds := s.reds ++ [(p.src, p.seq)], serial := s.serial + 1 }

/-- R191: whether a half of a packet's packed reduction is still to be applied. -/
def halvesLeft (s : State) (p : Packet) : Bool := s.flights.any fun f => f.orig == some (p.src, p.seq)

/-- RRED at its target (R365, R179, R437). A packed one is accepted once both its halves have been applied (R191). -/
def applyRred (p : Packet) (va : Nat) (op : AOp) (x : Word64) (fmt : Word) (grp pc thrs : Nat) (s : State) : Applied :=
  if s.reds.contains (p.src, p.seq) then (if halvesLeft s p then .error s else .ok { s with reds := s.reds.erase (p.src, p.seq) })
  else match remotePlace s p.ctx va true with
  | .error c => .ok (respondFault p grp 0 thrs 0x21 c pc va s)
  | .ok e =>
    if (tileState s p.ctx va).refusesWrites then .ok (respondFault p grp 0 thrs 0x20 3 pc va s)
    else if (halvesOf op).isSome then .error (enterHalves p va (e.phys va) op x fmt thrs s)
    else
      let s := settleArrived (e.phys va) op.bytes s
      .ok (reduceWrite (e.phys va) (leBytes op.bytes (applyOp op fmt (readLE s.mem (e.phys va) op.bytes) x.toNat 0)) s)

/-- A delivery from another package at this one's Den. -/
def applyRegput (p : Packet) (name : Word64) (vt tag : Nat) (ws : List Word) (k grp : Nat) (s : State) : State :=
  let d : Delivery := { name := name, vt := BitVec.ofNat 7 vt, tag := tagOfCode tag, words := ws, sender := grp, spkg := p.src, sctx := p.ctx, ictx := p.ictx, back := k }
  { s with dlvs := setT s.dlvs s.serial d, serial := s.serial + 1 }

/-- R398: a watch asked for by another package; a stale name answers with a poison, a full entry with none. -/
def applyWatch (p : Packet) (name : Word64) (grp reg : Nat) (on : Bool) (s : State) : State :=
  let i := nameIndex name
  let w : Watcher := { pkg := p.src, grp := grp, reg := BitVec.ofNat 7 reg }
  let reply := fun cause => sendBack p 0x0A (.poison name grp reg cause) s
  if !on then onDen i (fun e => { e with watchers := e.watchers.filter (· != w) }) s
  else if staleName s name then reply 1
  else if 8 ≤ (s.denEntry i).watchers.length then reply 0
  else onDen i (fun e => { e with watchers := e.watchers ++ [w] }) s

/-- R399: a poison from the Den of another package meets a register that still watches the name; one for a group that is moving waits. -/
def applyPoison (name : Word64) (grp reg cause : Nat) (s : State) : Applied :=
  let r := BitVec.ofNat 7 reg
  if watcherMoving s { pkg := s.pkg.pkg, grp := grp, reg := r } then .error s
  else if (s.grp grp).watch.any fun w => w.1 == r && w.2 == name then
    .ok (if cause = 0 then loseWatch grp r s else poisonReg grp r (BitVec.ofNat 2 cause) s)
  else .ok s

/-! ### Linked pipes (R322) -/

/-- The consumer side of a linked pipe in a context: its plan and its index. The peer its key was bound to does not count (R350). -/
def findLink (s : State) (ctx lkey : Nat) : Option (Nat × Plan × Nat × Pipe) :=
  s.plans.findSome? fun e =>
    match e.2.pipes.findIdx? fun q => e.2.ctx == ctx && q.link && q.lside && q.lkey == lkey with
    | some j => some (e.1, e.2, j, e.2.pipes.getD j {})
    | none => none

/-- R322: the tile or header address of an offset in a slot of a linked pipe. -/
def linkAddr (q : Pipe) (r : SlotRef) (off : Nat) : Nat := if off < 2 ^ 24 then q.tileAddr r + off else q.hdrAddr r + (off - 2 ^ 24)

/-- Whether a slot is reserved. -/
def SlotState.isReserved : SlotState → Bool
  | .reserved _ => true
  | _ => false

/-- R288, R322: the commit of a slot that another package's crew had reserved. A forced drain's discarded slot stays so (R292). -/
def commitLinked (plan j : Nat) (pl : Plan) (q : Pipe) (r : SlotRef) (s : State) : State :=
  let x := q.slot r
  let s := writeHeader pl.ctx q r x.seq 0 s
  let s := dropCommitted pl.ctx q r s
  wakePipe plan j false (s.onPipe plan j fun q => (q.setSlot r { x with state := .committed, share := 0, waits := [] }).counted s.now)

/-- R309, R310: the mode of a linked pipe as the package that holds its counters relays it to the stage that produces it. -/
def relayLinked (ctx lkey : Nat) (depth : Bool) (s : State) : State :=
  s.plans.foldl (fun s e =>
    if e.2.ctx != ctx then s
    else applyThrottle e.1 (onPlanPipes e.1 (fun q => if q.remote && q.lkey == lkey then { q with relayed := depth } else q) s)) s

/-- A request about a linked pipe at the side that holds its counters (R287, R288, R291, R322), or that side's relay of its mode. -/
def applyLinkReq (p : Packet) (lkey op who slot : Nat) (s : State) : Applied :=
  if op = linkMode then .ok (relayLinked p.ctx lkey (slot == 1) s)
  else match findLink s p.ctx lkey with
  | none => .error s
  | some (plan, pl, j, q) =>
    let r := slotOfNum slot
    if op = 0 then
      if closedToProducer pl q then .ok (linkReply pl.ctx q p.src op who [0] s)
      else .ok (serveLinks plan j (q.links.length + 1) (s.onPipe plan j fun q => { q with links := q.links ++ [(p.src, who)] }))
    else if op = 1 then .ok (if (q.slot r).state.isReserved then commitLinked plan j pl q r s else s)
    else if op = linkClosed then .ok (wakePipe plan j false (s.onPipe plan j fun q => { q with pdone := slot == 1 }))
    else if op = linkGiveBack then
      (if !(q.slot r).state.isReserved then .ok s else if headerHeld s pl.ctx q r then .error s else .ok (freeSlot plan j pl.ctx q r s))
    else if op = linkWithdraw then .ok (s.onPipe plan j fun q => { q with links := q.links.filter (· != (p.src, who)) })
    else if op = linkFill then .ok (linkReply pl.ctx q p.src op who [q.occupancy] s)
    else .ok (linkReply pl.ctx q p.src op who [statValue q (statMode (op - 2)) r] s)

/-- Bytes of a slot at the package that holds it, which answers whether they have been written (R263, R322, R334). -/
def applyLinkData (p : Packet) (lkey slot off piece : Nat) (bs : List Byte) (s : State) : Applied :=
  match findLink s p.ctx lkey with
  | none => .error s
  | some (_, pl, _, q) =>
    let va := linkAddr q (slotOfNum slot) off
    let done := fun (c : Nat) (s : State) => linkReply pl.ctx q p.src linkWritten piece [c, va] s
    match walk s pl.ctx va with
    | .error c => .ok (done c s)
    | .ok x =>
      if !x.write || (tileState s pl.ctx va).refusesWrites || tileState s pl.ctx va == .failed then .ok (done causeReadOnly s)
      else match applyWrite (x.phys va) bs x s with
      | .ok s => .ok (done 0 s)
      | .error s => .error s

/-- A numbered packet applied at its target. -/
def applyBody (p : Packet) (s : State) : Applied :=
  match p.body with
  | .rld grp load thr va size => applyRld p grp load thr va size s
  | .rst va bs grp pc thrs => applyRst p va bs grp pc thrs s
  | .ratom grp load thr va op x y fmt pc => applyRatom p grp load thr va op x y fmt pc s
  | .rred va op x fmt grp pc thrs => applyRred p va op x fmt grp pc thrs s
  | .response grp load thr _ bs bad => .ok (gotThread grp load thr bs s bad)
  | .failed grp load thrs n pc va =>
    .ok (failRemote grp load (BitVec.ofNat 32 thrs) (n / 256) (n % 256) (if load = 0 then BitVec.ofNat 48 pc else loadPc s grp load) va s)
  | .ack _ => .ok s
  | .denial _ => .ok s
  | .regput name vt tag ws k grp => .ok (applyRegput p name vt tag ws k grp s)
  | .denAck k outcome => .ok (match findT s.dlvs k with | some d => if d.stage == .away then answer k d outcome s else s | none => s)
  | .denRefuse k => .ok (match findT s.dlvs k with
    | some d => if d.stage == .away then { s with dlvs := setT s.dlvs k { d with stage := .refused s.now } } else s
    | none => s)
  | .watch name grp reg on => .ok (applyWatch p name grp reg on s)
  | .poison name grp reg cause => applyPoison name grp reg cause s
  | .linkReq lkey op who slot => applyLinkReq p lkey op who slot s
  | .linkResp lkey op who val => .ok (linkAnswer p.src p.ctx lkey op who val s)
  | .linkData lkey slot off piece bs => applyLinkData p lkey slot off piece bs s

/-! ### Sequence numbers (R472) -/

/-- What is kept of a source package. -/
def State.source (s : State) (p : Nat) : Source := getT {} s.sources p

/-- Whether a number has been applied. -/
def Source.applied (x : Source) (seq : Word) : Bool :=
  let d := (seq - x.low).toNat
  decide (2 ^ 31 ≤ d) || (decide (1 ≤ d) && decide (d ≤ 64) && x.map.getLsbD (d - 1))

/-- Whether a number lies in the range that can be noted. -/
def Source.inRange (x : Source) (seq : Word) : Bool := decide ((seq - x.low).toNat ≤ 64)

/-- The lowest number not applied moved up past those that are, over at most `n` of them. -/
def Source.slide : Nat → Source → Source
  | 0, x => x
  | n + 1, x => if x.map.getLsbD 0 then Source.slide n { low := x.low + 1, map := x.map >>> 1 } else { low := x.low + 1, map := x.map >>> 1 }

/-- A number noted as applied. -/
def Source.note (x : Source) (seq : Word) : Source :=
  let d := (seq - x.low).toNat
  if d = 0 then Source.slide 65 x else { x with map := x.map ||| BitVec.ofNat 64 (2 ^ (d - 1)) }

/-- A number of a source noted, and its packet acknowledged. -/
def accept (p : Packet) (s : State) : State :=
  sendAck p (.ack p.seq) { s with sources := setT s.sources p.src ((s.source p.src).note (BitVec.ofNat 32 p.seq)) }

/-! ### Acknowledgements and denials at the sender -/

/-- A copy of a packet that has been sent, whether or not it waits to be sent again. -/
def sentCopy (s : State) (dst seq : Nat) : Option Copy := (s.target dst).copies.find? fun c => c.numbered && c.pkt.seq == seq

/-- R472: an acknowledgement; one that finds no copy is discarded. -/
def ackPacket (dst seq : Nat) (s : State) : State :=
  match sentCopy s dst seq with
  | some c => freeCopy dst c s
  | none => s

/-- R468: a denial ends the operation as a failure. -/
def denyPacket (dst seq : Nat) (s : State) : State :=
  match sentCopy s dst seq with
  | some c => failCopy 2 dst c s
  | none => s

/-! ### FABRIC_PACKET_RECEIVE (R463, R468) -/

/-- A port changed. -/
def onPort (k : Nat) (f : Port → Port) (s : State) : State := { s with ports := setT s.ports k (f (s.port k)) }

/-- Whether a target's context is bound to the tenant a packet names (R466, R468). -/
def tenantBound (s : State) (p : Packet) : Bool := (s.ctx p.ctx).live && (s.ctx p.ctx).tenant == some p.tenant

/-- R468: the access whose answer is denied at the package that made it ends as a failure; its packet has been accepted. -/
def failAnswer (b : Body) (s : State) : State :=
  match b with
  | .response grp load thr va _ _ => failRemote grp load (oneThread thr) 0x21 2 (loadPc s grp load) va s
  | .failed grp load thrs _ pc va => failRemote grp load (BitVec.ofNat 32 thrs) 0x21 2 (if load = 0 then BitVec.ofNat 48 pc else loadPc s grp load) va s
  | _ => s

/-- A packet at its target. `checked` says that it came through a port. The result is none while it has to wait. Acknowledgements and denials, which end
an operation of this package, are not checked for their tenant (log 46). -/
def deliver (checked : Bool) (p : Packet) (s : State) : Applied :=
  match p.body with
  | .ack seq => .ok (ackPacket p.src seq s)
  | .denial seq => .ok (denyPacket p.src seq s)
  | b =>
    let seq := BitVec.ofNat 32 p.seq
    if (s.source p.src).applied seq then .ok (sendAck p (.ack p.seq) (countPkg 0 1 s))
    else if !(s.source p.src).inRange seq then .error s
    else if checked && !tenantBound s p then
      let s := { s with tenants := setT s.tenants p.tenant ((getT 0 s.tenants p.tenant + 1) % 2 ^ 64)
                        sources := setT s.sources p.src ((s.source p.src).note seq) }
      .ok (sendAck p (.denial p.seq) (failAnswer b s))
    else match applyBody p s with
    | .ok s => .ok (accept p s)
    | .error s => .error s

/-- R468, R486: an error in a packet's header: the port counts it as dropped or corrected, the package under the fabric header's structure, the eighth of
R485, and the error log has an entry with the port. -/
def headerError (port : Nat) (bad : Bool) (s : State) : State :=
  logError 7 port (countPkg (0x10E + b2n bad) 1 (onPort port (fun x =>
    if bad then { x with hdrdrop := (x.hdrdrop + 1) % 2 ^ 64 } else { x with hdrfix := (x.hdrfix + 1) % 2 ^ 64 }) s))

/-- R468: what a port's check of the header comes to: the packet is dropped, or goes on. -/
def checkHeader (port : Nat) (p : Packet) (s : State) : Option State :=
  if 2 ≤ p.hdrErr then none else if p.hdrErr = 1 then some (headerError port false s) else some s

/-- R467, R468: a reserved kind, a reserved channel or too long a body. -/
def badKind (p : Packet) : Bool :=
  !([1, 2, 3, 4, 5, 6, 8, 9, 0xA, 0x10, 0x11, 0x12].contains p.kind) || decide (3 ≤ p.vc) || decide (16 < p.blen)

/-- What a packet's access addresses: the group, the address and the bytes (R366). -/
def accessRange : Body → Option (Nat × Nat × Nat)
  | .rld grp _ _ va size => some (grp, va, size)
  | .rst va bs grp _ _ => some (grp, va, bs.length)
  | .ratom grp _ _ va op _ _ _ _ => some (grp, va, op.bytes)
  | .rred va op _ _ grp _ _ => some (grp, va, op.bytes)
  | _ => none

/-- R284, R366, R395, R398: whether two packets of one package take effect in the order of their numbers: accesses of one group to the same bytes,
deliveries of one sender to one name, messages about the watch of one register on one name, requests about one linked pipe. -/
def inOrder (q p : Body) : Bool :=
  match accessRange q, accessRange p with
  | some (g, a, n), some (h, b, m) => g == h && overlaps a n b m
  | _, _ => match q, p with
    | .regput n _ _ _ _ g, .regput m _ _ _ _ h => n == m && g == h
    | .watch n g r _, .watch m h x _ => n == m && g == h && r == x
    | .linkReq k .., .linkReq l .. => k == l
    | _, _ => false

/-- Whether a packet must wait for packets of its source that were numbered before it: for one whose order with it is given, and for one that has not come,
of which that cannot be told (log 97). -/
def mustWait (s : State) (p : Packet) : Bool :=
  let x := s.source p.src
  inOrder p.body p.body &&
  (List.range (BitVec.ofNat 32 p.seq - x.low).toNat).any fun i =>
    let n := x.low + BitVec.ofNat 32 i
    !x.applied n && (match s.parked.find? fun q => q.src == p.src && BitVec.ofNat 32 q.seq == n with
      | some q => inOrder q.body p.body
      | none => true)

/-- A packet that has to wait at its home slice is kept there; a second copy of it is not (R472). -/
def keepPacket (p : Packet) (s : State) : State :=
  if !(s.source p.src).inRange (BitVec.ofNat 32 p.seq) || s.parked.any (fun q => q.src == p.src && q.seq == p.seq) then s
  else { s with parked := s.parked ++ [p] }

/-- A packet of another package applied, or kept where it waits. -/
def takePacket (p : Packet) (s : State) : State :=
  if !(s.source p.src).applied (BitVec.ofNat 32 p.seq) && (s.source p.src).inRange (BitVec.ofNat 32 p.seq) && mustWait s p then keepPacket p s
  else match deliver true p s with
  | .ok s => { s with parked := s.parked.filter fun q => !(q.src == p.src && q.seq == p.seq) }
  | .error s => keepPacket p s

/-- A packet that waits at its home slice tries again. -/
def retryParked (src seq : Nat) (s : State) : State :=
  match s.parked.find? fun q => q.src == src && q.seq == seq with
  | some p => takePacket p s
  | none => s

/-- A packet that waits for its next hop tries again, behind those that came before it and take the same hop (R469). -/
def retryTransit (src dst seq : Nat) (s : State) : State :=
  match s.transit.find? fun e => e.2.src == src && e.2.dst == dst && e.2.seq == seq with
  | some e =>
    let h := nextHop s e.2
    if hopOpen s h && (s.transit.find? fun x => nextHop s x.2 == h) == some e then
      { issueOn h e.2 s with transit := s.transit.erase e, freed := s.freed ++ e.1.toList }
    else s
  | none => s

/-- R469: the buffer of a port's receiver that a packet took is free again. -/
def freeBuffer (port : Nat) (p : Packet) (s : State) : State := { s with freed := s.freed ++ [(port, p.vc)] }

/-- A packet received from another package: its header is checked (R468), then it is passed on, or consumed. One whose packages lie outside the pod is
dropped (log 46). -/
def receiveFrom (port : Nat) (p : Packet) (s : State) : State :=
  if !(s.port port).up then s
  else match checkHeader port p s with
  | none => freeBuffer port p (headerError port true s)
  | some s =>
    if badKind p then freeBuffer port p (onPort port (fun x => { x with badkind := (x.badkind + 1) % 2 ^ 64 }) s)
    else if bodyKind p.body ≠ p.kind || !inPod s p.src || !inPod s p.dst then freeBuffer port p s
    else if p.dst ≠ s.pkg.pkg then passOn (some (port, p.vc)) { p with hdrErr := 0 } s
    else freeBuffer port p (takePacket p s)

/-- The first packet on the loop through the hub (R463). -/
def loopHead (s : State) : Option (Nat × Packet) := s.outbox.find? fun e => e.1 == loopPort

/-- FABRIC_PACKET_RECEIVE. -/
def execFabricPacketReceive (port : Nat) (pkt : Packet) (s : State) : Res :=
  if port = loopPort then
    if loopHead s = some (port, pkt) then
      match deliver false pkt { s with outbox := s.outbox.erase (port, pkt) } with
      | .ok s => .next s
      | .error t => .next { t with outbox := s.outbox }
    else .next s
  else if port < 30 then .next (receiveFrom port pkt s)
  else .next s

/-! ### E2E_TIMEOUT, E2E_ACK, ROUTE_DETOUR, LINK_TRAIN -/

/-- A packet to be sent again; it leaves when it may. Its timer runs from now (R471). -/
def resend (dst : Nat) (c : Copy) (n : Nat) (s : State) : State :=
  let t := s.target dst
  { s with targets := setT s.targets dst { t with copies := t.copies.map fun x =>
      if x.id == c.id then { x with resends := n, waiting := true, sent := s.now } else x } }

/-- E2E_TIMEOUT (R471). -/
def execE2eTimeout (dst seq : Nat) (s : State) : Res :=
  match sentCopy s dst seq with
  | none => .next s
  | some c =>
    if s.now < c.sent + 20000 then .next s
    else if c.resends < 8 ∨ 0x10 ≤ c.pkt.kind then .next (pump dst (countPkg 1 1 (resend dst c (c.resends + 1) s)))
    else .next (failCopy 3 dst c s)

/-- E2E_ACK (R472). On the loop through the hub only a packet that has been applied is acknowledged. -/
def execE2eAck (dst seq : Nat) (s : State) : Res :=
  if dst = s.pkg.pkg ∧ !(s.source dst).applied (BitVec.ofNat 32 seq) then .next s else .next (ackPacket dst seq s)

/-- R463: whether a detour is called for: a link of the minimal route is down, or its first hop has had no buffer count for 50 µs. -/
def wantsDetour (s : State) (dst : Nat) : Bool :=
  let h := minimalHop s dst
  let p := s.port h.1
  !linkUp s s.pkg.pkg (cornerTo s dst) || !linkUp s (cornerTo s dst) dst || (p.buf h.2 == 0 && decide (p.dry h.2 + 50000 ≤ s.now))

/-- R464: the route to a target changed; every unacknowledged packet is sent again first, in sequence order. -/
def reroute (dst : Nat) (detour : Option Nat) (s : State) : State :=
  let s := (s.target dst).copies.foldl (fun s c => if c.numbered && !c.waiting then resend dst c c.resends s else s) s
  pump dst { s with targets := setT s.targets dst { s.target dst with detour := detour } }

/-- ROUTE_DETOUR (R463, R464): to the detour that is called for, if there is one, from one to another, and back where none is. -/
def execRouteDetour (dst : Nat) (s : State) : Res :=
  if !inPod s dst || dst == s.pkg.pkg then .next s
  else
    let has := (s.target dst).detour
    match if wantsDetour s dst then (detourColumn s dst).orElse fun _ => has else none with
    | some c =>
      if has = some c then .next s
      else .next (onPort (minimalHop s dst).1 (fun p => { p with detour := (p.detour + 1) % 2 ^ 64 }) (reroute dst (some c) s))
    | none => if has.isSome then .next (reroute dst none s) else .next s

/-- R469: a buffer count of a port's channel comes back from its peer, whose receiver has 32 buffers for each; what waits for it leaves. -/
def returnBuf (port vc : Nat) (s : State) : State :=
  if 30 ≤ port || 3 ≤ vc || decide (32 ≤ (s.port port).buf vc) then s
  else (s.targets.map Prod.fst).foldl (fun s d => pump d s) (onPort port (fun p => p.setBuf s.now vc (p.buf vc + 1)) s)

/-- R465: a link-level replay on a port that is up. -/
def replayLink (port : Nat) (s : State) : State :=
  if (s.port port).up then onPort port (fun p => { p with linkreplay := (p.linkreplay + 1) % 2 ^ 64 }) s else s

/-- R463: what is heard of a link between two other packages (log 13). -/
def hearLink (a b : Nat) (up : Bool) (s : State) : State :=
  let l := (min a b, max a b)
  { s with linksDown := if up then s.linksDown.filter (· != l) else if s.linksDown.contains l then s.linksDown else s.linksDown ++ [l] }

/-- R462: whether a port has a peer in the pod. -/
def hasPeer (s : State) (port : Nat) : Bool :=
  if port < 15 then decide (port + 1 < s.pkg.cols) else decide (port < 30) && decide (port - 15 + 1 < s.pkg.rows)

/-- The count of links that trained to another configuration (R465). -/
def trainFails : Nat := 0x10003

/-- LINK_TRAIN (R465). -/
def execLinkTrain (port : Nat) (ok : Bool) (s : State) : Res :=
  if !hasPeer s port then .next s
  else if ok then
    let s := onPort port (fun p => { p with up := true }) s
    .next ((s.targets.map Prod.fst).foldl (fun s d => pump d s) s)
  else .next (countPkg trainFails 1 (onPort port (fun p => { p with up := false }) s))

end Sys2Proof.Machine
end

