-- ==== Sys2Proof/Machine/Crews.lean ====
section
/-! DEFINITION. The life of crews (R197, R198, R293, R314 to R316, R340, R350, R388): their start, their exit, the return of their weight, the
end of their plan. Events: NAMED_CREW_START, CREW_EXIT, SINK_ARRIVAL. -/
namespace Sys2Proof.Machine

/-! ### Stages and cores -/

/-- A stage of a plan. -/
def Plan.stage (p : Plan) (i : Nat) : Stage := p.stages.getD i {}

/-- The cores of a rectangle, row by row (R4, R350). -/
def rectCores (x y w h : Nat) : List Nat := (List.range h).flatMap fun dy => (List.range w).map fun dx => 16 * (y + dy) + (x + dx)

/-- The cores of a stage's rectangle. -/
def Stage.cores (g : Stage) : List Nat := rectCores g.x g.y g.w g.h

/-- A plan changed. -/
def onPlan (k : Nat) (f : Plan → Plan) (s : State) : State :=
  match findT s.plans k with
  | some p => { s with plans := setT s.plans k (f p) }
  | none => s

/-- A core changed. -/
def onCore (k : Nat) (f : Core → Core) (s : State) : State := s.setCore k (f (s.core k))

/-- The resident crews of a core. -/
def residents (s : State) (core : Nat) : List (Nat × Crew) := s.crews.filter fun e => e.2.core == core && !e.2.saved

/-- R390: whether an image is being restored onto the core. -/
def restoring (s : State) (core : Nat) : Bool := s.ctxs.any fun c => c.2.images.any fun m => m.into == some core

/-- R348: no crew is resident on the core, none is being saved and none restored. -/
def coreFree (s : State) (core : Nat) : Bool := (residents s core).isEmpty && (s.core core).save.isNone && !restoring s core

/-- R312: whether a pending move passes the core over, which idles until the revision is applied. -/
def movePending (s : State) (core : Nat) : Bool := s.plans.any fun e => e.2.move.any fun m => m.cores.contains core

/-- R36: the groups per lane of a stage. -/
def Stage.perLane (g : Stage) : Nat := min 8 (2048 / shapeWords g.shape)

/-- R203: the role level of a group. -/
def Stage.role (g : Stage) (i : Nat) : Nat := bitsN g.roles (2 * i) 2

/-- R302: the preload's records written, with their blocks' initialised bits (R172). -/
def preloadCore (l : List (Nat × List Byte)) (c : Core) : Core :=
  l.foldl (fun c e => ((List.range e.2.length).zip e.2).foldl (fun c x => pokeLocal c (e.1 + x.1) x.2) c) c

/-- R172, R225, R243, R302: a core as it is when a stage starts on it. -/
def freshCore (plan stage ctx revision : Nat) (st : Stage) (c : Core) : Core :=
  preloadCore st.preload
    { c with inited := 0, mat := {}, eng := {}, badAcc := [], thr := false, l1 := if c.fused == st.fused then c.l1 else [], fused := st.fused
             plan := some plan, stage := stage, ctx := ctx, revision := revision, used := if c.used.contains ctx then c.used else ctx :: c.used }

/-! ### Names of a crew (R388) -/

/-- The number of FREE entries of the Den. -/
def freeNames (s : State) : Nat := (1048576 - s.denNext) + s.denFree.length

/-- The entry at the head of the free list, which holds the indices in rising order at reset (R387). -/
def takeIndex (s : State) : Nat × State :=
  if s.denNext < 1048576 then (s.denNext, { s with denNext := s.denNext + 1 })
  else (s.denFree.headD 0, { s with denFree := s.denFree.tail })

/-- R388, R390: one group takes a name. -/
def takeName (s : State) (k : Nat) : State :=
  let (i, s) := takeIndex s
  let g := s.grp k
  let e := s.denEntry i
  let name : Word64 := BitVec.ofNat 8 s.pkg.pkg ++ BitVec.ofNat 24 i ++ e.gen
  let s := { s with den := setT s.den i { gen := e.gen, state := .resident, ctx := g.place.ctx, stage := g.place.stage, grp := k } }
  s.setGrp k { g with place := { g.place with name := name }, status := .waiting, last := s.now }

/-- R388: a crew that waits for names takes them all, in gid order, if enough entries are free, on a core that a pending move leaves to it (R312). -/
def takeNames (crew : Nat) (s : State) : State :=
  let c := s.crew crew
  if c.waitName && !c.saved && !movePending s c.core && decide (c.groups.length ≤ freeNames s) then
    onCrew crew (fun c => { c with waitName := false }) (c.groups.foldl takeName s)
  else s

/-- NAMED_CREW_START (R388). -/
def execNamedCrewStart (crew : Nat) (s : State) : Res := .next (takeNames crew s)

/-! ### The start of a crew (R198, R350) -/

/-- R105, R198: group `g` of crew `c` of a stage, in its lane and slot. -/
def newGroup (p : Plan) (st : Stage) (plan stage crew core c g now : Nat) : Group :=
  let q := c * st.ngrp + g
  { live := true
    place := { core := core, lane := q / st.perLane, slot := q % st.perLane, gid := g, role := st.role g, crew := crew, plan := plan, ctx := p.ctx
               stage := stage, shape := st.shape, suava := p.org.suava, age := st.age }
    pc := BitVec.ofNat 48 st.entry, status := if st.named then .saved else .waiting, last := now }

/-- R322: the consumer sides of the linked pipes that a stage produces are told whether it has a live crew, where they have been told otherwise. -/
def tellLive (plan stage : Nat) (s : State) : State :=
  match findT s.plans plan with
  | none => s
  | some p =>
    let dead := !stageLive s plan stage
    (List.range p.pipes.length).foldl (fun s j =>
      let q := p.pipes.getD j {}
      if q.prod = stage && q.remote && q.pdone != dead then
        tellPeer p.ctx q linkClosed 0 (b2n dead) (s.onPipe plan j fun q => { q with pdone := dead })
      else s) s

/-- A crew of a running plan started with a weight; a named one needs its names first (R388). -/
def startCrew (plan stage core c weight : Nat) (s : State) : State :=
  match findT s.plans plan with
  | none => s
  | some p =>
    let st := p.stage stage
    let crew := s.serial
    let keys := (List.range st.ngrp).map (crew + 1 + ·)
    let cr : Crew := { plan := plan, stage := stage, core := core, index := c, weight := weight, groups := keys, prod := st.prod, ctx := p.ctx
                       waitName := st.named }
    let s := (List.range st.ngrp).foldl (fun s g => s.setGrp (crew + 1 + g) (newGroup p st plan stage crew core c g s.now)) s
    takeNames crew (tellLive plan stage { s with crews := setT s.crews crew cr, serial := crew + 1 + st.ngrp })

/-- The crews of a stage started on a core it has come to, with their weights. -/
def startOn (plan stage core : Nat) (weights : List Nat) (s : State) : State :=
  match findT s.plans plan with
  | none => s
  | some p =>
    let s := onCore core (freshCore plan stage p.ctx p.revNo.toNat (p.stage stage)) s
    (weights.mapIdx fun c w => (c, w)).foldl (fun s e => startCrew plan stage core e.1 e.2 s) s

/-! ### Status records (R345, R346, R475) -/

/-- R475: the function that owns a queue, and the queue's page in it. -/
def queueOwner (s : State) (q : Nat) : Nat × Nat :=
  let c := (getT {} s.queues q).ctx
  let f := (s.ctx c).fn
  if !(s.ctx c).live || f = 0 then (0, q)
  else (f, ((List.range q).filter fun r => (getT {} s.queues r).ctx == c).length)

/-- An MSI-X vector sent (R475, R478). -/
def sendVector (fn v : Nat) (s : State) : State := { s with msix := s.msix ++ [(fn, v)] }

/-- The 32 bytes of a status record (R345). -/
def statusBytes (code tag disc rev nexc nchf : Nat) (tdown forced dlk : Bool) : List Byte :=
  leBytes 32 (disc * 2 ^ 192 + tag * 2 ^ 160 + rev * 2 ^ 128 + nexc % 2 ^ 32 * 2 ^ 96 + nchf % 2 ^ 32 * 2 ^ 64
    + b2n tdown * 2 ^ 10 + b2n forced * 2 ^ 9 + b2n dlk * 2 ^ 8 + code)

/-- R346, R475: a status record written through the context's translation, and the vector sent once it is. -/
def writeStatus (ctx stat q : Nat) (bs : List Byte) (s : State) : State :=
  let (fn, page) := queueOwner s q
  match writeVirtual s ctx stat bs with
  | some t => match t.hub.drop s.hub.length with
    | [h] => { t with hub := s.hub ++ [{ h with vec := some (fn, page) }] }
    | _ => sendVector fn page t
  | none => sendVector fn page (s.setCtx ctx { s.ctx ctx with staterr := ((s.ctx ctx).staterr + 1) % 2 ^ 64 })

/-- A record about a plan; a child's is not written (R351). The final records of a context that is torn down follow its late faults (R422). -/
def planStatus (code : Nat) (p : Plan) (s : State) : State :=
  match p.queue with
  | none => s
  | some q =>
    let bs := statusBytes code p.tag.toNat p.disc p.revNo.toNat p.nexc p.nchf p.tdown p.forced p.dlk
    if (s.ctx p.ctx).teardown then s.setCtx p.ctx { s.ctx p.ctx with finals := (s.ctx p.ctx).finals ++ [(p.stat, q, bs)] }
    else writeStatus p.ctx p.stat q bs s

/-! ### The end of a plan (R316) -/

/-- R345: whether a write of a plan has still to be acknowledged, or a commit of a linked pipe to be sent (R322). -/
def writesOut (s : State) (plan : Nat) : Bool :=
  (s.groups.any fun e => e.2.place.plan == plan && (!e.2.stores.isEmpty || e.2.rem != 0)) ||
  (match findT s.plans plan with
   | some p => p.pipes.any fun q => q.remote && !(q.inState fun x => match x with | .committing _ => true | _ => false).isEmpty
   | none => false) ||
  s.flights.any fun f => (s.grp f.grp).place.plan == plan

/-- R430: the recipes of tiles in an allocation that is given back. -/
def freeRange (ctx va n : Nat) (s : State) : State :=
  (((s.ctx ctx).recipes.filter fun e => decide (va ≤ e.2.tgt.va) && decide (e.2.tgt.va < va + n)).map Prod.fst).foldl
    (fun s k => freeTile ctx k s) s

/-- R305: the allocations of a pipe given back; requests from another package are answered closed. -/
def closePipe (ctx : Nat) (s : State) (q : Pipe) : State :=
  let s := if q.remote then s
    else freeRange ctx q.mem.tileVa (q.depth * q.stride) (freeRange ctx q.mem.ringVa (q.ringCap * q.stride) s)
  q.links.foldl (fun s l => linkReply ctx q l.1 0 l.2 [0] s) s

/-- R316: a plan's resources given back and its completion recorded. -/
def completePlan (plan : Nat) (p : Plan) (s : State) : State :=
  let s := p.pipes.foldl (closePipe p.ctx) s
  planStatus (if p.disc = 0 then 1 else 2) p { s with plans := delT s.plans plan }

/-- SINK_ARRIVAL (R315, R316): the first return in flight is added. One that completes the plan waits for the plan's writes (R345). -/
def execSinkArrival (plan : Nat) (s : State) : Res :=
  match findT s.plans plan with
  | none => .next s
  | some p => match p.inflight with
    | [] => .next s
    | (w, d) :: rest =>
      let p' := { p with sink := p.sink + w, disc := p.disc + d, inflight := rest }
      if p'.sink = Int.ofNat p.tw then
        (if writesOut s plan then .next s else .next (completePlan plan p' { s with plans := setT s.plans plan p' }))
      else .next { s with plans := setT s.plans plan p' }

/-- Weight sent to a plan's sink; `d` of it counts as discarded. -/
def returnWeight (plan w d : Nat) (s : State) : State := onPlan plan (fun p => { p with inflight := p.inflight ++ [(w, d)] }) s

/-! ### Requests for saves (R415) -/

/-- The entries a core's request engine can hold: its kick queue and one waiting instance per cached record (R324, R333). -/
def engineEntries : Nat := 64 + 128

/-- R418: the sizes of the parts before the local-memory blocks. -/
def imageHeader : Nat := 256
def matrixBlock : Nat := 131136
def requestBlock (n : Nat) : Nat := (64 + 80 * n + 63) / 64 * 64

/-- The groups that run on a core for its crews. -/
def coreGroups (s : State) (core : Nat) : List Nat :=
  ((residents s core).flatMap fun e => e.2.groups).filter fun k => (s.grp k).status != .ended

/-- R415: the size of a full save of a core. -/
def fullSize (s : State) (core : Nat) : Nat :=
  imageHeader + matrixBlock + requestBlock engineEntries + 256 * 4096 + 32 * 65536 +
    ((coreGroups s core).map fun k => recordSize (shapeWords (s.grp k).place.shape)).sum

/-- R415: a place for `n` bytes in a context's save pool: the lowest at its start or behind an image. -/
def poolPlace (c : Context) (n : Nat) : Option Nat :=
  let lo := c.ccb.spool
  let hi := c.ccb.spool + 524288 * c.ccb.spsz
  let fits := fun a => decide (a + n ≤ hi) && c.images.all fun m => decide (a + n ≤ m.va) || decide (m.va + m.room ≤ a)
  ((lo :: c.images.map fun m => m.va + m.room).filter fits).foldl (fun best a => match best with
    | none => some a
    | some b => some (min a b)) none

/-- R405, R416: the hint deadline that a save requested now has, in nanoseconds. -/
def hintLimit (s : State) (ctx : Nat) : Nat := 1000 * max 1 ((s.ctx ctx).ccb.hdl % 65536)

/-- R415, R421: a save requested for a core. A second request joins the first; one that a balancer move does not make sets the deadline going
(R312). Without room in the pool nothing happens and the request is made again. -/
def requestSave (core : Nat) (move : Bool) (s : State) : State :=
  let c := s.core core
  match c.save with
  | some v =>
    if v.move && !move then s.setCore core { c with save := some { v with move := false, since := s.now, limit := hintLimit s c.ctx } } else s
  | none =>
    if (residents s core).isEmpty then s
    else match poolPlace (s.ctx c.ctx) (fullSize s core) with
    | none => s
    | some va =>
      let x := s.ctx c.ctx
      let im : Image := { id := s.serial, va := va, room := fullSize s core, plan := c.plan.getD 0, stage := c.stage, core := core, moved := move }
      let s := { s.setCtx c.ctx { x with images := x.images ++ [im] } with serial := s.serial + 1 }
      resetPairs core (onCore core (fun c => { c with save := some { since := s.now, limit := hintLimit s c.ctx, full := false, move := move, image := im.id } }) s)

/-- R312, R415: the saves a pending move still needs. -/
def requestMoves (s : State) : State :=
  s.plans.foldl (fun s e => match e.2.move with
    | none => s
    | some m => m.cores.foldl (fun s c =>
        if (residents s c).any fun r => r.2.plan == e.1 && r.2.stage == m.donor then requestSave c true s else s) s) s

/-- R372, R415: the saves that teardowns under way request: of every core with a group of the context that has not ended. -/
def requestTeardowns (s : State) : State :=
  s.cores.foldl (fun s e =>
    if (s.ctx e.2.ctx).teardown && !(coreGroups s e.1).isEmpty && e.2.save.isNone then requestSave e.1 false s else s) s

/-- Images of a context gone, their room back in the pool; waiting requests are tried again (R415). -/
def dropImages (ctx : Nat) (f : Image → Bool) (s : State) : State :=
  requestTeardowns <| requestMoves (s.setCtx ctx { s.ctx ctx with images := (s.ctx ctx).images.filter fun m => !f m })

/-- An image gone. -/
def freeImage (ctx id : Nat) (s : State) : State := dropImages ctx (fun m => m.id == id) s

/-! ### The exit of a crew (R293, R340, R414) -/

/-- The queued late faults of a group as reports (R410, R422). -/
def reportQueued (s : State) (k : Nat) : State :=
  let ctx := (s.grp k).place.ctx
  ((s.ctx ctx).late.filter fun f => f.grp == k).foldl
    (fun s f => reportGroup (s.grp k) 3 f.cls f.cause f.addr f.pc f.thr f.info (dropLate ctx f s) f.core) s

/-- R422: the queued late faults of a group that has been ended; in a teardown they follow the entries of every group that it ends. -/
def reportEnded (s : State) (k : Nat) : State := if (s.ctx (s.grp k).place.ctx).teardown then s else reportQueued s k

/-- R173, R414: the report of a group whose lmask is not zero. -/
def reportLmask (s : State) (k : Nat) : State :=
  let g := s.grp k
  if g.regs.lmask = 0 then s
  else
    let (code, addr) := g.regs.breach.getD (0, 0)
    reportGroup g 2 0 code addr 0 (lowest g.regs.lmask) g.regs.lmask.toNat s

/-- R340: a waiting instance of an exiting crew discarded. -/
def discardInst (core : Nat) (s : State) (i : Inst) : State :=
  let s := if recBar i.recd || recArr i.recd then instUpdate core i (fun b => ({ b with err := b.err ||| errCancel }).advance) s else s
  countDiscard core i.crew s

/-- The request engine of a core without a crew. -/
def Engine.without (e : Engine) (crew : Nat) : Engine :=
  { kicks := e.kicks.filter fun k => k.crew != crew, cache := e.cache.filter fun r => r.crew != crew
    waiting := e.waiting.filter fun i => i.crew != crew, running := e.running.filter fun i => i.crew != crew
    held := e.held.filter fun h => h.crew != crew, discarded := delT e.discarded crew }

/-- The slots a crew holds in a state, pipe by pipe. -/
def crewSlots (p : Plan) (f : SlotState → Bool) : List (Nat × SlotRef) :=
  (p.pipes.mapIdx fun j q => (q.inState f).map fun r => (j, r)).flatten

/-- R307: a reserved slot back to free; on a pipe that another package holds, it is told. -/
def returnReserved (plan : Nat) (s : State) (e : Nat × SlotRef) : State :=
  match findT s.plans plan, s.pipe plan e.1 with
  | some p, some q =>
    if q.remote then
      let s := s.onPipe plan e.1 fun q => q.setSlot e.2 {}
      tellPeer p.ctx q linkGiveBack 0 e.2.num s
    else serveLinks plan e.1 q.links.length (slotFreed plan e.1 (s.onPipe plan e.1 fun q => (q.setSlot e.2 {}).counted s.now))
  | _, _ => s

/-- R293: a taken slot released. -/
def releaseTaken (plan crew : Nat) (s : State) (e : Nat × SlotRef) : State :=
  s.onPipe plan e.1 fun q => q.setSlot e.2 { q.slot e.2 with state := .releasing crew, waits := [] }

/-- R292: what a stage without a live crew means for the pipes it produces here. -/
def closeProduced (plan stage : Nat) (s : State) : State :=
  match findT s.plans plan with
  | none => s
  | some p =>
    if stageLive s plan stage then s
    else (List.range p.pipes.length).foldl (fun s j =>
      if (p.pipes.getD j {}).prod ≠ stage || (p.pipes.getD j {}).link then s else wakePipe plan j false s) (tellLive plan stage s)

/-- A core that has lost its last crew: a save that waited there has nothing left to write, and its room returns to the pool (R415); the throttle ends. -/
def vacateCore (core : Nat) (s : State) : State :=
  if !(residents s core).isEmpty then s
  else
    let v := (s.core core).save
    let ctx := (s.core core).ctx
    let s := onCore core (fun c => { c with save := none, thr := false, plan := none }) s
    match v with
    | some v => dropImages ctx (fun m => m.id == v.image && !m.done) s
    | none => s

/-- A crew gone: its groups leave the machine, its weight returns to the sink, of it `d` as discarded. -/
def removeCrew (crew : Nat) (discard : Bool) (s : State) : State :=
  let c := s.crew crew
  let s := c.groups.foldl (fun s k => s.setGrp k { s.grp k with live := false }) s
  let s := onPlan c.plan (fun p => { p with nexc := p.nexc + (if 0 < c.reports then 1 else 0) }) s
  let s := returnWeight c.plan c.weight (if discard then c.weight else 0) { s with crews := delT s.crews crew }
  let s := onEngine c.core (fun e => e.without crew) s
  closeProduced c.plan c.stage (if c.saved then s else vacateCore c.core s)

/-- R249, R340: whether a crew may end: its groups have, their commands have completed, none of its records is queued, ready or running. -/
def mayExit (s : State) (k : Nat) (c : Crew) : Bool :=
  let e := (s.core c.core).eng
  !c.saved && !c.waitName && (c.groups.all fun g => (s.grp g).status == .ended && (s.grp g).mcmd == 0) &&
  !(e.kicks.any fun x => x.crew == k) && !(e.running.any fun x => x.crew == k) && !(e.waiting.any fun x => x.crew == k && x.need == 0)

/-- R411, R414: the entries of a crew's exit. -/
def exitReports (k : Nat) (c : Crew) (res taken : Nat) (s : State) : State :=
  let s := c.groups.foldl reportLmask (c.groups.foldl reportQueued s)
  let s := if res + taken = 0 then s else reportEngine c.core k 6 0 0 0 (res + taken * 65536) s
  let n := getT 0 (s.core c.core).eng.discarded k
  if n = 0 then s else reportEngine c.core k 7 0 0 0 n s

/-- R293, R340: the exit of a crew. -/
def exitCrew (k : Nat) (c : Crew) (s : State) : State :=
  let s := ((s.core c.core).eng.waiting.filter fun i => i.crew == k).foldl (discardInst c.core) s
  let slots := fun (f : SlotState → Bool) => match findT s.plans c.plan with | some p => crewSlots p f | none => []
  let res := slots (· == .reserved k)
  let taken := slots (· == .taken k)
  let s := taken.foldl (releaseTaken c.plan k) (res.foldl (returnReserved c.plan) s)
  removeCrew k false (exitReports k c res.length taken.length s)

/-- CREW_EXIT. -/
def execCrewExit (crew : Nat) (s : State) : Res :=
  match findT s.crews crew with
  | none => .next s
  | some c => if mayExit s crew c then .next (exitCrew crew c s) else .next s

end Sys2Proof.Machine
end

