-- ==== Sys2Proof/Machine/Save.lean ====
section
/-! DEFINITION. Saving and restoring cores (R349, R415 to R421): the image in the save pool, HINT_DEADLINE, SAVE_COMPLETE, RESTORE,
and the end of crews in their images (R320, R422). -/
namespace Sys2Proof.Machine

/-! ### HINT_DEADLINE (R416) -/

/-- R245, R339, R417: whether the lane waits with an irrevocable instruction that has not begun: in its commit wait, or for a free queue entry. -/
def notBegun (g : Group) : Bool :=
  match g.word with
  | some w => (match decode w with
    | .ok i => (useOf g.regs.fmt i).irr && (g.hold == some stallChunk || g.hold == some stallMq)
    | .error _ => false)
  | none => false

/-- R416, R417: whether a full save can stop a group where it stands: at a clause boundary, suspended, or with an irrevocable instruction that has
not begun. A group that is about to take a fault or to end is not stopped. -/
def stoppable (g : Group) : Bool :=
  g.live && g.place.slice.isNone && g.pend.isNone && !g.exiting &&
  match g.status with
  | .waiting => true
  | .suspended (.parked _) | .suspended .stopped => false
  | .suspended _ => true
  | .issuing => g.clause.isNone || notBegun g
  | .saved | .ended => false

/-- R61, R417: a group stopped between clauses goes on at the first instruction of its next clause, at which the header's waits act again. One
without a clause to go on with keeps its program counter, and meets the fault of R60 there. -/
def toFirst (s : State) (g : Group) : Group :=
  if g.entry != .header then g
  else match locate s g with
  | .ok (c, true) => { g with pc := c.first, entry := .resume }
  | _ => g

/-- R416: a group stopped. Its open chunk closes, and a chunk that cannot yet commit is squashed (R452); its watch is dropped (R417), and it
reserves nothing of a linked pipe (R295). -/
def stopGroup (s : State) (k : Nat) : State :=
  let s := dropAsk k s
  let g := closeChunk (s.grp k)
  let inside := g.status == .issuing && g.clause.isSome
  let g := if inside then { g with entry := .resume } else if g.status == .issuing || g.status == .waiting then toFirst s g else g
  let s := s.setGrp k { g with status := .suspended .stopped, hold := none, clause := none, last := s.now }
  let s := match g.chunks.find? fun c => !mayCommit s k c with
    | some c => squash true k c.no s
    | none => s
  denState k .moving { s with watches := s.watches.filter fun w => w.2 != k }

/-- HINT_DEADLINE. A save for a balancer move has no deadline (R312). -/
def execHintDeadline (core : Nat) (s : State) : Res :=
  let c := s.core core
  match c.save with
  | none => .next s
  | some v =>
    if v.move ∨ (!v.full ∧ (s.now < v.since + v.limit ∨ atRest s core)) then .next s
    else
      let s := onCore core (fun c => { c with save := some { v with full := true } }) s
      .next (((coreGroups s core).filter fun k => stoppable (s.grp k)).foldl stopGroup s)

/-! ### SAVE_COMPLETE (R416, R418, R419) -/

/-- R416: whether a group has come to rest with nothing of it under way in the core. -/
def groupAtRest (s : State) (k : Nat) : Bool :=
  let g := s.grp k
  g.status == .ended ||
  (!g.uncommitted && g.loads.isEmpty && (g.stores.all fun x => match x.kind with | .remote .. => true | _ => false) && g.mcmd == 0 &&
    (g.place.name == nullName || (s.denEntry (nameIndex g.place.name)).fwd == 0))

/-- R339, R416, R440: whether the image can be written. -/
def saveReady (s : State) (core : Nat) : Bool :=
  let c := s.core core
  atRest s core && !(residents s core).isEmpty && ((residents s core).all fun e => e.2.groups.all (groupAtRest s)) &&
  c.eng.running.isEmpty && c.mat.queue.isEmpty && c.mat.run.isEmpty && (List.range 4).all fun l => (sliceOn s core l).isNone

/-- R371: the liveness record of a parked group: its vector, local-memory and accumulator masks. A record that cannot be read saves all. -/
def hintMasks (s : State) (k : Nat) : Nat × Nat × Nat :=
  match (s.grp k).status with
  | .suspended (.parked a) =>
    match readVirtual s (s.grp k).place.ctx a 64 with
    | some bs => (bitsN (leNat bs) 0 128, bitsN (leNat bs) 128 256, bitsN (leNat bs) 384 32)
    | none => (2 ^ 128 - 1, 2 ^ 256 - 1, 2 ^ 32 - 1)
  | _ => (2 ^ 128 - 1, 2 ^ 256 - 1, 2 ^ 32 - 1)

/-- The number of the 128 registers that satisfy a test. -/
def bitsIn (p : Nat → Bool) : Nat := (List.range 128).foldl (fun m r => if p r then m + 2 ^ r else m) 0

/-- R419, R420: the registers of a group that a save writes: those its record names, or every one, and those held or watched. -/
def savedMask (s : State) (k : Nat) (full : Bool) : Nat :=
  let g := s.grp k
  let armed := g.holds.foldl (fun acc e => if e.2.held || e.2.watched then acc ||| 2 ^ e.1 else acc) 0
  ((if full then 2 ^ 128 - 1 else (hintMasks s k).1) ||| armed) &&& (bitsIn fun r => hasReg g.place.shape r)

/-- The numbers of the bits that are set. -/
def bitsOf (n mask : Nat) : List Nat := (List.range n).filter fun i => bitN mask i

/-- R418: the image header. -/
def headerBytes (size crews groups lm inited acc : Nat) (weights : List Nat) : List Byte :=
  leBytes imageHeader
    (size + crews * 2 ^ 64 + groups * 2 ^ 72 + lm * 2 ^ 128 + inited * 2 ^ 384 + acc * 2 ^ 640
      + (weights.take 4).foldr (fun w n => w % 2 ^ 64 + 2 ^ 64 * n) 0 * 2 ^ 704)

/-- R418: the weights of the crews of a core by their indices, zero for those that are absent. -/
def crewWeights (l : List (Nat × Crew)) : List Nat := (List.range 4).map fun i => match l.find? fun e => e.2.index == i with | some e => e.2.weight | none => 0

/-- R418: a plane in the matrix block: its rows packed in its format, one behind the other (log 86). -/
def planeBytes (p : Plane) : List Byte :=
  let bs := p.rows.flatMap fun r => packBits r (fmtElem p.bfmt.toNat).width
  bs ++ List.replicate (65536 - bs.length) 0

/-- R418: what the last 64 bytes of the matrix block say of a plane (log 86). -/
def planeMeta (p : Plane) : Nat := p.bfmt.toNat + 16 * b2n p.dup + 32 * b2n p.full

/-- R418: the matrix block. -/
def matrixBytes (m : Matrix) : List Byte :=
  planeBytes m.plane0 ++ planeBytes m.plane1 ++
    leBytes 64 (b2n m.live + 2 ^ 32 * m.gen.toNat + 2 ^ 64 * m.map.toNat + 2 ^ 128 * planeMeta m.plane0 + 2 ^ 136 * planeMeta m.plane1)

/-- R418: an entry of the request block: record copy, count, held arrivals, crew (log 86). -/
def entryBytes (recd : List Byte) (count held crew : Nat) : List Byte :=
  (recd ++ List.replicate (64 - recd.length) 0) ++ leBytes 16 (count % 256 + 256 * (held % 256) + 65536 * crew)

/-- R339, R418: the request block: the KICKs in the queue, then the waiting instances. -/
def requestBytes (s : State) (e : Engine) : List Byte :=
  let bs := leBytes 64 (e.kicks.length + e.waiting.length) ++
    (e.kicks.flatMap fun k => entryBytes [] 0 0 (s.crew k.crew).index) ++
    e.waiting.flatMap fun i => entryBytes i.recd i.need ((e.held.filter fun h => h.isFor i.crew i.index).length) (s.crew i.crew).index
  bs ++ List.replicate (requestBlock (e.kicks.length + e.waiting.length) - bs.length) 0

/-- R418: the sixteen accumulator rows of a block. -/
def accBytes (m : Matrix) (block : Nat) : List Byte :=
  (List.range 16).flatMap fun r => (List.range 1024).flatMap fun c => leBytes 4 (getT 0 m.acc (1024 * (16 * block + r) + c)).toNat

/-- R418: where the local-memory blocks of an image with `n` request entries begin. -/
def blocksAt (n : Nat) : Nat := imageHeader + matrixBlock + requestBlock n

/-- R419: a group's record written, and the registers that it saves. -/
def writeRecord (ctx va saved : Nat) (s : State) (k : Nat) : State :=
  let g := s.grp k
  let s := putBytes ctx va (recordBytes g saved) s
  (bitsOf 128 saved).foldl (fun s r =>
    putBytes ctx (va + regOffset g.place.shape r) ((storage g.place.shape g.regs.v (BitVec.ofNat 7 r)).flatMap fun w => leBytes 4 w.toNat) s) s

/-- R418: the records of groups written one behind the other, and each group put into its image. -/
def writeRecords (ctx : Nat) (full : Bool) : List Nat → Nat → State → State
  | [], _, s => s
  | k :: ks, va, s =>
    let s := writeRecord ctx va (savedMask s k full) s k
    let g := s.grp k
    let s := denState k .saved (s.setGrp k { g with status := .saved, hold := none, image := some va, regs := { g.regs with flg := 0 } })
    writeRecords ctx full ks (va + recordSize (shapeWords g.place.shape)) s

/-- The request engine's entries that an image keeps (R339). -/
def Engine.kept (e : Engine) : Engine :=
  { e with cache := e.cache.filter fun r => e.waiting.any fun i => i.crew == r.crew && i.index == r.index }

/-- R418: a core's image written at its place. -/
def writeImage (core : Nat) (full : Bool) (im : Image) (s : State) : State :=
  let c := s.core core
  let ctx := c.ctx
  let gs := (coreGroups s core).filter fun k => !(s.crew (s.grp k).place.crew).waitName
  let masks := gs.map (hintMasks s)
  let lm := if full then c.inited.toNat else masks.foldl (fun a m => a ||| m.2.1) 0
  let acc := if full then 2 ^ 32 - 1 else masks.foldl (fun a m => a ||| m.2.2) 0
  let n := c.eng.kicks.length + c.eng.waiting.length
  let recs := blocksAt n + 4096 * (bitsOf 256 lm).length + 65536 * (bitsOf 32 acc).length
  let size := recs + (gs.map fun k => recordSize (shapeWords (s.grp k).place.shape)).sum
  let crews := residents s core
  let s := putBytes ctx im.va
    (headerBytes size crews.length gs.length lm c.inited.toNat acc (crewWeights crews) ++ matrixBytes c.mat ++ requestBytes s c.eng) s
  let s := ((bitsOf 256 lm).mapIdx fun i j => (i, j)).foldl (fun s e =>
    putBytes ctx (im.va + blocksAt n + 4096 * e.1) (readBytes c.lm (4096 * e.2) 4096) s) s
  let s := ((bitsOf 32 acc).mapIdx fun i j => (i, j)).foldl (fun s e =>
    putBytes ctx (im.va + blocksAt n + 4096 * (bitsOf 256 lm).length + 65536 * e.1) (accBytes c.mat e.2) s) s
  writeRecords ctx full gs (im.va + recs) s

/-- R388, R389, R414, R422: a group of a saved crew ended in its image: its Den entry keeps the address of its record until the name is released. Its late
faults are reported after it, those of a context that is torn down once all its groups have ended. -/
def endSaved (s : State) (g : Nat) : State :=
  if (s.grp g).status == .ended then s
  else
    let x := s.grp g
    let s := if x.place.name == nullName then s else onDen (nameIndex x.place.name) (fun e => { e with area := x.image.getD 0 }) s
    let s := finishGroup g 2 (reportGroup x 8 0 0 0 0 0 0 s)
    reportEnded (s.setGrp g { s.grp g with image := none }) g

/-- R388, R414: a saved crew ended in its image by a drain or a teardown. -/
def endSavedCrew (s : State) (k : Nat) : State := removeCrew k true ((s.crew k).groups.foldl endSaved s)

/-- R320, R422: an image ended without restore. -/
def endImage (ctx : Nat) (im : Image) (s : State) : State := freeImage ctx im.id (im.crews.foldl endSavedCrew s)

/-- R416: the image written, the crews saved, the core free. -/
def saveCore (core : Nat) (v : Saving) (im : Image) (s : State) : State :=
  let c := s.core core
  let crews := (residents s core).map Prod.fst
  let groups := (residents s core).flatMap fun e => e.2.groups
  let s := writeImage core v.full im s
  let im := { im with crews := crews, groups := groups, time := s.now, moved := v.move, done := true
                      eng := c.eng.kept }
  let x := s.ctx c.ctx
  let s := s.setCtx c.ctx { x with images := x.images.map fun m => if m.id == im.id then im else m }
  let s := crews.foldl (fun s k => onCrew k (fun c => { c with saved := true }) s) s
  let s := onCore core (fun c => { c with save := none, thr := false, plan := none, eng := {}, mat := {} }) s
  match findT s.plans im.plan with
  | some p => if p.forced then endImage c.ctx im s else s
  | none => s

/-- SAVE_COMPLETE. -/
def execSaveComplete (core : Nat) (s : State) : Res :=
  let c := s.core core
  match c.save with
  | none => .next s
  | some v => match (s.ctx c.ctx).images.find? fun m => m.id == v.image with
    | none => .next s
    | some im => if saveReady s core then .next (saveCore core v im s) else .next s

/-! ### RESTORE (R349, R420) -/

/-- R312, R349: whether a core can take an image. -/
def takesImage (s : State) (core : Nat) : Bool :=
  coreFree s core && (s.core core).heldFor.isNone && !(s.core core).fenced && !movePending s core

/-- The mesh distance of two cores (R4). -/
def meshDistance (a b : Nat) : Nat :=
  let d := fun (x y : Nat) => max x y - min x y
  d (a % 16) (b % 16) + d (a / 16) (b / 16)

/-- R312: the cores of a stage that a pending move leaves it. -/
def Plan.keeps (p : Plan) (stage : Nat) : List Nat :=
  match p.move with
  | some m => if m.donor = stage then (p.stage stage).cores.filter fun c => !m.cores.contains c else (p.stage stage).cores
  | none => (p.stage stage).cores

/-- R312, R349: the core an image is restored onto now, if any. -/
def restoreTarget (s : State) (im : Image) : Option Nat :=
  match findT s.plans im.plan with
  | none => none
  | some p =>
    let free := (p.keeps im.stage).filter (takesImage s)
    if im.into.isSome then none
    else if im.moved then free.head?
    else if free.contains im.core then some im.core
    else free.foldl (fun best c => match best with
      | none => some c
      | some b => if meshDistance c im.core < meshDistance b im.core then some c else some b) none

/-- The images written, with their contexts. -/
def allImages (s : State) : List (Nat × Image) := s.ctxs.flatMap fun c => (c.2.images.filter Image.done).map fun m => (c.1, m)

/-- The priority of an image's plan. -/
def imagePri (s : State) (m : Image) : Nat := match findT s.plans m.plan with | some p => p.pri | none => 0

/-- R349: whether image `a` is taken before image `b`: by plan priority, then by save time. -/
def imageBefore (s : State) (a b : Image) : Bool :=
  decide (imagePri s b < imagePri s a) ||
  (imagePri s a == imagePri s b && (decide (a.time < b.time) || (a.time == b.time && decide (a.id < b.id))))

/-- R349: whether an image goes onto a core next. -/
def restoresTo (s : State) (im : Image) (core : Nat) : Bool :=
  restoreTarget s im == some core && !(allImages s).any fun e => imageBefore s e.2 im && restoreTarget s e.2 == some core

/-- R420: the registers of a record: those it saved or a delivery wrote; every other starts at zero. -/
def restoreRegs (s : State) (ctx va : Nat) (sh : BitVec 256) (mask : Nat) : Tab Word :=
  (bitsOf 128 mask).foldl (fun v r =>
    let n := regWords sh r
    putWords v (BitVec.ofNat 7 r) 0 ((List.range n).map fun i => BitVec.ofNat 32 (getLE s ctx (va + regOffset sh r + 4 * i) 4))) []

/-- R419, R420: a group restored from its record, at a lane and slot of a core. Its last issue counts as ended now (DESIGN CHOICE, log 96). -/
def restoreGroup (core lane slot : Nat) (s : State) (k : Nat) : State :=
  let g := s.grp k
  match g.image with
  | none => s
  | some va =>
    let ctx := g.place.ctx
    let h := getLE s ctx va recordHeader
    let word := fun byte => BitVec.ofNat 32 (bitsN h (8 * byte) 32)
    let regs : Regs := { g.regs with
      v := restoreRegs s ctx va g.place.shape (bitsN h (8 * 208) 128 ||| bitsN h (8 * 192) 128)
      p := (List.range 7).map fun p => (p, word (32 + 4 * p))
      fmt := word 12, flg := word 16 ||| g.regs.flg, lmask := word 20, chklim := word 24, stk := word 28, amask := word 8
      stack := ((List.range (min 32 (bitsN h (8 * 60) 32))).map fun i => entryOf (BitVec.ofNat 128 (bitsN h (8 * 320 + 128 * i) 128))).reverse }
    let holds := g.holds.map Prod.fst ++ (List.range 128).filter fun i => bitsN h (8 * (64 + i)) 8 != 0
    let g := { g with
      regs := regs, pc := BitVec.ofNat 48 (bitsN h 0 48), status := .waiting, w := 0, image := none, hold := none, last := s.now
      holds := holds.eraseDups.foldl (fun t i => setT t i (holdOfByte (getT {} g.holds i) (bitsN h (8 * (64 + i)) 8))) []
      watch := watchOf (bitsN h (8 * 224) 512)
      place := { g.place with core := core, lane := lane, slot := slot } }
    denState k .resident (s.setGrp k g)

/-- R418: a plane read back from an image. -/
def restorePlane (s : State) (ctx va info : Nat) : Plane :=
  let b := bitsN info 0 4
  { full := bitN info 5, bfmt := BitVec.ofNat 4 b, dup := bitN info 4
    rows := if bitN info 5 then (List.range (planeK b)).map fun k => unpackBits (getBytes s ctx (va + k * rowBytes b) (rowBytes b)) 256 (fmtElem b).width
            else [] }

/-- R418: the matrix engine read back from an image, with the accumulator elements. -/
def restoreMatrix (s : State) (ctx va : Nat) (acc : Tab Word) : Matrix :=
  let t := getLE s ctx (va + 131072) 64
  { plane0 := restorePlane s ctx va (bitsN t 128 8), plane1 := restorePlane s ctx (va + 65536) (bitsN t 136 8)
    live := bitN t 0, gen := BitVec.ofNat 32 (bitsN t 32 32), map := BitVec.ofNat 64 (bitsN t 64 64), acc := acc }

/-- R339, R418: the request engine read back from an image: each entry with its record copy, count, crew and held arrivals. -/
def restoreEngine (s : State) (ctx : Nat) (im : Image) : Engine :=
  let e := im.eng
  let at' := fun j => im.va + imageHeader + matrixBlock + 64 + 80 * j
  let crew := fun j old => (im.crews.find? fun k => (s.crew k).index == getLE s ctx (at' j + 66) 14).getD old
  let read := e.waiting.mapIdx fun n i =>
    let j := e.kicks.length + n
    let was := e.held.filter fun h => h.isFor i.crew i.index
    let i' := { i with recd := getBytes s ctx (at' j) 64, need := getLE s ctx (at' j + 64) 1, crew := crew j i.crew }
    (i', (List.range (getLE s ctx (at' j + 65) 1)).map fun x =>
      { was.getD x { crew := 0, index := 0, grp := i.grp, fmt := i.fmt, kick := none } with crew := i'.crew, index := i.index })
  { e with kicks := e.kicks.mapIdx fun j k => { k with crew := crew j k.crew }
           waiting := read.map Prod.fst, held := read.flatMap Prod.snd
           cache := e.cache.filterMap fun r =>
             (e.waiting.zip (read.map Prod.fst)).findSome? fun x =>
               if x.1.crew == r.crew && x.1.index == r.index then some { crew := x.2.crew, index := r.index, bytes := x.2.recd } else none }

/-- R418: the local memory, the matrix engine and the request engine of an image. -/
def restoreCore (s : State) (ctx : Nat) (im : Image) (p : Plan) (c : Core) : Core :=
  let lm := getLE s ctx (im.va + 16) 32
  let acc := getLE s ctx (im.va + 80) 4
  let at' := im.va + blocksAt (im.eng.kicks.length + im.eng.waiting.length)
  let mem := ((bitsOf 256 lm).mapIdx fun i j => (i, j)).foldl (fun m e => writeBytes m (4096 * e.2) (getBytes s ctx (at' + 4096 * e.1) 4096)) c.lm
  let accAt := at' + 4096 * (bitsOf 256 lm).length
  let rows := ((bitsOf 32 acc).mapIdx fun i j => (i, j)).flatMap fun e =>
    (List.range 16384).map fun n => (16384 * e.2 + n, BitVec.ofNat 32 (getLE s ctx (accAt + 65536 * e.1 + 4 * n) 4))
  { freshCore im.plan im.stage ctx p.revNo.toNat { p.stage im.stage with preload := [] } c with
    lm := mem, inited := BitVec.ofNat 256 (getLE s ctx (im.va + 48) 32 ||| lm)
    badRow := c.badRow.filter fun r => !bitN lm (r / 256)
    mat := restoreMatrix s ctx (im.va + imageHeader) (rows.filter fun e => e.2 != 0), eng := restoreEngine s ctx im
    thr := p.pipes.any fun q => q.produced && q.prod == im.stage && q.relayed }

/-- R198, R420: the groups of an image take the lowest free slots. -/
def restoreGroups (core per : Nat) (gs : List Nat) (s : State) : State :=
  (gs.mapIdx fun q k => (q, k)).foldl (fun s e => restoreGroup core (e.1 / per) (e.1 % per) s e.2) s

/-- R420: an image restored as a whole. -/
def restoreImage (ctx : Nat) (im : Image) (p : Plan) (core : Nat) (s : State) : State :=
  let s := onCore core (restoreCore s ctx im p) s
  let s := resetPairs core s
  let s := im.crews.foldl (fun s k => onCrew k (fun c => { c with saved := false, core := core }) s) s
  let s := restoreGroups core (p.stage im.stage).perLane (im.groups.filter fun k => (s.grp k).image.isSome) s
  let s := im.groups.foldl (fun s k => s.setGrp k { s.grp k with place := { (s.grp k).place with core := core } }) s
  freeImage ctx im.id (im.crews.foldl (fun s k => takeNames k s) s)

/-- R390, R420: a restore begun: the core is the image's, and the names of its groups are MOVING. -/
def beginRestore (ctx : Nat) (im : Image) (core : Nat) (s : State) : State :=
  let x := s.ctx ctx
  im.groups.foldl (fun s k => if (s.grp k).image.isSome then denState k .moving s else s)
    (s.setCtx ctx { x with images := x.images.map fun m => if m.id == im.id then { m with into := some core } else m })

/-- RESTORE: it begins, and, taken again for that core, has loaded the image (R390). -/
def execRestore (image core : Nat) (s : State) : Res :=
  match (allImages s).find? fun e => e.2.id == image with
  | none => .next s
  | some (ctx, im) => match findT s.plans im.plan, im.into with
    | some p, some c => .next (if c = core then restoreImage ctx im p core s else s)
    | some _, none => .next (if restoresTo s im core then beginRestore ctx im core s else s)
    | none, _ => .next s

end Sys2Proof.Machine
end

