-- ==== Sys2Proof/Machine/Plans.lean ====
section
/-! DEFINITION. Drains, the balancer, deadlock among pipes (R311 to R320): BALANCER_SAMPLE, PLAN_REVISION_PUBLISH, PLAN_REVISION_APPLY,
SHADOW_PROBE, DEADLOCK_DECLARE, FORCED_DRAIN_TIMEOUT. -/
namespace Sys2Proof.Machine

/-! ### Drains (R319, R320) -/

/-- R322: the requests of another package for slots of a closed pipe answered with the closed token. -/
def refuseLinks (plan : Nat) (s : State) (j : Nat) : State :=
  match findT s.plans plan, s.pipe plan j with
  | some p, some q =>
    if closedToProducer p q then
      let s := s.onPipe plan j fun q => { q with links := [] }
      q.links.foldl (fun s l => linkReply p.ctx q l.1 0 l.2 [0] s) s
    else s
  | _, _ => s

/-- R292: what follows where a pipe has closed: the groups suspended on a side it has closed to try again, other packages' requests are refused. -/
def afterClose (plan : Nat) (s : State) (j : Nat) : State :=
  match findT s.plans plan, s.pipe plan j with
  | some p, some q =>
    let s := if closedToProducer p q then wakePipe plan j true s else s
    let s := if closedToConsumer s plan p q then wakePipe plan j false s else s
    refuseLinks plan s j
  | _, _ => s

/-- R319: whether a stage consumes a pipe of its plan. -/
def Plan.consumes (p : Plan) (stage : Nat) : Bool := p.pipes.any fun q => q.cons == stage && !q.remote

/-- R319: the pipes that an orderly drain closes to their producers. -/
def Plan.sources (p : Plan) : List Nat :=
  (List.range p.pipes.length).filter fun j => (p.pipes[j]?).any fun q => q.produced && !p.consumes q.prod

/-- R319: an orderly drain. -/
def orderlyDrain (plan : Nat) (s : State) : State :=
  match findT s.plans plan with
  | none => s
  | some p =>
    let closed := p.pipes.mapIdx fun j q => if p.sources.contains j then { q with closedP := true } else q
    p.sources.foldl (afterClose plan) (onPlan plan (fun p => { p with pipes := closed }) s)

/-- R307, R320: the shares of the slots that a forced drain discards. -/
def Pipe.shares (q : Pipe) : Nat :=
  ((q.inState fun x => match x with | .committing _ | .committed => true | _ => false).map fun r => (q.slot r).share).sum

/-- R307, R320: every open slot of a pipe discarded. -/
def Pipe.discard (q : Pipe) : Pipe :=
  (q.refs.foldl (fun q r => q.setSlot r { q.slot r with state := .discarded, share := 0, waits := [] }) q).evaluate

/-- R307, R440: the references of the recipes that discarded slots carry given up. -/
def dropSlotRecipes (ctx : Nat) (s : State) (q : Pipe) : State :=
  if !q.rcp || q.remote then s
  else q.refs.foldl (fun s r => match recipeAt (s.ctx ctx) (q.tileAddr r) with
    | some (k, _) => freeRecipe ctx k s
    | none => s) s

/-- R322: the slots of a linked pipe that this side has reserved, or whose commit it has not sent, given back to the package that holds them. -/
def returnLinked (plan : Nat) (s : State) : State :=
  match findT s.plans plan with
  | none => s
  | some p =>
    (crewSlots p fun x => match x with | .reserved _ | .committing _ => true | _ => false).foldl (fun s e =>
      match s.pipe plan e.1 with
      | some q => if q.remote then returnReserved plan s e else s
      | none => s) s

/-- R320: a forced drain begins. Crews that stand saved are ended in their images. -/
def forcedDrain (plan : Nat) (tdown : Bool) (s : State) : State :=
  match findT s.plans plan with
  | none => s
  | some p =>
    let s := onPlan plan (fun p => { p with tdown := p.tdown || tdown }) s
    if p.forced then s
    else
      let s := returnLinked plan s
      let s := p.pipes.foldl (dropSlotRecipes p.ctx) s
      let share := (p.pipes.map Pipe.shares).sum
      let s := onPlan plan (fun p => { p with forced := true, forcedAt := s.now, move := none, nextRev := none, pipes := p.pipes.map Pipe.discard }) s
      let s := if share = 0 then s else returnWeight plan share share s
      let s := (List.range p.pipes.length).foldl (afterClose plan) s
      ((allImages s).filter fun e => e.2.plan == plan).foldl (fun s e => endImage e.1 e.2 s) s

/-- R320, R422: a live group ended where it stands, with a report of kind 0x08. -/
def endLive (s : State) (k : Nat) : State :=
  let g := s.grp k
  if g.status == .ended then s
  else
    let s := dropAsk k (squashAll false k s)
    let s := finishGroup k 2 (reportGroup g 8 0 0 0 0 0 0 s)
    reportEnded (s.setGrp k { s.grp k with loads := [], mcmd := 0 }) k

/-- The commands of a crew's groups gone from their matrix engine. -/
def dropCommands (groups : List Nat) (m : Matrix) : Matrix :=
  { m with queue := m.queue.filter fun c => !groups.contains c.grp, run := m.run.filter fun c => !groups.contains c.2.grp }

/-- R320: a resident crew ended where it stands. -/
def endCrew (s : State) (k : Nat) : State :=
  let c := s.crew k
  let s := c.groups.foldl endLive s
  let s := onCore c.core (fun x => { x with mat := dropCommands c.groups x.mat }) s
  removeCrew k true s

/-- The resident crews of a plan. -/
def planCrews (s : State) (plan : Nat) : List Nat := (s.crews.filter fun e => e.2.plan == plan && !e.2.saved).map Prod.fst

/-- FORCED_DRAIN_TIMEOUT (R320). -/
def execForcedDrainTimeout (plan : Nat) (s : State) : Res :=
  match findT s.plans plan with
  | none => .next s
  | some p => if p.forced ∧ p.forcedAt + 200000 ≤ s.now then .next ((planCrews s plan).foldl endCrew s) else .next s

/-! ### The balancer (R311 to R313) -/

/-- R311: whether two rectangles share one whole edge; the answer says whether the edge is vertical. -/
def sharedEdge (a b : Stage) : Option Bool :=
  if a.y = b.y ∧ a.h = b.h ∧ (a.x + a.w = b.x ∨ b.x + b.w = a.x) then some true
  else if a.x = b.x ∧ a.w = b.w ∧ (a.y + a.h = b.y ∨ b.y + b.h = a.y) then some false
  else none

/-- The pipes that a stage consumes or produces here. -/
def Plan.consumed (p : Plan) (i : Nat) : List Pipe := p.pipes.filter fun q => q.cons == i && !q.remote
def Plan.produced (p : Plan) (i : Nat) : List Pipe := p.pipes.filter fun q => q.prod == i && q.produced

/-- R311, R322: a pipe's occupancy as a sample has it; that of a linked pipe is asked of the package that holds it. -/
def Pipe.filled (q : Pipe) : Nat := if q.remote then q.far else q.occupancy

/-- R309, R311: whether a pipe stands at its high watermark. -/
def Pipe.high (q : Pipe) : Bool := decide (q.hi ≤ q.filled)

/-- R311: the classes of a stage. -/
def Plan.receiver (p : Plan) (i : Nat) : Bool := !(p.stage i).fixed && (p.consumed i).any Pipe.high
def Plan.donor (p : Plan) (i : Nat) : Bool := !(p.stage i).fixed && (p.produced i).any Pipe.high && !(p.consumed i).any Pipe.high

/-- R311: the donor's extent across the shared edge. -/
def acrossEdge (donor : Stage) (vertical : Bool) : Nat := if vertical then donor.w else donor.h

/-- R311: the pairs of adjacent stages that are donor and receiver in a sample. -/
def Plan.pairs (p : Plan) : List (Nat × Nat) :=
  ((List.range p.stages.length).flatMap fun d => (List.range p.stages.length).map fun r => (d, r)).filter fun e =>
    p.donor e.1 && p.receiver e.2 && (sharedEdge (p.stage e.1) (p.stage e.2)).isSome

/-- R311: whether a pair may move: it has been donor and receiver in bstk samples running, and the donor's extent across the edge exceeds 1. -/
def Plan.ripe (p : Plan) (e : (Nat × Nat) × Nat) : Bool :=
  decide (p.bstk ≤ e.2) && (sharedEdge (p.stage e.1.1) (p.stage e.1.2)).any fun v => decide (1 < acrossEdge (p.stage e.1.1) v)

/-- R311: the greatest occupancy over hi of the pipes a receiver consumes, as a fraction. -/
def Plan.load (p : Plan) (r : Nat) : Nat × Nat :=
  (p.consumed r).foldl (fun best q => if best.1 * q.hi < q.occupancy * best.2 then (q.occupancy, q.hi) else best) (0, 1)

/-- R311: whether pair `a` is picked before pair `b`: by load, then by receiver, then by donor. -/
def Plan.pairBefore (p : Plan) (a b : Nat × Nat) : Bool :=
  let x := p.load a.2
  let y := p.load b.2
  decide (y.1 * x.2 < x.1 * y.2) || (x.1 * y.2 == y.1 * x.2 && (decide (a.2 < b.2) || (a.2 == b.2 && decide (a.1 < b.1))))

/-- R311: the pair the balancer picks. -/
def Plan.pick (p : Plan) (l : List (Nat × Nat)) : Option (Nat × Nat) :=
  l.foldl (fun best e => match best with
    | none => some e
    | some b => if p.pairBefore e b then some e else some b) none

/-- R312: the donor's row or column on the shared edge. -/
def moveCores (donor recv : Stage) : List Nat :=
  match sharedEdge donor recv with
  | some true => rectCores (if donor.x < recv.x then donor.x + donor.w - 1 else donor.x) donor.y 1 donor.h
  | some false => rectCores donor.x (if donor.y < recv.y then donor.y + donor.h - 1 else donor.y) donor.w 1
  | none => []

/-- R311: the streaks after a sample. -/
def Plan.streaks (p : Plan) : List ((Nat × Nat) × Nat) :=
  p.pairs.map fun e => (e, match p.streak.find? fun x => x.1 == e with | some x => x.2 + 1 | none => 1)

/-- R311, R322: the packages that hold pipes which a plan produces are asked for their occupancy. -/
def askFills (plan : Nat) (p : Plan) (s : State) : State :=
  (List.range p.pipes.length).foldl (fun s j =>
    let q := p.pipes.getD j {}
    if q.remote && q.peer.isSome then tellPeer p.ctx q linkFill 0 0 (s.onPipe plan j fun q => { q with sampling := true }) else s)
    (onPlan plan (fun p => { p with asking := true }) s)

/-- R311: a plan after a sample: its streaks, and the move it has picked, if it may make one. -/
def Plan.sampled (p : Plan) : Plan :=
  let p := { p with nextSample := p.nextSample + 1000 * p.bper, asking := false, streak := p.streaks }
  let pick := if p.forced || p.move.isSome then none
    else p.pick ((p.streak.filter p.ripe).map Prod.fst)
  match pick with
  | some (d, r) => { p with move := some { donor := d, recv := r, cores := moveCores (p.stage d) (p.stage r) } }
  | none => p

/-- BALANCER_SAMPLE (R311): taken once the occupancies of the linked pipes that the plan produces are known (log 98). -/
def execBalancerSample (plan : Nat) (s : State) : Res :=
  match findT s.plans plan with
  | none => .next s
  | some p =>
    if p.bper = 0 ∨ s.now < p.nextSample then .next s
    else if !p.asking && p.pipes.any (fun q => q.remote && q.peer.isSome) then .next (askFills plan p s)
    else if p.pipes.any Pipe.sampling then .next s
    else .next (requestMoves { s with plans := setT s.plans plan p.sampled })

/-- R195, R312: whether a donor crew remains on a moved core, or its save there is not yet done. -/
def donorStays (s : State) (m : Move) : Bool := m.cores.any fun c => !coreFree s c

/-- R312: the smallest rectangle around two that share an edge, or what is left of one. -/
def movedStages (p : Plan) (m : Move) : List Stage :=
  let d := p.stage m.donor
  let r := p.stage m.recv
  let (d', r') := match sharedEdge d r with
    | some true =>
      if d.x < r.x then ({ d with w := d.w - 1 }, { r with x := r.x - 1, w := r.w + 1 })
      else ({ d with x := d.x + 1, w := d.w - 1 }, { r with w := r.w + 1 })
    | some false =>
      if d.y < r.y then ({ d with h := d.h - 1 }, { r with y := r.y - 1, h := r.h + 1 })
      else ({ d with y := d.y + 1, h := d.h - 1 }, { r with h := r.h + 1 })
    | none => (d, r)
  p.stages.mapIdx fun i x => if i = m.donor then d' else if i = m.recv then r' else x

/-- PLAN_REVISION_PUBLISH (R313): the revision takes effect a microsecond later. -/
def execPlanRevisionPublish (plan : Nat) (s : State) : Res :=
  match findT s.plans plan with
  | none => .next s
  | some p => match p.move with
    | none => .next s
    | some m =>
      if p.nextRev.isSome ∨ donorStays s m then .next s
      else .next { s with plans := setT s.plans plan { p with nextRev := some (s.now + 1000, movedStages p m) } }

/-- R313, R315: the receiver's crews started on a moved core; each borrows its weight. -/
def startMoved (plan recv n : Nat) (s : State) (core : Nat) : State :=
  let s := resetPairs core (startOn plan recv core (List.replicate n 0) s)
  ((residents s core).map Prod.fst).foldl (fun s k => borrowFor k s) s

/-- PLAN_REVISION_APPLY (R313). -/
def execPlanRevisionApply (plan : Nat) (s : State) : Res :=
  match findT s.plans plan with
  | none => .next s
  | some p => match p.nextRev, p.move with
    | some (t, stages), some m =>
      if s.now < t ∨ donorStays s m then .next s
      else
        let p := { p with stages := stages, revNo := p.revNo + 1, nextRev := none, move := none }
        let s := { s with plans := setT s.plans plan p }
        let s := { s with cores := mapT (fun _ c => if c.plan == some plan then { c with revision := p.revNo.toNat } else c) s.cores }
        .next (applyThrottle plan (m.cores.foldl (startMoved plan m.recv (p.stage m.recv).ncrew) s))
    | _, _ => .next s

/-! ### Deadlock (R317, R318) -/

/-- What a live crew of a stage is suspended on: nothing, or pipes with the side it waits at. A crew is suspended when every group of it that
has not ended is. -/
def crewWaits (s : State) (c : Crew) : Option (List (Nat × Bool)) :=
  let live := c.groups.filter fun k => (s.grp k).status != .ended
  let waits := live.map fun k => match (s.grp k).status with | .suspended (.pipe plan j side) => if plan == c.plan then some (j, side) else none | _ => none
  if c.saved || live.isEmpty || waits.any Option.isNone then none else some waits.reduceOption

/-- R317: what the crews of a stage wait on, if the stage is blocked. -/
def stageWaits (s : State) (plan stage : Nat) : Option (List (Nat × Bool)) :=
  let crews := s.crews.filter fun e => e.2.plan == plan && e.2.stage == stage
  let waits := crews.map fun e => crewWaits s e.2
  if crews.isEmpty || waits.any Option.isNone then none else some waits.reduceOption.flatten

/-- R317: the stage that a suspension on a pipe waits on; none across a link (R322). -/
def waitedStage (p : Plan) (w : Nat × Bool) : Option Nat :=
  let q := p.pipes.getD w.1 {}
  if q.link then none else some (if w.2 then q.cons else q.prod)

/-- R317: the walk of a probe for pipe `j` over a frontier of stages, in at most `n` stages: the pipes visited and whether a path came home, or
none where a stage is not blocked. -/
def probeWalk (s : State) (plan j : Nat) (p : Plan) : Nat → List (Option Nat) → List Nat → Bool → Option (List Nat × Bool)
  | _, [], visited, home => some (visited, home)
  | 0, _ :: _, _, _ => none
  | _ + 1, none :: _, _, _ => none
  | n + 1, some st :: rest, visited, home =>
    match stageWaits s plan st with
    | none => none
    | some ws =>
      let new := ws.foldl (fun l w => if w.1 == j || visited.contains w.1 || l.any (fun x => x.1 == w.1) then l else l ++ [w]) []
      probeWalk s plan j p n (rest ++ new.map (waitedStage p)) (visited ++ new.map Prod.fst) (home || ws.any fun w => w.1 == j)

/-- The groups suspended on a pipe with the side they wait at, and since when. -/
def suspendedOn (s : State) (plan j : Nat) : List (Bool × Nat) :=
  s.groups.filterMap fun e => match e.2.status with
    | .suspended (.pipe pl i side) => if e.2.live && pl == plan && i == j then some (side, e.2.last) else none
    | _ => none

/-- SHADOW_PROBE (R317): sent when a suspension and the pipe's counters have stood for pper µs; pper is also the period of probes (R300, log 52). -/
def execShadowProbe (plan pipe : Nat) (s : State) : Res :=
  match findT s.plans plan, s.pipe plan pipe with
  | some p, some q =>
    let waits := suspendedOn s plan pipe
    if p.forced ∨ q.remote ∨ s.now < q.since + 1000 * p.pper ∨ s.now < q.probed + 1000 * p.pper ∨ !(waits.any fun w => decide (w.2 + 1000 * p.pper ≤ s.now)) then .next s
    else
      let front := (waits.map fun w => waitedStage p (pipe, w.1)).eraseDups
      match probeWalk s plan pipe p (p.pipes.length + front.length + 1) front [pipe] false with
      | some (visited, true) => .next (s.onPipe plan pipe fun q => { q with probe := some (visited.map fun j => (j, (p.pipes.getD j {}).ops)), probed := s.now })
      | _ => .next (s.onPipe plan pipe fun q => { q with probed := s.now })
  | _, _ => .next s

/-- R318: the pipe of a cycle that is grown: the highest that is blocked full. -/
def growPipe (s : State) (plan : Nat) (cycle : List Nat) : Option Nat :=
  (cycle.filter fun j => (suspendedOn s plan j).any fun w => w.1).foldl (fun best j => match best with
    | none => some j
    | some b => some (max b j)) none

/-- R318, R345, R351: a deadlock fault raised to the plan's owner. -/
def deadlockFault (plan : Nat) (s : State) : State :=
  match findT s.plans plan with
  | none => s
  | some p => match p.parent with
    | some q => onPlan q (fun p => { p with dlk := true }) s
    | none =>
      let p := { p with dlk := true }
      planStatus 0x10 p { s with plans := setT s.plans plan p }

/-- R318: one more ring slot opened. A counter of the pipe has changed, which ends every probe that has seen it (R317, R323). -/
def growSlot (plan j : Nat) (s : State) : State := slotFreed plan j (s.onPipe plan j fun q => ({ q with opened := q.opened + 1 } : Pipe).counted s.now)

/-- DEADLOCK_DECLARE (R318): a probe is home. It ends without effect if a counter of a visited pipe has changed. -/
def execDeadlockDeclare (plan pipe : Nat) (s : State) : Res :=
  match findT s.plans plan, s.pipe plan pipe with
  | some p, some q => match q.probe with
    | none => .next s
    | some seen =>
      let s := s.onPipe plan pipe fun q => { q with probe := none }
      if p.forced ∨ seen.any (fun e => (p.pipes.getD e.1 {}).ops != e.2) then .next s
      else match growPipe s plan (seen.map Prod.fst) with
      | some j =>
        let g := p.pipes.getD j {}
        if g.opened < g.ringCap then .next (growSlot plan j s) else .next (deadlockFault plan s)
      | none => .next (deadlockFault plan s)
  | _, _ => .next s

end Sys2Proof.Machine
end

