-- ==== Sys2Proof/Machine/Launch.lean ====
section
/-! DEFINITION. The launch front end (R300 to R305, R341 to R351): queue registers, packets, plan records, selection and dispatch. Events:
QTAIL_WRITE, QCFG_WRITE, LAUNCH_PACKET, DRAIN_PACKET, INVALIDATE_PACKET, INVALIDATION_COMPLETE, AGE_TICK, LAUNCH_SELECT. -/
namespace Sys2Proof.Machine

/-! ### Queue registers (R341, R342, R474, R475) -/

/-- A queue. -/
def State.queue (s : State) (q : Nat) : Queue := getT {} s.queues q

/-- A queue changed. -/
def onQueue (q : Nat) (f : Queue → Queue) (s : State) : State := { s with queues := setT s.queues q (f (s.queue q)) }

/-- A function of the host port. -/
def State.func (s : State) (f : Nat) : Func := getT {} s.funcs f

/-- The live context bound to a function (R474). -/
def funcCtx (s : State) (fn : Nat) : Option Nat :=
  match (s.func fn).ctx with
  | some c => if (s.ctx c).live then some c else none
  | none => none

/-- R474, R475: the queue on a page of a function's queue BAR. -/
def queueAt (s : State) (fn page : Nat) : Option Nat :=
  match funcCtx s fn with
  | none => none
  | some c =>
    if fn = 0 then (if page < 64 then some page else none)
    else ((List.range 64).filter fun q => (s.queue q).ctx == c)[page]?

/-- R342: a write of a tail register takes effect. -/
def takeTail (fn page : Nat) (v : Word) (s : State) : State :=
  match queueAt s fn page with
  | none => s
  | some q =>
    onQueue q (fun x =>
      if 2 ^ x.lsize < (v - x.qhead).toNat then { x with errs := (x.errs + 1) % 2 ^ 64 }
      else { x with qtail := v, since := if x.qhead == x.qtail then s.now else x.since }) s

/-! ### What the host has posted (R437, R451, R476, R477) -/

/-- A function changed. -/
def onFunc (fn : Nat) (f : Func → Func) (s : State) : State := { s with funcs := setT s.funcs fn (f (s.func fn)) }

/-- A dropped access counted in its function. -/
def windowError (fn : Nat) (s : State) : State := onFunc fn (fun f => { f with winErr := (f.winErr + 1) % 2 ^ 64 }) s

/-- R476: one sector of a host write; dropped and counted where a page or a sealed tile refuses it. -/
def windowSector (fn ctx : Nat) (s : State) (e : Nat × List Byte) : State :=
  match walk s ctx e.1 with
  | .error _ => windowError fn s
  | .ok x =>
    if !x.write || (tileState s ctx e.1).refusesWrites then windowError fn s
    else if x.stream then streamWrite (x.phys e.1) e.2 s else pointGlobal 0 (x.phys e.1) e.2 s

/-- R456: whether a sector of a host write has to wait for a reserved chunk. -/
def windowHeld (s : State) (ctx : Nat) (e : Nat × List Byte) : Bool :=
  match walk s ctx e.1 with
  | .ok x => !x.stream && heldByReserved s 0 none [.glob (lineOf (x.phys e.1))] 0 []
  | .error _ => false

/-- R476: the sectors of a host write that take effect, in order, up to the first that has to wait; what is left, and the state. -/
def postSectors (fn ctx : Nat) : List (Nat × List Byte) → State → List (Nat × List Byte) × State
  | [], s => ([], s)
  | e :: es, s => if windowHeld s ctx e then (e :: es, s) else postSectors fn ctx es (windowSector fn ctx s e)

/-- R476, R477: something posted takes effect as far as it can, behind what its function posted before. A function whose context is gone ignores it. -/
def servePost (s : State) (x : Posted) : State :=
  if s.posted.any fun y => y.fn == x.fn then { s with posted := s.posted ++ [x] }
  else match x.tail with
  | some (page, v) => takeTail x.fn page v s
  | none => match funcCtx s x.fn with
    | none => s
    | some ctx => match postSectors x.fn ctx x.pieces s with
      | ([], t) => t
      | (rest, t) => { t with posted := t.posted ++ [{ x with pieces := rest }] }

/-- R477: everything posted takes effect as far as it can. -/
def servePosted (s : State) : State := s.posted.foldl servePost { s with posted := [] }

/-- Something posted by the host. -/
def post (x : Posted) (s : State) : State :=
  servePosted { s with posted := s.posted ++ [{ x with id := s.serial }], serial := s.serial + 1 }

/-- QTAIL_WRITE (R342, R477). -/
def execQtailWrite (fn page : Nat) (v : Word) (s : State) : Res :=
  .next (match queueAt s fn page with
    | none => s
    | some _ => if s.posted.isEmpty then takeTail fn page v s else post { id := 0, fn := fn, tail := some (page, v) } s)

/-- R342: qcfg with its fields. -/
def Queue.cfg (x : Queue) : Nat := x.age * 2 ^ 48 + x.ctx * 2 ^ 42 + x.level * 2 ^ 39 + b2n x.en * 2 ^ 38 + x.lsize

/-- QCFG_WRITE (R342). -/
def execQcfgWrite (fn page : Nat) (v : Word64) (s : State) : Res :=
  match queueAt s fn page with
  | none => .next s
  | some q =>
    let n := v.toNat
    if fn ≠ 0 ∨ (s.queue q).en then .next s
    else .next (onQueue q (fun x =>
      { x with age := bitsN n 48 16, ctx := bitsN n 42 6, level := bitsN n 39 3, en := bitN n 38, lsize := max 2 (min 16 (bitsN n 0 5)), since := s.now, aged := 0 }) s)

/-! ### Reading memory for a launch -/

/-- `n` bytes of a context's virtual memory, read block by block of 64, or none where a page does not translate. -/
def spanFrom (s : State) (ctx : Nat) : Nat → Nat → Nat → Option (List Byte)
  | 0, _, n => if n = 0 then some [] else none
  | f + 1, va, n =>
    if n = 0 then some []
    else
      let m := min n (64 - va % 64)
      match walk s ctx va, spanFrom s ctx f (va + m) (n - m) with
      | .ok x, some rest => some (readHome s (x.phys va) m ++ rest)
      | _, _ => none

/-- Bytes that a launch reads; a missing page is a bad object (R345). -/
def launchBytes (s : State) (ctx va n : Nat) : Except Nat (List Byte) :=
  match spanFrom s ctx (n + 1) va n with
  | some l => .ok l
  | none => .error 0x24

/-- The number that a launch reads. -/
def launchNum (s : State) (ctx va n : Nat) : Except Nat Nat :=
  match launchBytes s ctx va n with
  | .ok l => .ok (leNat l)
  | .error e => .error e

/-! ### Plan records (R300 to R304) -/

/-- The section bases that a base table holds (R343): .text, .pool, .plan, .shape. -/
structure Bases where
  text : Nat
  pool : Nat
  plan : Nat
  shape : Nat
deriving DecidableEq, Repr

/-- R343: a base table read. -/
def readBases (s : State) (ctx table : Nat) : Except Nat Bases :=
  match launchNum s ctx table 64 with
  | .error e => .error e
  | .ok t =>
    if bitsN t 448 64 ≠ 0 ∨ (List.range 7).any (fun i => decide (2 ^ 57 ≤ bitsN t (64 * i) 64)) then .error 0x24
    else .ok { text := bitsN t 0 64, pool := bitsN t 64 64, plan := bitsN t 128 64, shape := bitsN t 192 64 }

/-- R302: the entries of a preload list, or none where one breaks the rule. -/
def preloadEntries : Nat → List Byte → Option (List (Nat × List Byte))
  | 0, _ => some []
  | n + 1, bs =>
    let off := leNat (bs.take 64)
    match preloadEntries n (bs.drop 128) with
    | some rest =>
      if 1048576 ≤ off ∨ off % 64 ≠ 0 ∨ rest.any (fun e => e.1 == off) then none else some ((off, (bs.drop 64).take 64) :: rest)
    | none => none

/-- R302: a preload list read. -/
def readPreload (s : State) (ctx va : Nat) : Except Nat (List (Nat × List Byte)) :=
  match launchNum s ctx va 16 with
  | .error e => .error e
  | .ok n =>
    if n = 0 ∨ 16384 ≤ n then .error 0x21
    else match launchBytes s ctx (va + 16) (128 * n) with
    | .error e => .error e
    | .ok bs => match preloadEntries n bs with
      | some l => .ok l
      | none => .error 0x21

/-- Whether the rectangles of two stages overlap. -/
def Stage.meets (a b : Stage) : Bool :=
  decide (a.x < b.x + b.w) && decide (b.x < a.x + a.w) && decide (a.y < b.y + b.h) && decide (b.y < a.y + a.h)

/-- R301, R304: the breaches of a stage descriptor by itself. -/
def stageBad (d : Nat) (l : Launch) (st : Stage) : Bool :=
  bitsN d 320 9 != 0 || bitsN d 0 256 != 0 || decide (st.age < 16) || decide (st.ngrp ≤ st.prod) || bitsN d 464 48 % 8 != 0 ||
  bitsN d 416 48 % 32 != 0 || bitsN d 256 48 % 16 != 0 || decide (l.w < bitsN d 316 4 + st.w) || decide (l.h < bitsN d 312 4 + st.h) ||
  (st.fused && (st.w % 4 != 0 || st.h % 2 != 0 || !st.fixed))

/-- R301: a stage descriptor's own fields. -/
def stageFields (d : Nat) (b : Bases) (l : Launch) : Stage :=
  { x := l.org.x + bitsN d 316 4, y := l.org.y + bitsN d 312 4, w := bitsN d 308 4 + 1, h := bitsN d 304 4 + 1, entry := b.text + bitsN d 464 48
    age := bitsN d 352 16, ngrp := bitsN d 343 9 + 1, prod := bitsN d 334 9, ncrew := bitsN d 332 2 + 1
    named := bitN d 331, fused := bitN d 330, fixed := bitN d 329 }

/-- R301, R302, R304, R35, R36: a stage read, beside those before it. -/
def readStage (s : State) (l : Launch) (b : Bases) (before : List Stage) (va : Nat) : Except Nat Stage :=
  match launchNum s l.ctx va 64 with
  | .error e => .error e
  | .ok d =>
    let st := stageFields d b l
    if stageBad d l st || before.any st.meets then .error 0x21
    else match launchNum s l.ctx (b.shape + bitsN d 416 48) 32 with
    | .error e => .error e
    | .ok sh =>
      let st := { st with shape := if l.org.suava then suavaShape else BitVec.ofNat 256 sh }
      if !l.org.suava && shapeBad st.shape || decide (2048 < shapeWords st.shape) then .error 0x22
      else if min (256 * st.perLane) 2048 < st.ncrew * st.ngrp then .error 0x21
      else match if bitsN d 368 48 = 0 then .ok 0 else launchNum s l.ctx (b.plan + bitsN d 368 48) 128 with
      | .error e => .error e
      | .ok roles =>
        if (List.range 512).any fun g => bitsN roles (2 * g) 2 == 3 then .error 0x21
        else match if bitsN d 256 48 = 0 then .ok [] else readPreload s l.ctx (b.plan + bitsN d 256 48) with
        | .error e => .error e
        | .ok pre => .ok { st with roles := roles, preload := pre }

/-- The stages of a record, from an address on. -/
def readStages (s : State) (l : Launch) (b : Bases) : Nat → Nat → List Stage → Except Nat (List Stage)
  | 0, _, acc => .ok acc
  | n + 1, va, acc =>
    match readStage s l b acc va with
    | .ok st => readStages s l b n (va + 64) (acc ++ [st])
    | .error e => .error e

/-- R303, R350: a pipe descriptor's fields. -/
def pipeFields (d desc : Nat) (l : Launch) : Pipe :=
  let link := bitN d 111
  let lside := bitN d 110
  { prod := bitsN d 92 4, cons := bitsN d 96 4, fmt := BitVec.ofNat 4 (bitsN d 100 4), rows := bitsN d 2 9 + 1, cols := bitsN d 11 10 + 1
    depth := bitsN d 21 6 + 1, hi := bitsN d 40 13, lo := bitsN d 27 13, ringCap := bitsN d 66 13, rcp := bitN d 79, home := bitsN d 80 8
    link := link, lside := lside, lkey := bitsN d 112 16, desc := desc, opened := bitsN d 53 13
    peer := if link then (l.links.find? fun e => e.2 == bitsN d 112 16).map Prod.fst else none }

/-- R303, R304: the breaches of a pipe descriptor. -/
def pipeBad (d : Nat) (q : Pipe) (nstage : Nat) : Bool :=
  bitsN d 128 384 != 0 || bitsN d 104 6 != 0 || bitsN d 89 3 != 0 || bitsN d 0 2 != 0 || decide (9 < q.fmt.toNat) || (bitN d 88 && q.home != 0) ||
  decide (4096 < q.opened) || decide (q.ringCap < q.opened) || decide (4096 < q.ringCap) || decide (q.hi ≤ q.lo) ||
  decide (q.depth + q.opened < q.hi) || decide (nstage ≤ q.prod) || decide (nstage ≤ q.cons) || decide (2097152 < q.tileSize) ||
  (q.rcp && decide (65536 < q.stride)) || (q.link && (if q.lside then q.prod != 0 else q.cons != 0))

/-- R345: whether the link key of a pipe is bound exactly once. -/
def linkBound (l : Launch) (q : Pipe) : Bool := !q.link || (l.links.filter fun e => e.2 == q.lkey).length == 1

/-- R350: the home slice the placement chooses. -/
def autoHome (stages : List Stage) (j : Nat) (q : Pipe) : Nat :=
  let st := stages.getD q.cons {}
  64 * dieOf (16 * st.y + st.x) + (8 * (st.y % 8) + st.x % 8 + 17 * j) % 64

/-- The pipes of a record. -/
def readPipes (s : State) (l : Launch) (stages : List Stage) (va : Nat) : List Nat → Except Nat (List Pipe)
  | [] => .ok []
  | j :: js =>
    match launchNum s l.ctx (va + 64 * j) 64 with
    | .error e => .error e
    | .ok d =>
      let q := pipeFields d (va + 64 * j) l
      if pipeBad d q stages.length then .error 0x21
      else match readPipes s l stages va js with
      | .ok rest => .ok ((if bitN d 88 then { q with home := autoHome stages j q } else q) :: rest)
      | .error e => .error e

/-- R347: whether a launch rectangle is bad. -/
def rectBad (s : State) (l : Launch) (stages : List Stage) : Bool :=
  decide (16 < l.org.x + l.w) || decide (16 < l.org.y + l.h) ||
  ((rectCores l.org.x l.org.y l.w l.h).any fun c => (s.core c).fenced) ||
  stages.any fun st => st.fused && (st.x % 4 != 0 || st.y % 2 != 0)

/-- R300, R304: the plan header's breaches. -/
def headerBad (h : Nat) : Bool :=
  let tw := bitsN h 320 64
  bitsN h 384 128 != 0 || bitsN h 16 264 != 0 || bitsN h 4 4 != 0 || decide (tw < 2 ^ 32) || decide (2 ^ 62 < tw) ||
  bitsN h 296 8 == 0 || bitsN h 280 16 == 0 || decide (64 < bitsN h 8 8)

/-- R304, R347: a plan read for a launch at a priority, or the status code with which the launch fails. The checks come in the order object,
header, stages, pipes, links, rectangle. -/
def readPlan (s : State) (l : Launch) (pri : Nat) : Except Nat Plan :=
  match readBases s l.ctx l.org.table with
  | .error e => .error e
  | .ok b => match launchNum s l.ctx l.addr 64 with
    | .error e => .error e
    | .ok h =>
      let ns := bitsN h 0 4 + 1
      if headerBad h then .error 0x21
      else match readStages s l b ns (l.addr + 64) [] with
      | .error e => .error e
      | .ok stages => match readPipes s l stages (l.addr + 64 + 64 * ns) (List.range (bitsN h 8 8)) with
        | .error e => .error e
        | .ok pipes =>
          if !pipes.all (linkBound l) then .error 0x25
          else if rectBad s l stages then .error 0x23
          else .ok { ctx := l.ctx, tag := l.tag, pri := pri, org := l.org, stages := stages, pipes := pipes, tw := bitsN h 320 64
                     bper := bitsN h 304 16, bstk := bitsN h 296 8, pper := bitsN h 280 16, stat := l.stat, poolVa := b.pool }

/-! ### Packets (R341 to R346) -/

/-- The front end moves past the packet at the head of a queue. -/
def retirePacket (q : Nat) (s : State) : State :=
  onQueue q (fun x => { x with qhead := x.qhead + 1, cand := none, since := s.now, aged := 0 }) s

/-- A candidate's number where cores are held for it (R349): a queue, or 64 + core for a pending-launch queue. -/
def releaseHeld (id : Nat) (s : State) : State :=
  { s with cores := mapT (fun _ c => if c.heldFor == some id then { c with heldFor := none } else c) s.cores }

/-- R344: a packet done with: its status written, and retired. -/
def endPacket (q stat : Nat) (code : Nat) (tag : Word) (s : State) : State :=
  retirePacket q (writeStatus (s.queue q).ctx stat q (statusBytes code tag.toNat 0 0 0 0 false false false) s)

/-- What the front end finds at the head of a queue: nothing to read, a packet it cannot read, or a packet. -/
inductive Head where
  | idle
  | unreadable
  | packet (p : Nat)

/-- R341, R342: the packet at the head of a queue. A candidate, or an invalidation under way, is not read again. -/
def headOf (s : State) (q : Nat) : Head :=
  let x := s.queue q
  if !x.en || x.cand.isSome || x.qhead == x.qtail || s.invals.any (fun e => e.2.queue == some q) then .idle
  else if !(s.ctx x.ctx).live then .unreadable
  else match spanFrom s x.ctx 129 (x.qbase.toNat + 128 * (x.qhead.toNat % 2 ^ x.lsize)) 128 with
  | some bs => .packet (leNat bs)
  | none => .unreadable

/-- R342: a packet that cannot be read disables its queue. -/
def disableQueue (q : Nat) (s : State) : State :=
  let (fn, page) := queueOwner s q
  sendVector fn page (onQueue q (fun x => { x with en := false, errs := (x.errs + 1) % 2 ^ 64 }) s)

/-- The fields of a packet (R343). -/
def pktType (p : Nat) : Nat := bitsN p 0 8
def pktArg (p : Nat) : Nat := bitsN p 320 32
def pktTag (p : Nat) : Word := BitVec.ofNat 32 (bitsN p 352 32)
def pktAddr (p : Nat) : Nat := bitsN p 384 64
def pktStat (p : Nat) : Nat := bitsN p 448 64
def pktRect (p : Nat) : Nat := bitsN p 304 16
def pktLinks (p : Nat) : Nat := bitsN p 512 192
def pktReserved (p : Nat) : Bool := bitsN p 704 320 != 0 || bitsN p 8 296 != 0

/-- R346: a packet whose status address is not aligned is retired with no effect. -/
def withStat (q p : Nat) (s : State) (k : State) : State :=
  if pktStat p % 32 ≠ 0 then retirePacket q (onQueue q (fun x => { x with errs := (x.errs + 1) % 2 ^ 64 }) s) else k

/-- R343: the peers bound to link keys, and whether a bit of the links that must be zero is not. -/
def linksOf (p : Nat) : List (Nat × Nat) :=
  (List.range 4).filterMap fun k =>
    let e := bitsN (pktLinks p) (48 * k) 48
    if bitN e 47 then some (bitsN e 32 8, bitsN e 0 16) else none
def linksBad (p : Nat) : Bool :=
  (List.range 4).any fun k => let e := bitsN (pktLinks p) (48 * k) 48; bitsN e 40 7 != 0 || bitsN e 16 16 != 0

/-- What the loader has reported of the object of a base table, or values that nothing constrains (R45, log 40). -/
def objectOf (s : State) (ctx table : Nat) : (Nat × Bool) × State :=
  match (s.ctx ctx).objects.find? fun o => o.1 == table with
  | some o => (o.2, s)
  | none => (((Config.freeWord s.fresh).toNat % 1048577, Config.freeBit (s.fresh + 1)), { s with fresh := s.fresh + 2 })

/-- R343, R49: the plan record's address from the patched pool. -/
def planEntry (s : State) (ctx table npool idx : Nat) : Except Nat Nat :=
  match readBases s ctx table with
  | .error e => .error e
  | .ok b =>
    if npool ≤ idx then .error 0x24
    else match launchNum s ctx (b.pool + 16 * idx) 16 with
    | .error e => .error e
    | .ok e => if bitsN e 104 8 = 6 then .ok (bitsN e 0 64) else .error 0x24

/-- R343, R348: a launch packet becomes a candidate, or fails. -/
def readLaunch (q p : Nat) (s : State) : State :=
  let x := s.queue q
  let fail := fun code s => endPacket q (pktStat p) code (pktTag p) s
  if pktReserved p || linksBad p || bitsN (pktArg p) 0 12 != 0 || pktAddr p % 64 != 0 then fail 0x20 s
  else
    let (o, s) := objectOf s x.ctx (pktAddr p)
    match planEntry s x.ctx (pktAddr p) o.1 (bitsN (pktArg p) 12 20) with
    | .error e => fail e s
    | .ok addr =>
      let r := pktRect p
      let l : Launch := { ctx := x.ctx, addr := addr, tag := pktTag p, stat := pktStat p, w := bitsN r 4 4 + 1, h := bitsN r 0 4 + 1, links := linksOf p
                          org := { table := pktAddr p, npool := o.1, suava := o.2, x := bitsN r 12 4, y := bitsN r 8 4 } }
      match readPlan s l x.level with
      | .error e => fail e s
      | .ok _ => onQueue q (fun x => { x with cand := some l }) s

/-- LAUNCH_PACKET (R343); reserved types and packets that cannot be read end here too. -/
def execLaunchPacket (q : Nat) (s : State) : Res :=
  match headOf s q with
  | .idle => .next s
  | .unreadable => .next (disableQueue q s)
  | .packet p =>
    if pktType p = 2 ∨ pktType p = 3 then .next s
    else .next (withStat q p s (if pktType p = 1 then readLaunch q p s else endPacket q (pktStat p) 0x20 (pktTag p) s))

/-- R344: a drain of every running plan of a context with a tag. -/
def drainTagged (ctx : Nat) (tag : Word) (forced : Bool) (s : State) : State :=
  ((s.plans.filter fun e => e.2.ctx == ctx && e.2.tag == tag).map Prod.fst).foldl
    (fun s k => if forced then forcedDrain k false s else orderlyDrain k s) s

/-- DRAIN_PACKET (R344). -/
def execDrainPacket (q : Nat) (s : State) : Res :=
  match headOf s q with
  | .packet p =>
    if pktType p ≠ 2 then .next s
    else .next (withStat q p s
      (if pktReserved p || pktLinks p != 0 || pktAddr p != 0 || pktRect p != 0 || decide (2 ≤ pktArg p) then endPacket q (pktStat p) 0x20 (pktTag p) s
      else endPacket q (pktStat p) 3 (pktTag p) (drainTagged (s.queue q).ctx (pktTag p) (pktArg p == 1) s)))
  | _ => .next s

/-! ### Invalidations (R242, R344) -/

/-- Whether an address lies in the range of an invalidation. -/
def Inval.covers (v : Inval) (va : Nat) : Bool := decide (v.va ≤ va) && decide (va < v.va + v.len)

/-- R242: the entries of a TLB that an invalidation leaves. -/
def Inval.spares (v : Inval) (x : Xlat) : Bool := !(x.ctx == v.ctx && decide (x.va < v.va + v.len) && decide (v.va < x.va + x.size))

/-- R242: the entries of a walk cache that an invalidation leaves. -/
def Inval.sparesUpper (v : Inval) (e : UpperEntry) : Bool :=
  let lo := e.va / 2 ^ e.lo * 2 ^ e.lo
  !(e.ctx == v.ctx && decide (lo < v.va + v.len) && decide (v.va < lo + 2 ^ e.lo))

/-- R242: every TLB and walk cache drops the matching entries, and what a failed walk has left for a core's engines goes with them. -/
def dropXlats (v : Inval) (s : State) : State :=
  { s with cores := mapT (fun _ c => { c with tlb := c.tlb.filter v.spares, xfail := c.xfail.filter fun e => !(e.1 == v.ctx && v.covers (524288 * e.2.1)) }) s.cores
           stlb := mapT (fun _ l => l.filter v.spares) s.stlb
           wcache := mapT (fun _ l => l.filter v.sparesUpper) s.wcache }

/-- R242: whether an access translated before has still to complete or to reach its home slice. -/
def staleAccess (s : State) (v : Inval) : Bool :=
  (s.groups.any fun e => e.2.place.ctx == v.ctx &&
    ((e.2.loads.any fun l => match l.src with | .global acc _ => acc.any fun a => v.covers a.va | _ => false) ||
     (e.2.stores.any fun x => match x.kind with | .fill _ va => v.covers va | .writeBack _ va => v.covers va | .remove _ va _ => v.covers va | .remote .. => false) ||
     (e.2.chunks.any fun c => c.vas.any (fun x => v.covers x.2) || c.held.any fun h => v.covers h.va))) ||
  s.flights.any fun f => f.ctx == v.ctx && v.covers f.va

/-- An invalidation begun. -/
def startInval (v : Inval) (s : State) : State := { dropXlats v s with invals := setT s.invals s.serial v, serial := s.serial + 1 }

/-- INVALIDATE_PACKET (R344). -/
def execInvalidatePacket (q : Nat) (s : State) : Res :=
  match headOf s q with
  | .packet p =>
    if pktType p ≠ 3 then .next s
    else .next (withStat q p s
      (if pktReserved p || pktLinks p != 0 || pktTag p != 0 || pktRect p != 0 || pktArg p == 0 || pktAddr p % 524288 != 0 then
        endPacket q (pktStat p) 0x20 (pktTag p) s
      else startInval { ctx := (s.queue q).ctx, va := pktAddr p, len := 524288 * pktArg p, queue := some q, stat := pktStat p, tag := pktTag p } s))
  | _ => .next s

/-- INVALIDATION_COMPLETE (R242). -/
def execInvalidationComplete (k : Nat) (s : State) : Res :=
  match findT s.invals k with
  | none => .next s
  | some v =>
    if staleAccess s v then .next s
    else
      let s := { s with invals := delT s.invals k }
      .next (match v.queue with | some q => endPacket q v.stat 4 v.tag s | none => s)

/-! ### Selection (R348, R349) -/

/-- AGE_TICK (R348). -/
def execAgeTick (q : Nat) (s : State) : Res :=
  let x := s.queue q
  if !x.en || x.cand.isNone || x.age == 0 || decide (s.now < x.since + 1000 * x.age * (x.aged + 1)) then .next s
  else .next (onQueue q (fun x => { x with aged := x.aged + 1 }) s)

/-- A candidate: its number (a queue, or 64 + core), priority, effective priority, since when it waits, and its launch. -/
structure Cand where
  id : Nat
  pri : Nat
  eff : Nat
  since : Nat
  parent : Option Nat
  launch : Launch

/-- R348: the order of selection. -/
def Cand.before (a b : Cand) : Bool :=
  decide (b.eff < a.eff) || (a.eff == b.eff && (decide (a.since < b.since) || (a.since == b.since && decide (a.id < b.id))))

/-- A candidate put in its place. -/
def insertCand (c : Cand) : List Cand → List Cand
  | [] => [c]
  | x :: xs => if c.before x then c :: x :: xs else x :: insertCand c xs

/-- R351: the launch of a pending entry, whose rectangle is the smallest that holds every stage of the record. -/
def childLaunch (s : State) (e : Pending) : Except Nat Launch :=
  match launchNum s e.ctx e.addr 64 with
  | .error x => .error x
  | .ok h =>
    match spanFrom s e.ctx (64 * 16 + 1) (e.addr + 64) (64 * (bitsN h 0 4 + 1)) with
    | none => .error 0x24
    | some bs =>
      let d := (List.range (bitsN h 0 4 + 1)).map fun i => leNat ((bs.drop (64 * i)).take 64)
      .ok { ctx := e.ctx, addr := e.addr, org := e.org, tag := 0
            w := (d.map fun x => bitsN x 316 4 + bitsN x 308 4 + 1).foldl max 1
            h := (d.map fun x => bitsN x 312 4 + bitsN x 304 4 + 1).foldl max 1 }

/-- R294, R351: the LAUNCHes suspended on a core's pending-launch queue proceed. -/
def wakeLaunches (core : Nat) (s : State) : State :=
  s.groups.foldl (fun s e => if e.2.live && e.2.place.core == core && e.2.status == .suspended .launch then wakeAt e.1 s else s) s

/-- R348, R351: entries of a core's pending-launch queue leave it: those that do not satisfy a test. A new head has just become a candidate. -/
def keepPending (core : Nat) (keep : Pending → Bool) (s : State) : State :=
  let old := (s.core core).launches
  let new := old.filter keep
  if new.length = old.length then s
  else
    let new := match new with
      | e :: es => if (old.head?).any keep then new else { e with since := s.now } :: es
      | [] => []
    wakeLaunches core (onCore core (fun c => { c with launches := new }) s)

/-- R351: the head of a core's pending-launch queue leaves it; a LAUNCH suspended on the queue proceeds. -/
def popPending (core : Nat) (s : State) : State :=
  let s := onCore core (fun c => { c with launches := match c.launches.drop 1 with | e :: es => { e with since := s.now } :: es | [] => [] }) s
  wakeLaunches core s

/-- R349, R351: a child launch at the head of its queue fails: counted in its parent. No core is held for it any more. -/
def failChild (core parent : Nat) (s : State) : State :=
  popPending core (onPlan parent (fun p => { p with nchf := p.nchf + 1 }) (releaseHeld (64 + core) s))

/-- R351, R352: whether a pending launch fails: its record is bad, or its context is torn down (log 87). -/
def childBad (s : State) (x : Pending) : Bool :=
  (s.ctx x.ctx).teardown ||
  match childLaunch s x with
  | .error _ => true
  | .ok l => match readPlan s l x.pri with
    | .error _ => true
    | .ok _ => false

/-- R348, R351: the bad launches at the head of a core's pending-launch queue fail, over at most `n`. -/
def dropBad (core : Nat) : Nat → State → State
  | 0, s => s
  | n + 1, s => match (s.core core).launches with
    | [] => s
    | x :: _ => if childBad s x then dropBad core n (failChild core x.parent s) else s

/-- R348, R351: pending launches whose record is bad fail before the selection. -/
def dropBadChildren (s : State) : State := s.cores.foldl (fun s e => dropBad e.1 (s.core e.1).launches.length s) s

/-- R348: the candidates. -/
def candidatesOf (s : State) : List Cand :=
  (s.queues.filterMap fun e => if !e.2.en then none else e.2.cand.map fun l =>
    { id := e.1, pri := e.2.level, eff := min 7 (e.2.level + e.2.aged), since := e.2.since, parent := none, launch := l }) ++
  (s.cores.filterMap fun e => match e.2.launches with
    | [] => none
    | x :: _ => match childLaunch s x with
      | .ok l => some { id := 64 + e.1, pri := x.pri, eff := x.pri, since := x.since, parent := some x.parent, launch := l }
      | .error _ => none)

/-- The candidates in order. -/
def ordered (s : State) : List Cand := (candidatesOf s).foldr insertCand []

/-- A candidate's rectangle. -/
def Cand.cores (c : Cand) : List Nat := rectCores c.launch.org.x c.launch.org.y c.launch.w c.launch.h

/-- R349: whether a free core first takes a saved image. -/
def imageFirst (s : State) (core : Nat) : Bool := (allImages s).any fun e => restoreTarget s e.2 == some core

/-- R312, R348, R349: whether a candidate can be dispatched. -/
def mayDispatchTo (s : State) (c : Cand) : Bool := c.cores.all fun k => coreFree s k && !movePending s k && !imageFirst s k

/-- R349: whether a candidate may pre-empt a core's crews: of a lower priority than its own, and of none of its ancestors. -/
def mayPreempt (s : State) (c : Cand) (core : Nat) : Bool :=
  !(residents s core).isEmpty && (residents s core).all fun e =>
    !c.launch.org.kin.contains e.2.plan && (match findT s.plans e.2.plan with | some p => decide (p.pri < c.pri) | none => false)

/-- R349: the cores of a candidate's rectangle that it may pre-empt are saved and held for it. -/
def preempt (c : Cand) (s : State) : State :=
  c.cores.foldl (fun s k =>
    if (residents s k).isEmpty || !mayPreempt s c k then s
    else
      let s := requestSave k false s
      if (s.core k).heldFor.isNone then onCore k (fun x => { x with heldFor := some c.id }) s else s) s

/-! ### Dispatch (R305, R314, R350) -/

/-- R305: whether `n` bytes from a virtual address on lie in writable pages of the context, each page and its place as a test wants them. -/
def rangeMapped (s : State) (ctx va n : Nat) (ok : Xlat → Nat → Bool) : Bool :=
  n == 0 || ((n - 1) :: (List.range ((n + 4095) / 4096)).map (4096 * ·)).all fun i => match walk s ctx (va + i) with
    | .ok x => x.write && ok x (x.phys (va + i))
    | .error _ => false

/-- Whether two ranges of a context's addresses are apart. -/
def apart (a n b m : Nat) : Bool := decide (a + n ≤ b) || decide (b + m ≤ a) || n == 0 || m == 0

/-- The allocations of a pipe: address and size. The producer side of a linked pipe has none (R322). -/
def Pipe.ranges (q : Pipe) : List (Nat × Nat) :=
  if q.remote then []
  else [(q.mem.tileVa, q.depth * q.stride), (q.mem.ringVa, q.ringCap * q.stride), (q.mem.thdrVa, q.depth * 64), (q.mem.rhdrVa, q.ringCap * 64)]

/-- Whether two lists of ranges are apart. -/
def rangesApart (a b : List (Nat × Nat)) : Bool := a.all fun x => b.all fun y => apart x.1 x.2 y.1 y.2

/-- R305: whether a physical address lies in the HBM of the die that holds a pipe's home slice. -/
def onHomeDie (q : Pipe) (pa : Nat) : Bool := decide (pa < 0x8000000000) && bitsN pa 36 3 / 2 == q.home / 64

/-- R305: whether a page is as a pipe's spill ring and its header array want it: ordinary, or droppable where the pipe has recipes. -/
def ringPage (q : Pipe) (x : Xlat) : Bool := !x.stream && x.drop == q.rcp

/-- Whether the ranges of a list are apart from each other. -/
def selfApart : List (Nat × Nat) → Bool
  | [] => true
  | x :: xs => rangesApart [x] xs && selfApart xs

/-- R305: whether the places chosen for a pipe can hold its allocations. -/
def placeOk (s : State) (ctx : Nat) (q : Pipe) (x : PipePlace) : Bool :=
  let q := { q with mem := { tileVa := x.tileVa, ringVa := x.ringVa, thdrVa := x.thdrVa, rhdrVa := x.rhdrVa } }
  x.tileVa % 4096 == 0 && x.ringVa % 4096 == 0 && x.thdrVa % 64 == 0 && x.rhdrVa % 64 == 0 &&
  rangeMapped s ctx x.tileVa (q.depth * q.stride) (fun _ a => onHomeDie q a) && rangeMapped s ctx x.thdrVa (q.depth * 64) (fun _ a => onHomeDie q a) &&
  rangeMapped s ctx x.ringVa (q.ringCap * q.stride) (fun p _ => ringPage q p) && rangeMapped s ctx x.rhdrVa (q.ringCap * 64) (fun p _ => ringPage q p) &&
  selfApart q.ranges && (s.plans.all fun e => e.2.ctx != ctx || e.2.pipes.all fun o => rangesApart q.ranges o.ranges)

/-- R305, R306: a pipe placed, with its header arrays zero and its resident lines brought into the L2 (R230). -/
def placePipe (ctx : Nat) (q : Pipe) (x : PipePlace) (s : State) : Pipe × State :=
  let q := { q with mem := { tileVa := x.tileVa, ringVa := x.ringVa, thdrVa := x.thdrVa, rhdrVa := x.rhdrVa }, since := s.now }
  let s := zeroRange ctx x.rhdrVa (q.ringCap * 64) (zeroRange ctx x.thdrVa (q.depth * 64) s)
  (q, fillLines ctx x.thdrVa (q.depth * 64) (fillLines ctx x.tileVa (q.depth * q.stride) s))

/-- R305, R322: the pipes of a plan placed in turn; the producer side of a linked pipe has no slots here. None where a place is missing. -/
def placePipes (ctx : Nat) : List Pipe → List PipePlace → State → Option (List Pipe × List PipePlace × State)
  | [], xs, s => some ([], xs, s)
  | q :: qs, xs, s =>
    if q.remote then
      (placePipes ctx qs xs s).map fun r => ({ q with depth := 0, opened := 0, ringCap := 0 } :: r.1, r.2)
    else match xs with
    | [] => none
    | x :: xs =>
      if !placeOk s ctx q x then none
      else
        let (q, s) := placePipe ctx q x s
        match placePipes ctx qs xs s with
        | some (r, ys, t) => if r.all fun o => rangesApart q.ranges o.ranges then some (q :: r, ys, t) else none
        | none => none

/-- R350: the placements of a plan in order: stage, core, and how many crews start there. -/
def Plan.placements (p : Plan) : List (Nat × Nat × Nat) :=
  (p.stages.mapIdx fun i st => st.cores.map fun c => (i, c, st.ncrew)).flatten

/-- R314: the weights of `n` crews from placement number `k` on, out of `total` crews. -/
def weightsFrom (tw total k n : Nat) : List Nat :=
  (List.range n).map fun i => tw / total + (if k + i = 0 then tw % total else 0)

/-- R350: the crews of a plan started, in placement order. -/
def startCrews (plan tw total : Nat) : List (Nat × Nat × Nat) → Nat → State → State
  | [], _, s => s
  | (i, core, n) :: rest, k, s => startCrews plan tw total rest (k + n) (startOn plan i core (weightsFrom tw total k n) s)

/-- R350: a plan begun. -/
def startPlan (p : Plan) (s : State) : State :=
  let plan := s.serial
  let p := { p with nextSample := s.now + 1000 * p.bper, org := { p.org with kin := plan :: p.org.kin } }
  let total := (p.placements.map fun e => e.2.2).sum
  startCrews plan p.tw total p.placements 0 { s with plans := setT s.plans plan p, serial := plan + 1 }

/-- R344, R351: a candidate leaves its queue. -/
def leaveQueue (c : Cand) (s : State) : State :=
  releaseHeld c.id (if c.id < 64 then retirePacket c.id s else popPending (c.id - 64) s)

/-- A candidate fails with a status code. -/
def failCand (c : Cand) (code : Nat) (s : State) : State :=
  if c.id < 64 then releaseHeld c.id (endPacket c.id c.launch.stat code c.launch.tag s)
  else failChild (c.id - 64) (c.parent.getD 0) s

/-- R350: a candidate dispatched with places for its pipes; what is left of the places. The tag of a child plan is free: the spec gives it none. -/
def dispatchCand (c : Cand) (places : List PipePlace) (s : State) : List PipePlace × State :=
  match readPlan s c.launch c.pri with
  | .error e => (places, failCand c e s)
  | .ok p => match placePipes p.ctx p.pipes places s with
    | none => (places, failCand c 0x26 s)
    | some (pipes, rest, t) =>
      let p := { p with pipes := pipes, queue := if c.id < 64 then some c.id else none, parent := c.parent
                        tag := if c.parent.isSome then Config.freeWord t.fresh else p.tag }
      (rest, startPlan p (leaveQueue c { t with fresh := t.fresh + 1 }))

/-- What a selection carries along: the claimed cores, the places left, the state. -/
structure Select where
  claimed : List Nat
  places : List PipePlace
  s : State

/-- R348: one candidate considered. -/
def selectOne (a : Select) (c : Cand) : Select :=
  if c.cores.any a.claimed.contains then a
  else
    let a := { a with claimed := c.cores ++ a.claimed }
    if mayDispatchTo a.s c then
      let r := dispatchCand c a.places a.s
      { a with places := r.1, s := r.2 }
    else { a with s := preempt c a.s }

/-- LAUNCH_SELECT (R348). -/
def execLaunchSelect (places : List PipePlace) (s : State) : Res :=
  let s := dropBadChildren (requestMoves s)
  .next ((ordered s).foldl selectOne { claimed := [], places := places, s := s }).s

end Sys2Proof.Machine
end

