-- ==== Sys2Proof/Machine/Host.lean ====
section
/-! DEFINITION. The host port (R422, R474 to R479, R484, R493): registers, the window, the mailbox commands. -/
namespace Sys2Proof.Machine

/-! ### Registers (R14, R341, R478) -/

/-- REGISTER_WRITE (R14, R341, R478): qbase belongs to function 0, and the low 19 bits of wbase ignore writes. -/
def execRegisterWrite (fn : Nat) (reg : HostReg) (v : BitVec 512) (s : State) : Res :=
  match reg with
  | .qbase page => match queueAt s fn page with
    | some q => .next (if fn = 0 then onQueue q (fun x => { x with qbase := v.extractLsb' 0 64 }) s else s)
    | none => .next s
  | .mcmd => .next (if fn < 64 then onFunc fn (fun f => { f with mcmd := v }) s else s)
  | .wbase => .next (if fn < 64 then onFunc fn (fun f => { f with wbase := v.extractLsb' 19 45 ++ 0#19 }) s else s)

/-- R474, R475: the 64-bit words of a function's queue page at its offsets: the registers, where a queue stands on the page. -/
def queueWord (s : State) (fn page i : Nat) : Option Nat :=
  match queueAt s fn page with
  | none => some 0
  | some q =>
    let x := s.queue q
    match i with
    | 0 => some x.qbase.toNat
    | 1 => some x.cfg
    | 2 => some (x.qhead.toNat * 2 ^ 32 + x.qtail.toNat)
    | _ => none

/-- R478: mstat. -/
def Func.mstat (f : Func) : Nat := f.code.toNat * 2 ^ 16 + f.result.toNat * 2 ^ 8 + b2n f.busy

/-- R478: the 64-bit words of a function's mailbox BAR at their offsets; mdoor, which is only written, has none to read. -/
def mailboxWord (s : State) (fn i : Nat) : Option Nat :=
  let f := s.func fn
  if i < 8 then some (bitsN f.mcmd.toNat (64 * i) 64)
  else if i < 16 then some (bitsN f.mresp.toNat (64 * (i - 8)) 64)
  else if i = 17 then some f.mstat
  else if i = 32 then some f.wbase.toNat
  else none

/-- R475, R478: a byte of BAR 0 or BAR 2 of a function. Where the spec gives an offset no register to read, nothing constrains it (log 99). -/
def barByte (s : State) (fn bar off : Nat) : Byte :=
  match if bar = 0 then queueWord s fn (off / 4096) (off % 4096 / 8) else mailboxWord s fn (off / 8) with
  | some w => BitVec.ofNat 8 (w / 2 ^ (8 * (off % 8)))
  | none => (Config.freeWord (s.fresh + off)).setWidth 8

/-! ### The window (R476) -/

/-- The pieces of a range by aligned 32-byte sectors, over at most `n` of them. -/
def sectorPieces : Nat → Nat → List Byte → List (Nat × List Byte)
  | 0, _, _ => []
  | n + 1, va, bs => if bs.isEmpty then [] else (va, bs.take (32 - va % 32)) :: sectorPieces n (va + (32 - va % 32)) (bs.drop (32 - va % 32))

/-- The address in the context of an offset in a function's window. -/
def windowAddr (s : State) (fn off : Nat) : Nat := ((s.func fn).wbase.toNat + off) % 2 ^ 64

/-- HOST_WINDOW_WRITE. -/
def execHostWindowWrite (fn off : Nat) (bytes : List Byte) (s : State) : Res :=
  match funcCtx s fn with
  | none => .next s
  | some _ =>
    if 2 ^ 36 < off + bytes.length then .next s
    else .next (post { id := 0, fn := fn, pieces := sectorPieces (bytes.length + 1) (windowAddr s fn off) bytes } s)

/-- R476: what a host read finds in one sector, and the state after it: a recomputation to wait for, a missing translation, or the bytes (R168, R426,
R433). -/
def readSector (s : State) (id ctx : Nat) (e : Nat × List Byte) : Except State (Option (List Byte) × State) :=
  match walk s ctx e.1 with
  | .error _ => .ok (none, s)
  | .ok x => match remoteTile s ctx e.1 (.window id) x with
    | some t => .error t
    | none => .ok (some (readFor s ctx e.1 (x.phys e.1) e.2.length (.window id)).1, touchL2 s (lineOf (x.phys e.1)) false)

/-- The sectors of a host read, one after the other. -/
def readSectors (id ctx : Nat) : List (Nat × List Byte) → State → Except State (Option (List Byte) × State)
  | [], s => .ok (some [], s)
  | e :: es, s =>
    match readSector s id ctx e with
    | .error t => .error t
    | .ok (none, t) => .ok (none, t)
    | .ok (some bs, t) => match readSectors id ctx es t with
      | .ok (some rest, u) => .ok (some (bs ++ rest), u)
      | r => r

/-- An answer to a host read, with its Completer Abort. -/
def answerRead (fn : Nat) (abort : Bool) (bs : List Byte) (s : State) : State := { s with answers := s.answers ++ [(fn, abort, bs)] }

/-- R475, R478: a host read of BAR 0 or BAR 2. -/
def readBar (fn bar off len : Nat) (s : State) : State :=
  { answerRead fn false ((List.range len).map fun i => barByte s fn bar (off + i)) s with fresh := s.fresh + off + len }

/-- R426, R476: a host read answered, if nothing that its function posted or asked before is still to come and no tile has to be recomputed for it. -/
def serveRead (s : State) (r : HostRead) : State :=
  let keep := fun (s : State) => { s with reads := s.reads ++ [r] }
  if (s.posted.any fun y => y.fn == r.fn && decide (y.id < r.id)) || s.reads.any fun y => y.fn == r.fn then keep s
  else match funcCtx s r.fn with
  | none => answerRead r.fn false (List.replicate r.len 0) s
  | some ctx => match readSectors r.id ctx (sectorPieces (r.len + 1) r.va (List.replicate r.len 0)) s with
    | .error t => keep t
    | .ok (some bs, t) => dropUser (.window r.id) (answerRead r.fn false bs t)
    | .ok (none, t) => dropUser (.window r.id) (answerRead r.fn true (List.replicate r.len 255) (windowError r.fn t))

/-- R476: the host's reads are answered as far as they can be. -/
def serveReads (s : State) : State := s.reads.foldl serveRead { s with reads := [] }

/-- HOST_WINDOW_READ: outstanding until it is answered. -/
def execHostWindowRead (fn off len : Nat) (s : State) : Res :=
  match funcCtx s fn with
  | none => .next (answerRead fn false (List.replicate len 0) s)
  | some _ =>
    if 2 ^ 36 < off + len then .next s
    else .next (serveReads { s with reads := s.reads ++ [{ id := s.serial, fn := fn, va := windowAddr s fn off, len := len }], serial := s.serial + 1 })

/-- What reserved chunks and recomputations have kept waiting goes on as far as it can (R426, R456, R477). -/
def serveHost (s : State) : State :=
  let s := if s.hub.isEmpty then s else serveHub s
  let s := if s.posted.isEmpty then s else servePosted s
  if s.reads.isEmpty then s else serveReads s

/-! ### The mailbox (R478, R479, R484) -/

/-- The code of a life-cycle state (R484). -/
def Life.code : Life → Nat
  | .manufacture => 0
  | .provisioned => 1
  | .deployed => 2
  | .returned => 3

/-- R484: the device status word. -/
def statusWord (p : Pkg) : Nat :=
  p.ncore % 512 * 2 ^ 40 + p.tjmax % 256 * 2 ^ 32 + p.therm % 16 * 2 ^ 28 + p.step % 16 * 2 ^ 24 + b2n p.meas * 2 ^ 7 + b2n p.wipe * 2 ^ 6 + p.life.code

/-- R478: a command ended: mresp, then mstat, then vector 64. -/
def finishCommand (fn code result value : Nat) (s : State) : State :=
  sendVector fn 64 (onFunc fn (fun f =>
    { f with mresp := BitVec.ofNat 512 (statusWord s.pkg * 2 ^ 448 + value % 2 ^ 64), code := BitVec.ofNat 16 code, result := BitVec.ofNat 8 result
             busy := false, task := none }) s)

/-- The results of R478. -/
def resDone : Nat := 0
def resBad : Nat := 1
def resDenied : Nat := 2
def resRejected : Nat := 3

/-- The code that stands in a function's mcmd. -/
def mcmdCode (s : State) (fn : Nat) : Nat := ((s.func fn).mcmd.extractLsb' 0 16).toNat

/-- R478, R492: whether a write to mdoor of a function starts the command of a code: the mailbox is not busy and mcmd holds the code. -/
def starts (s : State) (fn code : Nat) : Bool := decide (fn < 64) && !(s.func fn).busy && mcmdCode s fn == code

/-- R492: what a command comes to: a package whose measurement failed serves only firmware updates. -/
def measured (s : State) (r : Nat) : Nat := if s.pkg.meas then r else resRejected

/-- R479: whether a function may name a context. -/
def mayName (s : State) (fn ctx : Nat) : Bool := fn == 0 || (s.func fn).ctx == some ctx

/-- R479, R481: the result of a command about a context: another context than its own is denied to a virtual function, and one that is for function 0
alone is refused by Badger. -/
def granted (s : State) (fn ctx : Nat) (zeroOnly : Bool) (r : Nat) : Nat :=
  if !mayName s fn ctx then resDenied else if zeroOnly && fn != 0 then resRejected else r

/-- A command that ends at once, with the change it makes where it is done. -/
def command (fn code : Nat) (s : State) (k : Nat × (State → State)) : Res :=
  if !starts s fn code then .next s
  else .next (finishCommand fn code (measured s k.1) 0 (if measured s k.1 = resDone then k.2 s else s))

/-- BAD_COMMAND (R479). -/
def execBadCommand (fn : Nat) (s : State) : Res :=
  let code := mcmdCode s fn
  if code = 0 ∨ 9 ≤ code then command fn code s (resBad, id) else .next s

/-- A context being changed. -/
def onCtx (c : Nat) (f : Context → Context) (s : State) : State := s.setCtx c (f (s.ctx c))

/-- R214: the counters of a context at zero. -/
def zeroCounters (ctx : Nat) (s : State) : State := { s with ctr := s.ctr.filter fun e => e.1 / (256 * 65536) != ctx }

/-- CREATE_CONTEXT (R214, R474, R479, R482): context and function stand in mcmd, and function f is bound to context f (log 99). -/
def execCreateContext (fn root : Nat) (frames : List (Nat × Nat)) (s : State) : Res :=
  let m := (s.func fn).mcmd
  let c := (m.extractLsb' 16 8).toNat
  let f := (m.extractLsb' 24 8).toNat
  let rejected := decide (63 < c) || (s.ctx c).live || decide (63 < f) || (s.func f).ctx.isSome || f != c
  command fn 1 s (if s.pkg.life != .deployed || s.pkg.pending.isSome then resRejected else granted s fn c true (if rejected then resRejected else resDone), fun s =>
    onFunc f (fun x => { x with ctx := some c }) ((zeroCounters c s).setCtx c { live := true, fn := f, root := root, frames := frames }))

/-- WRITE_CCB (R405). -/
def execWriteCcb (fn ctx : Nat) (c : Ccb) (s : State) : Res :=
  let ccb : Ccb := { c with rring := c.rring % 2 ^ 64, rlog := c.rlog % 256, spool := c.spool % 2 ^ 64, spsz := c.spsz % 2 ^ 32, wdog := c.wdog % 65536
                            hdl := c.hdl % 65536, tvec := c.tvec % 2 ^ 64 }
  command fn 3 s (granted s fn ctx false (if !(s.ctx ctx).live then resBad else resDone), onCtx ctx fun x => { x with ccb := ccb })

/-- SET_QUOTA (R423). -/
def execSetQuota (fn ctx q : Nat) (s : State) : Res :=
  command fn 4 s
    (granted s fn ctx false (if !(s.ctx ctx).live || decide (65535 < q) then resBad else resDone), onCtx ctx fun x => { x with quota := q })

/-- R362: whether windows are as the rule has them. -/
def windowsOk (wins : List (Nat × Window)) : Bool := wins.all fun w => decide (w.1 ≤ 15) && decide (w.2.len ≤ 2 ^ 32)

/-- BIND_PEER (R362). -/
def execBindPeer (fn ctx pkg peerCtx : Nat) (wins : List (Nat × Window)) (s : State) : Res :=
  command fn 5 s
    (granted s fn ctx true (if !(s.ctx ctx).live || !inPod s pkg || decide (63 < peerCtx) || !windowsOk wins then resRejected else resDone),
     onCtx ctx fun x => { x with peers := ((pkg, peerCtx), wins) :: x.peers.filter fun p => p.1.1 != pkg })

/-- BIND_TENANT (R466). -/
def execBindTenant (fn ctx tenant : Nat) (s : State) : Res :=
  command fn 6 s (granted s fn ctx true (if !(s.ctx ctx).live || decide (65535 < tenant) then resRejected else resDone), onCtx ctx fun x => { x with tenant := some tenant })

/-! ### READ_COUNTER (R493) -/

/-- The cores in service. -/
def inService (s : State) : List Nat := (List.range 256).filter fun c => !(s.core c).fenced

/-- The counters of a port. -/
def portCounter (p : Port) (k : Nat) : Nat := [p.hdrfix, p.hdrdrop, p.badkind, p.linkreplay, p.detour].getD k 0

/-- The counters of the package: those of R486 and of the fabric. -/
def pkgCounter (s : State) (k : Nat) : Nat :=
  if k = 4 then ((s.bypass.map Prod.snd).sum) % 2 ^ 64
  else if k = 0x104 ∨ k = 0x105 ∨ k = 0x106 ∨ k = 0x107 then 0
  else getT 0 s.pcnt k

/-- R493: the fields of mcmd that name a counter. -/
structure CounterName where
  rest : Nat
  ctx : Nat
  ctr : Nat
  unit : Nat
  gap : Nat
  sum : Bool
  cls : Nat

/-- R493: mcmd read. -/
def counterName (m : BitVec 512) : CounterName :=
  let n := m.toNat
  { rest := n / 2 ^ 72, ctx := bitsN n 64 8, ctr := bitsN n 48 16, unit := bitsN n 32 16, gap := bitsN n 25 7, sum := bitN n 24, cls := bitsN n 16 8 }

/-- R493: whether the fields name a counter. -/
def CounterName.ok (n : CounterName) : Bool :=
  n.rest == 0 && n.gap == 0 && (n.cls == 0 || !n.sum) &&
  match n.cls with
  | 0 => decide (n.ctr ≤ 0x206) && (n.sum || decide (n.unit ≤ 255)) && decide (n.ctx ≤ 63)
  | 1 => decide (n.ctr ≤ 4) && decide (n.unit ≤ 29)
  | 2 => (decide (n.ctr ≤ 6) || (decide (0x100 ≤ n.ctr) && decide (n.ctr ≤ 0x111))) && n.unit == 0
  | 3 => n.ctr == 0
  | 4 => decide (n.ctr ≤ 1) && decide (n.unit ≤ 63)
  | 5 => n.ctr == 0 && decide (n.unit ≤ 63)
  | 6 => n.ctr == 0 && decide (n.unit ≤ 63)
  | _ => false

/-- R475, R493: the queue that a function means by a number. -/
def queueUnit (s : State) (fn u : Nat) : Option Nat := if fn = 0 then some u else queueAt s fn u

/-- R493: whether a function may read a counter. -/
def CounterName.allowed (s : State) (fn : Nat) (n : CounterName) : Bool :=
  fn == 0 ||
  match n.cls with
  | 0 => (s.func fn).ctx == some n.ctx
  | 3 => match (s.func fn).ctx with | some c => (s.ctx c).tenant == some n.unit | none => false
  | 4 => (s.func fn).ctx == some n.unit
  | 5 => fn == n.unit
  | 6 => (queueUnit s fn n.unit).isSome
  | _ => true

/-- R493: the value read. -/
def CounterName.value (s : State) (fn : Nat) (n : CounterName) : Nat :=
  match n.cls with
  | 0 => if n.sum then ((inService s).map fun c => counterOf s n.ctx c n.ctr).sum else counterOf s n.ctx n.unit n.ctr
  | 1 => portCounter (s.port n.unit) n.ctr
  | 2 => pkgCounter s n.ctr
  | 3 => getT 0 s.tenants n.unit
  | 4 => if n.ctr = 0 then (s.ctx n.unit).staterr else (s.ctx n.unit).rpterr
  | 5 => (s.func n.unit).winErr
  | _ => match queueUnit s fn n.unit with | some q => (s.queue q).errs | none => 0

/-- READ_COUNTER. -/
def execReadCounter (fn : Nat) (s : State) : Res :=
  if !starts s fn 7 then .next s
  else
    let n := counterName (s.func fn).mcmd
    let r := measured s (if !n.ok then resBad else if !n.allowed s fn then resDenied else resDone)
    .next (finishCommand fn 7 r (if r = resDone then n.value s fn else 0) s)

/-! ### TEARDOWN (R422) -/

/-- The cores whose stage is a context's. -/
def ctxCores (s : State) (ctx : Nat) : List Nat := (s.cores.filter fun e => e.2.ctx == ctx).map Prod.fst

/-- R422: a save in progress abandoned, and its groups ended where they stand. -/
def abandonSave (s : State) (core : Nat) : State :=
  let c := s.core core
  match c.save with
  | none => s
  | some v =>
    let s := (coreGroups s core).foldl endLive s
    let s := s.setCtx c.ctx { s.ctx c.ctx with images := (s.ctx c.ctx).images.filter fun m => m.id != v.image }
    onCore core (fun c => { c with save := none }) s

/-- R422: the queues of a context disabled. Their candidates are none any more, and the cores held for them (R349) are free of the hold. -/
def disableQueues (ctx : Nat) (s : State) : State :=
  let ids := (s.queues.filter fun e => e.2.ctx == ctx).map Prod.fst
  ids.foldl (fun s q => releaseHeld q s)
    { s with queues := mapT (fun _ (x : Queue) => if x.ctx == ctx then { x with en := false, cand := none, aged := 0 } else x) s.queues }

/-- R351, R422: the child launches of a context fail, each counted in its parent, and leave the pending-launch queues (log 87). -/
def failChildren (ctx : Nat) (s : State) : State :=
  s.cores.foldl (fun s e =>
    let s := if (e.2.launches.head?).any fun l => l.ctx == ctx then releaseHeld (64 + e.1) s else s
    let s := e.2.launches.foldl (fun s l => if l.ctx == ctx then onPlan l.parent (fun p => { p with nchf := p.nchf + 1 }) s else s) s
    keepPending e.1 (fun l => l.ctx != ctx) s) s

/-- R422, steps 1 to 3: queues disabled, plans drained by force, saves in progress abandoned, slices ended; then the saves that a teardown requests of
the crews that run on (R372, R415). -/
def beginTeardown (ctx : Nat) (s : State) : State :=
  let s := failChildren ctx (disableQueues ctx s)
  let s := onCtx ctx (fun c => { c with teardown := true }) s
  let s := ((s.plans.filter fun e => e.2.ctx == ctx).map Prod.fst).foldl (fun s k => forcedDrain k true s) s
  let s := (ctxCores s ctx).foldl abandonSave s
  requestTeardowns
    (((s.groups.filter fun e => e.2.live && e.2.place.ctx == ctx && e.2.place.slice.isSome).map Prod.fst).foldl (fun s k => dropSlice k s) s)

/-- R422: whether the drains are over and the names of a context released. -/
def tornDown (s : State) (ctx : Nat) : Bool :=
  !(s.plans.any fun e => e.2.ctx == ctx) && !(s.den.any fun e => e.2.ctx == ctx && e.2.state != .free) &&
  !(s.groups.any fun e => e.2.live && e.2.place.ctx == ctx) && !s.flights.any fun f => f.ctx == ctx

/-- R422, R483: the state of a context on a core cleared. -/
def wipeCore (c : Core) : Core :=
  { c with lm := [], inited := 0, l1 := [], mat := {}, eng := {}, badRow := [], badAcc := [], plan := none, stage := 0, ctx := 0 }

/-- Whether a physical address lies in frames. -/
def inFrames (frames : List (Nat × Nat)) (a : Nat) : Bool := frames.any fun f => decide (f.1 ≤ a) && decide (a < f.1 + f.2)

/-- R422, step 6: physical ranges cleared. -/
def wipeFrames (frames : List (Nat × Nat)) (s : State) : State :=
  { s with mem := s.mem.filter fun e => !inFrames frames e.1, badSec := s.badSec.filter fun b => !inFrames frames (32 * b) }

/-- R422, step 6: a core that the context used, cleared. Where another context's stage runs on it now, what that stage has initialised or started with
stays (log 87): the blocks of local memory that it has not initialised (R172) and the context's L1 lines are cleared. -/
def wipeUsed (ctx : Nat) (frames : List (Nat × Nat)) (c : Core) : Core :=
  if !c.used.contains ctx then c
  else
    let c := { c with used := c.used.filter (· != ctx) }
    if c.plan.isSome && c.ctx != ctx then
      { c with lm := c.lm.filter fun e => c.inited.getLsbD (e.1 / 4096), l1 := c.l1.filter fun l => l.owner.isSome || !inFrames frames (128 * l.line) }
    else wipeCore c

/-- A late fault without a group left, as a report (R422). -/
def reportLeft (ctx : Nat) (s : State) : State :=
  ((s.ctx ctx).late).foldl (fun s f => reportGroup (s.grp f.grp) 3 f.cls f.cause f.addr f.pc f.thr f.info (dropLate ctx f s) f.core) s

/-- R422, step 4: the queued late faults of a context as reports, then the final status records of its plans. -/
def writeFinals (ctx : Nat) (s : State) : State :=
  (s.ctx ctx).finals.foldl (fun s e => writeStatus ctx e.1 e.2.1 e.2.2 s) (reportLeft ctx s)

/-- R422, steps 4 to 6: the end of a teardown, after which the context's number is free. -/
def endTeardown (ctx : Nat) (s : State) : State :=
  let s := failChildren ctx (writeFinals ctx s)
  let fn := (s.ctx ctx).fn
  let frames := (s.ctx ctx).frames
  let s := dropXlats { ctx := ctx, va := 0, len := 2 ^ 57, queue := none, stat := 0, tag := 0 } s
  let s := { s with cores := mapT (fun _ c => wipeUsed ctx frames c) s.cores
                    groups := mapT (fun _ g => if g.place.ctx == ctx then { g with regs := {} } else g) s.groups
                    walks := s.walks.filter fun w => w.2.ctx != ctx
                    missq := mapT (fun _ l => l.filter fun m => m.ctx != ctx) s.missq }
  let s := (List.range 4).foldl (fun s d => serveMisses d (getT [] s.missq d).length s) s
  let s := onFunc fn (fun f => { f with ctx := none }) (wipeFrames frames s)
  { s with ctxs := delT s.ctxs ctx }

/-- One pass of a teardown: it begins, or, once its drains are over, ends. -/
def stepTeardown (ctx : Nat) (s : State) : State :=
  if !(s.ctx ctx).teardown then beginTeardown ctx s else if tornDown s ctx then endTeardown ctx s else s

/-- TEARDOWN: the command runs from its start until the context is gone; its step is taken when it begins and again when it can end. It ends only while
Lynx, which answers it, is up (R481). -/
def execTeardown (fn ctx : Nat) (s : State) : Res :=
  if (s.func fn).task = some ctx then
    (if !s.pkg.lynx || !tornDown s ctx then .next s
     else .next (finishCommand fn 2 resDone 0 (if (s.ctx ctx).live then endTeardown ctx s else s)))
  else if !starts s fn 2 then .next s
  else
    let r := measured s (granted s fn ctx false (if !(s.ctx ctx).live || (s.ctx ctx).teardown then resRejected else resDone))
    if r ≠ resDone then .next (finishCommand fn 2 r 0 s)
    else .next (onFunc fn (fun f => { f with busy := true, task := some ctx }) (beginTeardown ctx s))

/-! ### Firmware and life cycle (R481, R482) -/

/-- UPDATE_FIRMWARE (R481). A package whose measurement failed serves it too, for function 0 (R492). -/
def execUpdateFirmware (fn version : Nat) (signed : Bool) (s : State) : Res :=
  if !starts s fn 8 then .next s
  else if fn ≠ 0 then .next (finishCommand fn 8 resRejected 0 s)
  else if signed ∧ s.pkg.version ≤ version then
    .next (finishCommand fn 8 resDone 0 { s with pkg := { s.pkg with image := some version } })
  else .next (finishCommand fn 8 resRejected 0 s)

/-- R482: the state that a token leads to; key 0 is Midason's factory key, `owner` the owner key that Badger holds. -/
def Life.after (l : Life) (owner key : Nat) : Option Life :=
  match l with
  | .manufacture => if key = 0 then some .provisioned else none
  | .provisioned => if key = owner then some .deployed else none
  | .deployed => if key = owner then some .returned else none
  | .returned => if key = 0 then some .provisioned else none

/-- R482: the keys after a token is accepted: leaving MANUFACTURE seals the device keys, leaving RETURNED erases the owner key, after which Badger holds
another one (log 99). -/
def Pkg.keysAfter (p : Pkg) : Pkg :=
  match p.life with
  | .manufacture => { p with keysSealed := true }
  | .returned => { p with owner := p.owner + 1 }
  | _ => p

/-- The contexts that exist. -/
def liveCtxs (s : State) : List Nat := (s.ctxs.filter fun e => e.2.live).map Prod.fst

/-- What stands in a function's `task` while its command is a change of the life cycle. -/
def lifeTask : Nat := 64

/-- LIFECYCLE_TOKEN (R482): every context is torn down first; then the wipe starts, after which the new state is written. The step is taken
again until the teardowns have ended. -/
def execLifecycleToken (fn key : Nat) (s : State) : Res :=
  let running := (s.func fn).task == some lifeTask
  if (running && !s.pkg.lynx) || (!running && !starts s fn 8) then .next s
  else if fn ≠ 0 then .next (if running then s else finishCommand fn 8 resRejected 0 s)
  else match if s.pkg.pending.isSome || !s.pkg.meas then none else s.pkg.life.after s.pkg.owner key with
  | none => .next (if running then s else finishCommand fn 8 resRejected 0 s)
  | some l =>
    let t := (liveCtxs s).foldl (fun s c => stepTeardown c s) s
    if (liveCtxs t).isEmpty then .next (finishCommand fn 8 resDone 0 { t with pkg := { t.pkg.keysAfter with pending := some l, wipe := true } })
    else .next (onFunc fn (fun f => { f with busy := true, task := some lifeTask }) t)

end Sys2Proof.Machine
end

