-- ==== Sys2Proof/Machine/Power.lean ====
section
/-! DEFINITION. Errors, power and the package's own life (R481, R483, R485 to R492): SOFT_ERROR, THERMAL_SAMPLE, STEP_FALL, CLOCK_STEP_CHANGE,
LYNX_RESTART, POWER_GOOD, VOLTAGE_OUT_OF_RANGE, WIPE_COMPLETE. -/
namespace Sys2Proof.Machine

/-! ### SOFT_ERROR (R485 to R487) -/

/-- The row of a structure in R485. -/
def rowOfStruct : Struct → Nat
  | .dram => 0 | .l2 => 1 | .l1 => 2 | .icache => 3 | .regfile => 4 | .local => 5 | .acc => 6 | .header => 7 | .tables => 8

/-- R487: an uncorrectable error of a core; the sixteenth within an hour marks it. -/
def markCore (core : Nat) (s : State) : State :=
  onCore core (fun c =>
    let l := (s.now :: c.errs).take 16
    { c with errs := l, marked := c.marked || (l.length == 16 && decide (s.now ≤ l.getLastD 0 + 3600000000000)) }) s

/-- R485: a parity error in a line of an L1: a clean line leaves, a SpecDirty one takes its group's chunks with it. -/
def l1Error (core line : Nat) (s : State) : State :=
  match l1Find s core line with
  | none => s
  | some x => match x.owner with
    | none => onCore (l1Home s core line) (fun c => { c with l1 := c.l1.filter fun y => y.line != line }) s
    | some k => match (s.grp k).chunks.find? fun c => (findT c.sd line).isSome with
      | some c => squash true k c.no s
      | none => s

/-- R485: a word of a register file that reads as zero from now on, also where a squash brings its register back; the flag is the running chunk's
(R453). The address counts words, registers, slots and lanes: 32, 128, 16 and 256 of them, slot 8 standing for the recompute context of the lane. -/
def regError (core addr : Nat) (s : State) : State :=
  let slot := addr / 4096 % 16
  match s.groups.find? fun e => e.2.live && e.2.place.core == core && e.2.status != .saved && e.2.place.lane == addr / 65536 &&
      (if e.2.place.slice.isSome then slot == 8 else slot < 8 && e.2.place.slot == slot) with
  | none => s
  | some (k, g) => orFlagsFrom g.cno k flagPoison (s.setGrp k (inCell (BitVec.ofNat 7 (addr / 32)) (fun v => setT v (addr % 4096) 0) g))

/-- The classes and causes of exact faults (R403, R404). -/
def exactFaults : List (Nat × Nat) :=
  [(1, 0), (2, 0), (3, 0), (4, 1), (4, 2), (4, 3)] ++ ((List.range 13).map fun i => (5, i + 1)) ++
  [(6, 0), (7, 0), (8, 0), (9, 0), (0xA, 0), (0xB, 1), (0xB, 2), (0xB, 3), (0xC, 1), (0xC, 2), (0xC, 3), (0xC, 4), (0xC, 5)]

/-- R485: a lost entry of the Den ends its group as faulted, and its chunks are squashed; a lost recipe record leaves its tile FAILED, with an exact fault that nothing states
(log 63). `which` is 0 for the Den, or 1 + a context. -/
def tableError (which addr : Nat) (s : State) : State :=
  if which = 0 then
    let e := s.denEntry addr
    if e.state == .free then s
    else
      let s := finishGroup e.grp 2 (squashAll false e.grp s)
      onDen addr (fun e => { e with ending := some 2 }) (s.setGrp e.grp { s.grp e.grp with image := none })
  else
    match findT (s.ctx (which - 1)).recipes addr with
    | none => s
    | some r => failTile (which - 1) addr r.tgt (fun r =>
        { r with fault := exactFaults.getD ((Config.freeWord s.fresh).toNat % exactFaults.length) (1, 0) }) { s with fresh := s.fresh + 1 }

/-- R168, R438: an uncorrectable error in a sector of the L2 or of backing memory, and what it does to the tiles that hold the line. -/
def sectorError (addr : Nat) (s : State) : State :=
  let hit := s.ctxs.flatMap fun c => (c.2.recipes.filter fun r => (r.2.state == .sealed || r.2.state == .recomputing) &&
    (vaLines s c.1 r.2.tgt.va r.2.tgt.size).contains (addr / 128)).map fun r => (c.1, r.1)
  hit.foldl (fun s e => hitTile e.1 e.2 s) { s with badSec := (addr / 32 :: s.badSec).eraseDups }

/-- R485: what an uncorrectable error does. -/
def badError (st : Struct) (core addr : Nat) (s : State) : State :=
  match st with
  | .dram | .l2 => sectorError addr s
  | .l1 => l1Error core (lineOf addr) s
  | .icache => onCore core (fun c => { c with icache := c.icache.filter (· != icLine c.ctx addr) }) s
  | .header => s
  | .regfile => markCore core (regError core addr s)
  | .local => markCore core (onCore core (fun c => { c with badRow := (addr / 16 :: c.badRow).eraseDups }) s)
  | .acc => markCore core (onCore core (fun c => { c with badAcc := (addr :: c.badAcc).eraseDups }) s)
  | .tables => tableError core addr s

/-- R485, R486: the counter of an error. -/
def errorCounter (st : Struct) (bad : Bool) : Nat :=
  match st with
  | .l1 => 2
  | .icache => 3
  | _ => 0x100 + 2 * rowOfStruct st + b2n bad

/-- SOFT_ERROR. A parity error is never correctable. -/
def execSoftError (st : Struct) (core addr : Nat) (bad : Bool) (s : State) : Res :=
  let bad := bad || st == .l1 || st == .icache
  let s := logError (rowOfStruct st) addr (countPkg (errorCounter st bad) 1 s)
  .next (if bad then badError st core addr s else s)

/-! ### Reset and wipe (R483, R490, R492) -/

/-- The package after a reset: what Badger keeps is its life-cycle state, one that a wipe has still to bring (R483), its keys, its firmware, the marks of cores,
the trip and its count (R486). -/
def resetPackage (s : State) : State :=
  { State.reset with
    now := s.now, serial := s.serial, fresh := s.fresh, agenda := s.agenda, turn := s.turn
    cores := (s.cores.filter fun e => e.2.marked || e.2.fenced).map fun e => (e.1, { marked := e.2.marked, fenced := e.2.fenced })
    pcnt := s.pcnt.filter fun e => e.1 == 6
    pkg := { life := s.pkg.life, version := s.pkg.image.getD s.pkg.version, held := s.pkg.held, trip := s.pkg.trip
             pending := s.pkg.pending, keysSealed := s.pkg.keysSealed, owner := s.pkg.owner } }

/-- R483: everything that the wipe engine clears. -/
def wipeAll (s : State) : State :=
  { s with mem := [], badSec := [], l2 := [], dir := [], stlb := [], walks := [], missq := [], wcache := [], den := [], denFree := [], denNext := 0, refused := []
           groups := [], cores := mapT (fun _ c => { wipeCore c with tlb := [], xfail := [], icache := [], used := [] }) s.cores
           ctxs := mapT (fun _ c => { c with recipes := [] }) s.ctxs }

/-- WIPE_COMPLETE (R482, R483). -/
def execWipeComplete (s : State) : Res :=
  if !s.pkg.up || !s.pkg.wipe then .next s
  else
    let s := wipeAll s
    .next { s with pkg := { s.pkg with wipe := false, life := s.pkg.pending.getD s.pkg.life, pending := none } }

/-- The 256 cores of the package with those that failed their self-test, or were marked before the reset, fenced (R487). -/
def fenceCores (failed : List Nat) (s : State) : State :=
  (List.range 256).foldl (fun s k =>
    if failed.contains k || (s.core k).marked || (s.core k).fenced then onCore k (fun c => { c with fenced := true, marked := false }) s else s) s

/-- R492, step 7: the mailboxes that bring-up opens: every one, or function 0's alone where the measurement failed. -/
def openMailboxes (all : Bool) (s : State) : State :=
  (List.range 64).foldl (fun s f => if all || f == 0 then onFunc f (fun x => { x with busy := false }) s else s) s

/-- R482, R483, R492: bring-up up to its step 6: measured, wiped, with a life-cycle change that the wipe was to end, its cores tested and its place in the pod
known. -/
def bringUp (measured : Bool) (pkg : Nat) (failed : List Nat) (s : State) : State :=
  let s := fenceCores failed (wipeAll s)
  let log := match s.pkg.trip with | some t => [{ what := 9, addr := 0, time := t }] | none => []
  { s with errLog := log, pkg := { s.pkg with
      linking := true, meas := measured, wipe := false, ncore := (inService s).length, trip := none
      life := s.pkg.pending.getD s.pkg.life, pending := none
      pkg := pkg % 256, cols := pkg / 256 % 16 + 1, rows := pkg / 4096 % 16 + 1 } }

/-- POWER_GOOD (R492). `pkg` is the fabric identity: the index in bits [7:0], columns and rows of the pod less one in [11:8] and [15:12]
(R461, log 4). The links train after it, and taken again, it is bring-up's last step, which starts Lynx and opens the mailboxes. -/
def execPowerGood (measured : Bool) (pkg : Nat) (failed : List Nat) (s : State) : Res :=
  if s.pkg.up || s.pkg.held then .next s
  else if !s.pkg.linking then .next (bringUp measured pkg failed s)
  else .next (openMailboxes s.pkg.meas { s with pkg := { s.pkg with up := true, linking := false, lynx := s.pkg.meas } })

/-- VOLTAGE_OUT_OF_RANGE (R489): the regulators hold the package in reset, or let it go. -/
def execVoltageOutOfRange (out : Bool) (s : State) : Res :=
  if out then .next (resetPackage { s with pkg := { s.pkg with held := true } })
  else .next { s with pkg := { s.pkg with held := false } }

/-! ### The clock (R490) -/

/-- R490: the larger of the two demands; while Lynx is down Badger holds step 2 (R481). -/
def wantedStep (p : Pkg) : Nat := if p.lynx then max p.tdem p.pdem else 2

/-- R490: since when a demand may fall: the time the condition began. -/
def fallSince (ok : Bool) (old : Option Nat) (now : Nat) : Option Nat := if ok then some (old.getD now) else none

/-- R484, R490: a sample taken. -/
def samplePkg (now tj milliwatt : Nat) (p : Pkg) : Pkg :=
  let t := if 95 ≤ tj then min 4 (p.tdem + 1) else p.tdem
  let w := if 3600000 < milliwatt then min 4 (p.pdem + 1) else p.pdem
  { p with tjmax := tj % 256, tdem := t, pdem := w, therm := b2n (decide (0 < t)) + 2 * b2n (decide (0 < w)), sampled := some now
           cool := fallSince (decide (tj < 90)) p.cool now, calm := fallSince (decide (milliwatt < 3400000)) p.calm now
           hot := fallSince (decide (100 ≤ tj) && p.step == 4) p.hot now }

/-- R490: a trip: counted, and the package reset. -/
def tripPackage (s : State) : State := resetPackage { countPkg 6 1 s with pkg := { s.pkg with trip := some s.now } }

/-- R490: whether something has stood for 10 ms. -/
def mayFall (since : Option Nat) (now : Nat) : Bool := match since with | some t => decide (t + 10000000 ≤ now) | none => false

/-- THERMAL_SAMPLE: once each millisecond; while Lynx does not run, the junctions can trip the package all the same. -/
def execThermalSample (tj milliwatt : Nat) (s : State) : Res :=
  if !s.pkg.up then .next s
  else if s.pkg.lynx && (match s.pkg.sampled with | some t => decide (s.now < t + 1000000) | none => false) then .next s
  else
    let p := if s.pkg.lynx then samplePkg s.now tj milliwatt s.pkg
      else { s.pkg with hot := fallSince (decide (100 ≤ tj) && s.pkg.step == 4) s.pkg.hot s.now }
    let s := { s with pkg := p }
    .next (if 105 ≤ tj || mayFall p.hot s.now then tripPackage s else s)

/-- STEP_FALL. -/
def execStepFall (s : State) : Res :=
  let p := s.pkg
  let p := if mayFall p.cool s.now then { p with tdem := p.tdem - 1, cool := some s.now } else p
  let p := if mayFall p.calm s.now then { p with pdem := p.pdem - 1, calm := some s.now } else p
  .next { s with pkg := { p with therm := b2n (decide (0 < p.tdem)) + 2 * b2n (decide (0 < p.pdem)) } }

/-- CLOCK_STEP_CHANGE: 2 µs pass without a cycle. -/
def execClockStepChange (s : State) : Res :=
  if !s.pkg.up || wantedStep s.pkg == s.pkg.step then .next s
  else .next { s with now := s.now + 2000, pkg := { s.pkg with step := wantedStep s.pkg } }

/-- R478, R481: the mailboxes when Lynx is back: busy where a command still runs. -/
def reopenMailboxes (s : State) : State :=
  (List.range 64).foldl (fun s f => onFunc f (fun x => { x with busy := x.task.isSome }) s) s

/-- LYNX_RESTART (R481): Lynx stops answering, every mailbox stays busy until it is back; taken again, Badger has restarted it. -/
def execLynxRestart (s : State) : Res :=
  if !s.pkg.up || !s.pkg.meas then .next s
  else if s.pkg.lynx then
    .next { s with funcs := mapT (fun _ f => { f with busy := true }) s.funcs, pkg := { s.pkg with lynx := false } }
  else .next (reopenMailboxes { s with pkg := { s.pkg with lynx := true } })

end Sys2Proof.Machine
end

