-- ==== Sys2Proof/Machine/Pred.lean ====
section
/-! DEFINITION. Predicate and group operations (R118 to R120). -/
namespace Sys2Proof.Machine

/-- A predicate operation of two sources (R118). -/
def pred2 (i : Instr) (d a b : Pred) (f : Bool → Bool → Bool) (s : State) : Res :=
  predOp i d (fun g _ t => f ((readPred g.regs.p a).getLsbD t) ((readPred g.regs.p b).getLsbD t)) s

/-- R118. -/
def execPand (g : Guard) (d a b : Pred) (s : State) : Res := pred2 (.pand g d a b) d a b (fun x y => x && y) s
/-- R118. -/
def execPor (g : Guard) (d a b : Pred) (s : State) : Res := pred2 (.por g d a b) d a b (fun x y => x || y) s
/-- R118. -/
def execPxor (g : Guard) (d a b : Pred) (s : State) : Res := pred2 (.pxor g d a b) d a b (fun x y => x != y) s
/-- R118. -/
def execPnot (g : Guard) (d a : Pred) (s : State) : Res :=
  predOp (.pnot g d a) d (fun g _ t => !(readPred g.regs.p a).getLsbD t) s

/-- R119: the bit of a predicate, inverted with .n. -/
def voteBit (g : Group) (p : Pred) (n : Bool) (t : Nat) : Bool := (readPred g.regs.p p).getLsbD t != n

/-- R119: the threads of a set whose bit is 1. -/
def ballot (g : Group) (p : Pred) (n : Bool) (S : Mask) : Mask := maskOf fun t => S.getLsbD t && voteBit g p n t

/-- R119: the bit that any, all and eq give. -/
def voteResult (m : VoteMode) (b S : Mask) : Bool :=
  match m with
  | .any => b != 0
  | .all => b == S
  | .eq => b == 0 || b == S
  | .ballot => false

/-- R119. -/
def execVote (g : Guard) (d : Reg) (p : Pred) (m : VoteMode) (n fit : Bool) (s : State) : Res :=
  if m = .ballot then vecOp (.vote g d p m n fit) d fit (fun g S _ => ballot g p n S) s
  else predOp (.vote g d p m n fit) (d.extractLsb' 0 3) (fun g S _ => voteResult m (ballot g p n S) S) s

/-- R120: the source thread, which may lie outside 0 to 31. -/
def shflSource (m : ShflMode) (t : Nat) (b : Word) : Int :=
  match m with
  | .idx => b.toNat
  | .up => (t : Int) - b.toNat
  | .down => (t : Int) + b.toNat
  | .xor => ((BitVec.ofNat 32 t ^^^ b).toNat : Int)

/-- R120: the thread that thread `t` takes its element from. -/
def shflFrom (m : ShflMode) (S : Mask) (t : Nat) (b : Word) : Nat :=
  let j := shflSource m t b
  if 0 ≤ j ∧ j < 32 ∧ S.getLsbD j.toNat then j.toNat else t

/-- R120. -/
def execShfl (g : Guard) (d a b : Reg) (m : ShflMode) (fit : Bool) (s : State) : Res :=
  vecOp (.shfl g d a b m fit) d fit (fun g S t => g.elem a (shflFrom m S t (g.elem b t))) s

end Sys2Proof.Machine
end

