-- ==== Sys2Proof/Machine/Dispatch.lean ====
section
/-! DEFINITION. The dispatch: one arm per constructor of `Instr`, each a direct call of the meaning of that instruction or step. -/
namespace Sys2Proof.Machine

/-- The meaning of an instruction or of a step of an agent. -/
def exec (i : Instr) (s : State) : Host.Outcome State Fault Refusal :=
  match i with
  | .iaddA g d a b fit => Sys2Proof.Machine.execIaddA g d a b fit s
  | .iaddI g d a imm fit => Sys2Proof.Machine.execIaddI g d a imm fit s
  | .isub g d a b fit => Sys2Proof.Machine.execIsub g d a b fit s
  | .imulA g d a b fit => Sys2Proof.Machine.execImulA g d a b fit s
  | .imulI g d a imm fit => Sys2Proof.Machine.execImulI g d a imm fit s
  | .imulh g d a b u fit => Sys2Proof.Machine.execImulh g d a b u fit s
  | .imad g d a b c fit => Sys2Proof.Machine.execImad g d a b c fit s
  | .idiv g d a b u fit => Sys2Proof.Machine.execIdiv g d a b u fit s
  | .irem g d a b u fit => Sys2Proof.Machine.execIrem g d a b u fit s
  | .imin g d a b u fit => Sys2Proof.Machine.execImin g d a b u fit s
  | .imax g d a b u fit => Sys2Proof.Machine.execImax g d a b u fit s
  | .iabs g d a fit => Sys2Proof.Machine.execIabs g d a fit s
  | .ineg g d a fit => Sys2Proof.Machine.execIneg g d a fit s
  | .andA g d a b fit => Sys2Proof.Machine.execAndA g d a b fit s
  | .andI g d a imm fit => Sys2Proof.Machine.execAndI g d a imm fit s
  | .orA g d a b fit => Sys2Proof.Machine.execOrA g d a b fit s
  | .orI g d a imm fit => Sys2Proof.Machine.execOrI g d a imm fit s
  | .xorA g d a b fit => Sys2Proof.Machine.execXorA g d a b fit s
  | .xorI g d a imm fit => Sys2Proof.Machine.execXorI g d a imm fit s
  | .not g d a fit => Sys2Proof.Machine.execNot g d a fit s
  | .popc g d a fit => Sys2Proof.Machine.execPopc g d a fit s
  | .clz g d a fit => Sys2Proof.Machine.execClz g d a fit s
  | .brev g d a fit => Sys2Proof.Machine.execBrev g d a fit s
  | .shlA g d a b fit => Sys2Proof.Machine.execShlA g d a b fit s
  | .shlI g d a imm fit => Sys2Proof.Machine.execShlI g d a imm fit s
  | .shrA g d a b fit => Sys2Proof.Machine.execShrA g d a b fit s
  | .shrI g d a imm fit => Sys2Proof.Machine.execShrI g d a imm fit s
  | .sarA g d a b fit => Sys2Proof.Machine.execSarA g d a b fit s
  | .sarI g d a imm fit => Sys2Proof.Machine.execSarI g d a imm fit s
  | .bfx g d a f sgn fit => Sys2Proof.Machine.execBfx g d a f sgn fit s
  | .bfi g d a b f fit => Sys2Proof.Machine.execBfi g d a b f fit s
  | .lea g d a b n u fit => Sys2Proof.Machine.execLea g d a b n u fit s
  | .isetpA g p a b c u k q => Sys2Proof.Machine.execIsetpA g p a b c u k q s
  | .isetpI g p a imm c u => Sys2Proof.Machine.execIsetpI g p a imm c u s
  | .sel g d a b p n fit => Sys2Proof.Machine.execSel g d a b p n fit s
  | .mov g d a fit => Sys2Proof.Machine.execMov g d a fit s
  | .movi g d imm fit => Sys2Proof.Machine.execMovi g d imm fit s
  | .movs g d r fit => Sys2Proof.Machine.execMovs g d r fit s
  | .pand g d a b => Sys2Proof.Machine.execPand g d a b s
  | .por g d a b => Sys2Proof.Machine.execPor g d a b s
  | .pxor g d a b => Sys2Proof.Machine.execPxor g d a b s
  | .pnot g d a => Sys2Proof.Machine.execPnot g d a s
  | .vote g d p m n fit => Sys2Proof.Machine.execVote g d p m n fit s
  | .shfl g d a b m fit => Sys2Proof.Machine.execShfl g d a b m fit s
  | .redg g d a op scan fit => Sys2Proof.Machine.execRedg g d a op scan fit s
  | .faddA g d a b r fit => Sys2Proof.Machine.execFaddA g d a b r fit s
  | .faddI g d a imm r fit => Sys2Proof.Machine.execFaddI g d a imm r fit s
  | .fsub g d a b r fit => Sys2Proof.Machine.execFsub g d a b r fit s
  | .fmulA g d a b r fit => Sys2Proof.Machine.execFmulA g d a b r fit s
  | .fmulI g d a imm r fit => Sys2Proof.Machine.execFmulI g d a imm r fit s
  | .ffma g d a b c r fit => Sys2Proof.Machine.execFfma g d a b c r fit s
  | .fmin g d a b fit => Sys2Proof.Machine.execFmin g d a b fit s
  | .fmax g d a b fit => Sys2Proof.Machine.execFmax g d a b fit s
  | .fsetpA g p a b c k q => Sys2Proof.Machine.execFsetpA g p a b c k q s
  | .fsetpI g p a imm c => Sys2Proof.Machine.execFsetpI g p a imm c s
  | .frcp g d a r fit => Sys2Proof.Machine.execFrcp g d a r fit s
  | .frsq g d a r fit => Sys2Proof.Machine.execFrsq g d a r fit s
  | .fexp2 g d a r fit => Sys2Proof.Machine.execFexp2 g d a r fit s
  | .flog2 g d a r fit => Sys2Proof.Machine.execFlog2 g d a r fit s
  | .fcvt g d a dst src outp inp r fit => Sys2Proof.Machine.execFcvt g d a dst src outp inp r fit s
  | .icvt g d a dst src outp inp r fit => Sys2Proof.Machine.execIcvt g d a dst src outp inp r fit s
  | .qcvt g d a b c upd r fit => Sys2Proof.Machine.execQcvt g d a b c upd r fit s
  | .hadd2 g d a b ty r fit => Sys2Proof.Machine.execHadd2 g d a b ty r fit s
  | .hmul2 g d a b ty r fit => Sys2Proof.Machine.execHmul2 g d a b ty r fit s
  | .hfma2 g d a b c ty r fit => Sys2Proof.Machine.execHfma2 g d a b c ty r fit s
  | .ldg g d n off sz sgn ev fit => Sys2Proof.Machine.execLdg g d n off sz sgn ev fit s
  | .stg g d n off sz => Sys2Proof.Machine.execStg g d n off sz s
  | .ldl g d n off sz sgn fit => Sys2Proof.Machine.execLdl g d n off sz sgn fit s
  | .stl g d n off sz => Sys2Proof.Machine.execStl g d n off sz s
  | .ldk g d idx h wn fit => Sys2Proof.Machine.execLdk g d idx h wn fit s
  | .atomg g d n x off op fit => Sys2Proof.Machine.execAtomg g d n x off op fit s
  | .atoml g d n x off op fit => Sys2Proof.Machine.execAtoml g d n x off op fit s
  | .red g n x off op => Sys2Proof.Machine.execRed g n x off op s
  | .fence g sc => Sys2Proof.Machine.execFence g sc s
  | .chunk g => Sys2Proof.Machine.execChunk g s
  | .chkst g d fit => Sys2Proof.Machine.execChkst g d fit s
  | .pfg g n off l2 => Sys2Proof.Machine.execPfg g n off l2 s
  | .cwb g n off => Sys2Proof.Machine.execCwb g n off s
  | .cinv g n off l2 => Sys2Proof.Machine.execCinv g n off l2 s
  | .mwait g n off vc => Sys2Proof.Machine.execMwait g n off vc s
  | .mldp g vb => Sys2Proof.Machine.execMldp g vb s
  | .mswap g => Sys2Proof.Machine.execMswap g s
  | .mstr g vn va vg vz => Sys2Proof.Machine.execMstr g vn va vg vz s
  | .mstrp g vn va vg vz => Sys2Proof.Machine.execMstrp g vn va vg vz s
  | .mdrn g vd vg vx vs out relu clr bias bar pipe => Sys2Proof.Machine.execMdrn g vd vg vx vs out relu clr bias bar pipe s
  | .mzero g vg => Sys2Proof.Machine.execMzero g vg s
  | .mdup g vm => Sys2Proof.Machine.execMdup g vm s
  | .kick g idx h => Sys2Proof.Machine.execKick g idx h s
  | .binit g vb vn => Sys2Proof.Machine.execBinit g vb vn s
  | .arrive g vb vn vs => Sys2Proof.Machine.execArrive g vb vn vs s
  | .bexp g vb vs => Sys2Proof.Machine.execBexp g vb vs s
  | .btest g vd vb sec fit => Sys2Proof.Machine.execBtest g vd vb sec fit s
  | .bwait g vb vp => Sys2Proof.Machine.execBwait g vb vp s
  | .prsv g vd idx h fit => Sys2Proof.Machine.execPrsv g vd idx h fit s
  | .ctak g vd idx h fit => Sys2Proof.Machine.execCtak g vd idx h fit s
  | .pcmt g vt => Sys2Proof.Machine.execPcmt g vt s
  | .crel g vt => Sys2Proof.Machine.execCrel g vt s
  | .pstat g vd m idx h fit => Sys2Proof.Machine.execPstat g vd m idx h fit s
  | .launch g idx h => Sys2Proof.Machine.execLaunch g idx h s
  | .setfmt g a => Sys2Proof.Machine.execSetfmt g a s
  | .getfmt g d fit => Sys2Proof.Machine.execGetfmt g d fit s
  | .csrr g d n fit => Sys2Proof.Machine.execCsrr g d n fit s
  | .csrw g n a op => Sys2Proof.Machine.execCsrw g n a op s
  | .gname g d fit => Sys2Proof.Machine.execGname g d fit s
  | .arm g vr vn => Sys2Proof.Machine.execArm g vr vn s
  | .armif g vr vn => Sys2Proof.Machine.execArmif g vr vn s
  | .regput g vt vn vs => Sys2Proof.Machine.execRegput g vt vn vs s
  | .holdq g d vr fit => Sys2Proof.Machine.execHoldq g d vr fit s
  | .rld g d vp vo sz sgn fit => Sys2Proof.Machine.execRld g d vp vo sz sgn fit s
  | .rst g d vp vo sz => Sys2Proof.Machine.execRst g d vp vo sz s
  | .ratom g d vp vo vx op fit => Sys2Proof.Machine.execRatom g d vp vo vx op fit s
  | .rred g vp vo vx op => Sys2Proof.Machine.execRred g vp vo vx op s
  | .tfence g => Sys2Proof.Machine.execTfence g s
  | .phint g idx h => Sys2Proof.Machine.execPhint g idx h s
  | .pmcr g d code hi fit => Sys2Proof.Machine.execPmcr g d code hi fit s
  | .rcpdef g d vh vb idx fit => Sys2Proof.Machine.execRcpdef g d vh vb idx fit s
  | .rseal g vt => Sys2Proof.Machine.execRseal g vt s
  | .rdrop g vt => Sys2Proof.Machine.execRdrop g vt s
  | .rpin g vt vz => Sys2Proof.Machine.execRpin g vt vz s
  | .runpin g vt vz => Sys2Proof.Machine.execRunpin g vt vz s
  | .bra g off => Sys2Proof.Machine.execBra g off s
  | .brd g off => Sys2Proof.Machine.execBrd g off s
  | .join => Sys2Proof.Machine.execJoin s
  | .loop g va off fit => Sys2Proof.Machine.execLoop g va off fit s
  | .call g off => Sys2Proof.Machine.execCall g off s
  | .ret g => Sys2Proof.Machine.execRet g s
  | .exit g => Sys2Proof.Machine.execExit g s
  | .nop g => Sys2Proof.Machine.execNop g s
  | .yield g => Sys2Proof.Machine.execYield g s
  | .trap g imm => Sys2Proof.Machine.execTrap g imm s
  | .rett => Sys2Proof.Machine.execRett s
  | .bkpt g imm => Sys2Proof.Machine.execBkpt g imm s
  | .sleep g imm dlv => Sys2Proof.Machine.execSleep g imm dlv s
  | .issueSelect core lane => Sys2Proof.Machine.execIssueSelect core lane s
  | .loadComplete grp idx => Sys2Proof.Machine.execLoadComplete grp idx s
  | .chunkCommit grp => Sys2Proof.Machine.execChunkCommit grp s
  | .streamStoreApply k => Sys2Proof.Machine.execStreamStoreApply k s
  | .reductionApply k half => Sys2Proof.Machine.execReductionApply k half s
  | .mwaitResume grp => Sys2Proof.Machine.execMwaitResume grp s
  | .sleepExpire grp => Sys2Proof.Machine.execSleepExpire grp s
  | .pageWalkComplete k => Sys2Proof.Machine.execPageWalkComplete k s
  | .l2Evict line => Sys2Proof.Machine.execL2Evict line s
  | .matrixDispatch core => Sys2Proof.Machine.execMatrixDispatch core s
  | .matrixComplete core k => Sys2Proof.Machine.execMatrixComplete core k s
  | .mstrpPairDiscard core => Sys2Proof.Machine.execMstrpPairDiscard core s
  | .recordFetch core => Sys2Proof.Machine.execRecordFetch core s
  | .instanceStart core => Sys2Proof.Machine.execInstanceStart core s
  | .sectorLand core inst sec => Sys2Proof.Machine.execSectorLand core inst sec s
  | .instanceComplete core inst => Sys2Proof.Machine.execInstanceComplete core inst s
  | .pcmtTakeEffect plan pipe slot => Sys2Proof.Machine.execPcmtTakeEffect plan pipe slot s
  | .crelTakeEffect plan pipe slot => Sys2Proof.Machine.execCrelTakeEffect plan pipe slot s
  | .throttleRelay plan pipe => Sys2Proof.Machine.execThrottleRelay plan pipe s
  | .crewExit crew => Sys2Proof.Machine.execCrewExit crew s
  | .sinkArrival plan => Sys2Proof.Machine.execSinkArrival plan s
  | .balancerSample plan => Sys2Proof.Machine.execBalancerSample plan s
  | .planRevisionPublish plan => Sys2Proof.Machine.execPlanRevisionPublish plan s
  | .planRevisionApply plan => Sys2Proof.Machine.execPlanRevisionApply plan s
  | .shadowProbe plan pipe => Sys2Proof.Machine.execShadowProbe plan pipe s
  | .deadlockDeclare plan pipe => Sys2Proof.Machine.execDeadlockDeclare plan pipe s
  | .forcedDrainTimeout plan => Sys2Proof.Machine.execForcedDrainTimeout plan s
  | .qtailWrite fn page v => Sys2Proof.Machine.execQtailWrite fn page v s
  | .qcfgWrite fn page v => Sys2Proof.Machine.execQcfgWrite fn page v s
  | .registerWrite fn reg v => Sys2Proof.Machine.execRegisterWrite fn reg v s
  | .launchPacket q => Sys2Proof.Machine.execLaunchPacket q s
  | .drainPacket q => Sys2Proof.Machine.execDrainPacket q s
  | .invalidatePacket q => Sys2Proof.Machine.execInvalidatePacket q s
  | .invalidationComplete k => Sys2Proof.Machine.execInvalidationComplete k s
  | .ageTick q => Sys2Proof.Machine.execAgeTick q s
  | .launchSelect places => Sys2Proof.Machine.execLaunchSelect places s
  | .namedCrewStart crew => Sys2Proof.Machine.execNamedCrewStart crew s
  | .hintDeadline core => Sys2Proof.Machine.execHintDeadline core s
  | .saveComplete core => Sys2Proof.Machine.execSaveComplete core s
  | .restore image core => Sys2Proof.Machine.execRestore image core s
  | .deliveryArrive k => Sys2Proof.Machine.execDeliveryArrive k s
  | .deliveryLand k => Sys2Proof.Machine.execDeliveryLand k s
  | .deliveryResend k => Sys2Proof.Machine.execDeliveryResend k s
  | .deliveryAck k => Sys2Proof.Machine.execDeliveryAck k s
  | .nameRelease idx => Sys2Proof.Machine.execNameRelease idx s
  | .holdWatchdog => Sys2Proof.Machine.execHoldWatchdog s
  | .recomputeStart ctx rec core level => Sys2Proof.Machine.execRecomputeStart ctx rec core level s
  | .recomputeComplete core level => Sys2Proof.Machine.execRecomputeComplete core level s
  | .recomputeFail core level => Sys2Proof.Machine.execRecomputeFail core level s
  | .sealedTileError ctx rec => Sys2Proof.Machine.execSealedTileError ctx rec s
  | .softError st core addr bad => Sys2Proof.Machine.execSoftError st core addr bad s
  | .fabricPacketReceive port pkt => Sys2Proof.Machine.execFabricPacketReceive port pkt s
  | .e2eTimeout dst seq => Sys2Proof.Machine.execE2eTimeout dst seq s
  | .e2eAck dst seq => Sys2Proof.Machine.execE2eAck dst seq s
  | .routeDetour dst => Sys2Proof.Machine.execRouteDetour dst s
  | .linkTrain port ok => Sys2Proof.Machine.execLinkTrain port ok s
  | .hostWindowWrite fn off bytes => Sys2Proof.Machine.execHostWindowWrite fn off bytes s
  | .hostWindowRead fn off len => Sys2Proof.Machine.execHostWindowRead fn off len s
  | .createContext fn root frames => Sys2Proof.Machine.execCreateContext fn root frames s
  | .teardown fn ctx => Sys2Proof.Machine.execTeardown fn ctx s
  | .writeCcb fn ctx c => Sys2Proof.Machine.execWriteCcb fn ctx c s
  | .setQuota fn ctx q => Sys2Proof.Machine.execSetQuota fn ctx q s
  | .bindPeer fn ctx pkg peerCtx wins => Sys2Proof.Machine.execBindPeer fn ctx pkg peerCtx wins s
  | .bindTenant fn ctx tenant => Sys2Proof.Machine.execBindTenant fn ctx tenant s
  | .readCounter fn => Sys2Proof.Machine.execReadCounter fn s
  | .updateFirmware fn version signed => Sys2Proof.Machine.execUpdateFirmware fn version signed s
  | .lifecycleToken fn key => Sys2Proof.Machine.execLifecycleToken fn key s
  | .thermalSample tj milliwatt => Sys2Proof.Machine.execThermalSample tj milliwatt s
  | .stepFall => Sys2Proof.Machine.execStepFall s
  | .clockStepChange => Sys2Proof.Machine.execClockStepChange s
  | .lynxRestart => Sys2Proof.Machine.execLynxRestart s
  | .powerGood measured pkg failed => Sys2Proof.Machine.execPowerGood measured pkg failed s
  | .voltageOutOfRange out => Sys2Proof.Machine.execVoltageOutOfRange out s
  | .wipeComplete => Sys2Proof.Machine.execWipeComplete s
  | .storeComplete grp idx => Sys2Proof.Machine.execStoreComplete grp idx s
  | .badCommand fn => Sys2Proof.Machine.execBadCommand fn s

end Sys2Proof.Machine
end

