-- ==== Sys2Proof/Machine/Time.lean ====
section
/-! DEFINITION. The passing of time: clock cycles, the counters of lanes and engines, the wait counts, the banks (R170, R203, R206, R214 to R218, R374, R490). -/
namespace Sys2Proof.Machine

/-- The whole clock cycles that `ns` nanoseconds bring, and the eighths left over (R490). -/
def cyclesIn (step phase ns : Nat) : Nat × Nat := ((phase + ns * (8 - step)) / 8, (phase + ns * (8 - step)) % 8)

/-! ### Lanes -/

/-- R216: the designated group of a lane: the one whose last issue ended earliest, ties to the lowest slot. -/
def designated (s : State) : List Nat → Option Nat
  | [] => none
  | k :: ks =>
    match designated s ks with
    | none => some k
    | some b =>
      let x := s.grp k
      let y := s.grp b
      if y.last < x.last ∨ (y.last = x.last ∧ y.place.slot < x.place.slot) then some b else some k

/-- The group that nothing keeps from issuing on a lane: the one that issues without a hold, else the one that the lane would select (R204). -/
def dueOn (s : State) (core lane : Nat) : Option Nat :=
  match (laneGroups s core lane).find? fun k => (s.grp k).status == .issuing with
  | some k => if (s.grp k).hold.isNone then some k else none
  | none => if laneShut s core lane then none else selectOn s core lane

/-- R215, R216: the counter that a cycle of a lane is charged to on which nothing can issue: the hold of the group that issues; else the designated
group's first failing condition. A lane that holds for a commit is charged to chunkhold (R447). -/
def laneStall (s : State) (core lane : Nat) : Nat :=
  let ks := laneGroups s core lane
  match ks.find? fun k => (s.grp k).status == .issuing with
  | some k => (s.grp k).hold.getD 0x0
  | none => if laneShut s core lane then stallChunk else match designated s ks with
    | none => 0x1
    | some k => (stallOf s k).getD 0x0

/-- R103, R214: cycles of instructions that have issued, counted when they did, group by group; what is left of the cycles. -/
def payDebts (n : Nat) (ks : List Nat) (s : State) : Nat × State :=
  ks.foldl (fun r k =>
    let g := r.2.grp k
    if r.1 = 0 ∨ g.debt = 0 then r else (r.1 - g.debt, r.2.setGrp k { g with debt := g.debt - r.1 })) (n, s)

/-- R206: cycles that a throttled lane idles; what is left of them. -/
def payIdle (n : Nat) (ks : List Nat) (s : State) : Nat × State :=
  ks.foldl (fun r k =>
    let g := r.2.grp k
    if r.1 = 0 ∨ g.idle = 0 then r else (r.1 - g.idle, r.2.setGrp k { g with idle := g.idle - r.1 })) (n, s)

/-- R206: cycles for which the lane is held in a clause count with those the clause has held it. -/
def heldOn (n core lane : Nat) (s : State) : State :=
  match (laneGroups s core lane).find? fun k => (s.grp k).status == .issuing with
  | some k => s.setGrp k { s.grp k with held := (s.grp k).held + n }
  | none => s

/-- R206, R214 to R216: `n` cycles of a lane, each counted once: those of what has issued, those idled away under the throttle, which count as issue,
and those charged to a stall. The counters count while a stage of the context runs. -/
def chargeLane (n core lane : Nat) (s : State) : State :=
  let c := s.core core
  let ks := standOn s core lane
  let code := laneStall s core lane
  let (m, s) := payDebts n ks s
  let (r, s) := payIdle m ks s
  let s := if r = 0 then s else heldOn r core lane s
  if c.plan.isNone then s
  else (if r = 0 then id else fun (s : State) => s.count c.ctx core code r) (if m = r then s else s.count c.ctx core 0x0 (m - r))

/-! ### Engines (R218) -/

/-- The least of some codes. -/
def leastCode : List Nat → Option Nat
  | [] => none
  | x :: xs => some (xs.foldl min x)

/-- R218: the causes for which the head of a matrix engine's queue waits. -/
def headWaits (s : State) (core : Nat) (q : MCmd) : List Nat :=
  let c := s.core core
  let run := c.mat.run.map Prod.snd
  (if q.op.isStream && run.any (fun x => x.op.isLoad || (match x.op with | .mswap => true | _ => false)) then [0x102] else []) ++
  (if banksRefuse c (q.reads ++ q.writes) then [0x103] else []) ++
  (if run.any (fun x => x.op.isDrain && opsMeet x.op q.op) then [0x104] else []) ++
  (if q.op.paired && (headPair s core).isNone then [0x105] else [])

/-- R239, R241: whether an engine of a core waits for the translation of an address. -/
def engineAsks (s : State) (core ctx va : Nat) : Bool :=
  (tlbLookup s core ctx va).isNone &&
    ((s.walks.any fun w => w.2.ctx == ctx && w.2.engines.contains core && samePage s ctx w.2.va va) ||
     s.missq.any fun q => q.2.any fun m => m.ctx == ctx && m.core == core && m.grp.isNone && samePage s ctx m.va va)

/-- R218: the cause for which a running command waits; none where it advances, or is held by a reserved chunk (R456). A drain's wait for a translation is
charged to the one counter named xlate (R241, log 11). -/
def runWaits (s : State) (core : Nat) (c : MCmd) : Option Nat :=
  if banksRefuse (s.core core) (c.reads ++ c.writes) then some 0x103
  else if c.op.isDrain && (drainPages s c).any (engineAsks s core (s.crew c.crew).ctx) then some 0x183 else none

/-- R218: the counter that a cycle of a matrix engine is charged to: the lowest of the causes that hold. -/
def matrixStall (s : State) (core : Nat) : Nat :=
  let m := (s.core core).mat
  let runs := m.run.map fun r => runWaits s core r.2
  let head := match m.queue with | [] => [] | q :: _ => headWaits s core q
  if runs.any Option.isNone then 0x100
  else if m.queue.isEmpty && m.run.isEmpty then 0x101
  else (leastCode (head ++ runs.reduceOption)).getD 0x100

/-- R218, R247, R456: the cause for which a sector of a running instance waits; none where it can move, is under way to another package, or waits for a reserved chunk. A source in a
tile that is being recomputed waits for its slice (log 11). -/
def sectorWaits (s : State) (core : Nat) (i : Inst) (n : Nat) : Option Nat :=
  let c := s.core core
  let ctx := (s.crew i.crew).ctx
  let (src, dst) := secEnds s i n
  let slice : End → Bool := fun e => match e with
    | .glob va => (tileState s ctx va == .dropped || tileState s ctx va == .recomputing)
    | _ => false
  if i.away.any fun a => a.1 == n then none
  else if (src.globals ++ dst.globals).any (engineAsks s core ctx) then some 0x183
  else if banksRefuse c (src.sectors ++ dst.sectors) || drainReadsEnd s core dst then some 0x184
  else if slice src then some 0x185
  else match dst with
  | .away p .. => if mayLeave s p 0x12 then none else some 0x186
  | _ => none

/-- R218: the counter that a cycle of a request engine is charged to: the lowest of the causes that hold. -/
def requestStall (s : State) (core : Nat) : Nat :=
  let e := (s.core core).eng
  let waits := e.running.flatMap fun i => if i.left.isEmpty then [none] else i.left.map (sectorWaits s core i)
  let fetches := !e.kicks.isEmpty
  if waits.any Option.isNone then 0x180
  else if e.running.isEmpty && !fetches then (if e.waiting.any fun i => i.need == 0 then 0x180 else 0x181)
  else (leastCode ((if fetches then [0x182] else []) ++ waits.reduceOption)).getD 0x182

/-- R214: `n` cycles of a core's lanes, and of its engines where a stage runs on it. -/
def chargeCore (n core : Nat) (s : State) : State :=
  let c := s.core core
  let lanes := ((s.groups.filter fun e => e.2.live && e.2.place.core == core).map fun e => e.2.place.lane).eraseDups
  let m := matrixStall s core
  let r := requestStall s core
  let s := lanes.foldl (fun s l => chargeLane n core l s) s
  if c.plan.isNone then s
  else ((s.count c.ctx core 0x1 (n * (256 - lanes.length))).count c.ctx core m n).count c.ctx core r n

/-! ### Groups and banks -/

/-- R203: the wait counts of the Ready groups after `n` cycles, of which a group's own lane cycles still owed are none of waiting. -/
def ageGroups (n : Nat) (s : State) : State :=
  { s with groups := mapT (fun k g =>
      if g.live && g.status != .issuing && (stallOf s k).isNone then { g with w := g.w + (n - g.debt) } else g) s.groups }

/-- R170: every bank has served a request in each of `n` cycles. -/
def drainBanks (n : Nat) (s : State) : State :=
  if s.cores.all fun e => e.2.bankq.isEmpty then s
  else { s with cores := mapT (fun _ c => { c with bankq := (c.bankq.map fun e => (e.1, e.2 - n)).filter fun e => e.2 != 0 }) s.cores }

/-! ### The order of a cycle's bank requests (R207) -/

/-- R170: the banks that the instruction a group is about to issue addresses. -/
def bankNeeds (s : State) (k : Nat) : List Nat :=
  let g := s.grp k
  let of := fun (i : Instr) (read write : Bool) (size : Nat) (n : Reg) (off : BitVec 24) =>
    ((bankRows (localSplit g (s.core g.place.core) read write size n off (setFor (useOf g.regs.fmt i) g.regs)).2).map (· % 64)).eraseDups
  match g.word with
  | none => []
  | some w => match decode w with
    | .ok (.ldl a d n off sz sgn fit) => of (.ldl a d n off sz sgn fit) true false sz.bytes n off
    | .ok (.stl a d n off sz) => of (.stl a d n off sz) false true sz.bytes n off
    | .ok (.atoml a d n x off op fit) => of (.atoml a d n x off op fit) true true op.bytes n off
    | _ => []

/-- R207: whether a group's requests enter a bank before another's of the same cycle: by role level, then by lane. -/
def bankBefore (a b : Group) : Bool :=
  decide (b.place.role < a.place.role) || (a.place.role == b.place.role && decide (a.place.lane < b.place.lane))

/-- R207: whether another lane of the core, whose requests of this cycle enter a bank before those of a group, has still to issue. -/
def bankOutranked (s : State) (k : Nat) : Bool :=
  let g := s.grp k
  let mine := bankNeeds s k
  !mine.isEmpty && s.groups.any fun e =>
    e.1 != k && e.2.live && e.2.place.core == g.place.core && e.2.place.lane != g.place.lane && e.2.status == .issuing && e.2.hold.isNone &&
    !laneBusy s e.2.place.core e.2.place.lane && bankBefore e.2 g && (bankNeeds s e.1).any mine.contains

/-- R204, R214: whether a lane issues or selects before any cycle passes: something is due on it, and the cycles of what went before have passed. -/
def laneDue (s : State) (core lane : Nat) : Bool := !laneBusy s core lane && (dueOn s core lane).isSome

/-- Whether time waits for some lane. -/
def timeWaits (s : State) : Bool := s.groups.any fun e => e.2.live && laneDue s e.2.place.core e.2.place.lane

/-- The lanes that make an empty selection in a cycle that passes (R204). -/
def emptyLanes (s : State) : List (Nat × Nat) :=
  (s.groups.filterMap fun e => if e.2.live && laneSelects s e.2.place.core e.2.place.lane then some (e.2.place.core, e.2.place.lane) else none).eraseDups

/-- R204, R57: in each cycle at a boundary with nothing Ready the lane has made a selection that picks nothing. -/
def selectNothing (lanes : List (Nat × Nat)) (s : State) : State := lanes.foldl (fun s l => endYields l.1 l.2 (beginSelect l.1 l.2 s)) s

/-- Nanoseconds pass (R374, R490, R491); the grants of the cycles that are over hold their slices no more (R448). -/
def passTime (ns : Nat) (s : State) : State :=
  let (n, ph) := cyclesIn s.pkg.step s.phase ns
  let s := { s with now := (s.now + ns) % 2 ^ 64, phase := ph }
  if n = 0 then s
  else selectNothing (emptyLanes s) (drainBanks n ((s.cores.map Prod.fst).foldl (fun s c => chargeCore n c s) (ageGroups n { s with beacon := [] })))

/-- Whether the passing of a cycle can free a lane: one is busy, a group is excluded from its next selection (R57), or a bank has requests to serve
(R170). -/
def timeFrees (s : State) : Bool :=
  (s.groups.any fun e => e.2.live && (e.2.debt != 0 || e.2.idle != 0 || (e.2.yielded && e.2.status != .ended && e.2.status != .saved))) || s.cores.any fun e => !e.2.bankq.isEmpty

/-- Up to a number of nanoseconds pass, as long as no lane that can issue has still to (log 2). -/
def letTime : Nat → State → State
  | 0, s => s
  | n + 1, s => if timeWaits s then s else if timeFrees s then letTime n (passTime 1 s) else passTime (n + 1) s

end Sys2Proof.Machine
end

