-- ==== Sys2Proof/Machine/Run.lean ====
section
/-! DEFINITION. One step of the machine as data chooses it: the agenda's head, or, with an empty agenda, a schedule of the model's own (log 2). -/
namespace Sys2Proof.Machine

/-- The running group issues: it enters its clause if it has not yet, else it executes the word at its program counter. -/
def issueMe (s : State) : Res :=
  if s.me.live && s.me.status == .issuing then
    match s.me.word with
    | none => .next (enterClause s)
    | some w => match decode w with
      | .ok i => exec i s
      | .error _ => undecoded s
  else .next s

/-- An event of an agent; an instruction word is no event. -/
def runEvent (e : Instr) (s : State) : Res := if (encode e).isNone then exec e s else .next s

/-- One action. A group whose last instruction still holds the lane issues nothing (R103), one whose bank requests another lane's of the cycle precede waits for
them (R207). -/
def act (a : Action) (s : State) : Res :=
  match a with
  | .event e => runEvent e s
  | .issue k => if (s.grp k).debt = 0 && !bankOutranked s k then issueMe { s with cur := k } else .next s
  | .fetch core line => .next (fillIcache core line s)
  | .home src seq => .next (retryParked src seq s)
  | .pass src dst seq => .next (retryTransit src dst seq s)
  | .time n => .next (serveHost (letTime n s))
  | .barRead fn bar off len => .next (readBar fn bar off len s)
  | .buffer port vc => .next (returnBuf port vc s)
  | .replay port => .next (replayLink port s)
  | .farLink a b up => .next (hearLink a b up s)

/-- What the groups can bring about next: an issue, a selection, a fetch, the end of an access, a commit, a wake-up. -/
def groupActions (s : State) : List Action :=
  s.groups.flatMap fun e =>
    let k := e.1
    let g := e.2
    if !g.live then [] else
    (match g.status with
      | .issuing => [.issue k]
      | .waiting => [.event (.issueSelect g.place.core g.place.lane)]
      | .suspended (.sleep ..) => [.event (.sleepExpire k)]
      | _ => []) ++
    (match g.status with
      | .waiting | .suspended _ => (missingLines s g).map (.fetch g.place.core)
      | _ => []) ++
    (if g.clo.isSome || g.limitReached || waitsForOwn s k then [.event (.chunkCommit k)] else []) ++
    (g.loads.map fun l => .event (.loadComplete k l.id)) ++ (g.stores.map fun x => .event (.storeComplete k x.id)) ++
    (match g.place.slice with
      | some sl => [.event (.recomputeComplete g.place.core sl.level), .event (.recomputeFail g.place.core sl.level)]
      | none => [])

/-- What the engines of the cores can bring about next, and their saves. -/
def coreActions (s : State) : List Action :=
  s.cores.flatMap fun e =>
    (if e.2.mat.queue.isEmpty then [] else [.event (.matrixDispatch e.1), .event (.mstrpPairDiscard e.1)]) ++
    (e.2.mat.run.mapIdx fun i _ => .event (.matrixComplete e.1 i)) ++
    (if e.2.eng.kicks.isEmpty then [] else [.event (.recordFetch e.1)]) ++
    (if e.2.eng.waiting.isEmpty then [] else [.event (.instanceStart e.1)]) ++
    (e.2.eng.running.flatMap fun i => .event (.instanceComplete e.1 i.id) :: i.left.map fun j => .event (.sectorLand e.1 i.id j)) ++
    (if e.2.save.isSome then [.event (.hintDeadline e.1), .event (.saveComplete e.1)] else [])

/-- The slots of a pipe that wait for a posted commit or release to take effect. -/
def slotActions (plan j : Nat) (q : Pipe) : List Action :=
  q.refs.flatMap fun r => match (q.slot r).state with
    | .committing _ => [.event (.pcmtTakeEffect plan j r.num)]
    | .releasing _ => [.event (.crelTakeEffect plan j r.num)]
    | _ => []

/-- What plans, crews and queues can bring about next. -/
def planActions (s : State) : List Action :=
  (s.plans.flatMap fun e =>
    [.event (.sinkArrival e.1), .event (.balancerSample e.1), .event (.planRevisionPublish e.1), .event (.planRevisionApply e.1),
     .event (.forcedDrainTimeout e.1)] ++
    (e.2.pipes.mapIdx fun j q =>
      [.event (.throttleRelay e.1 j), .event (.shadowProbe e.1 j), .event (.deadlockDeclare e.1 j)] ++ slotActions e.1 j q).flatten) ++
  (s.crews.flatMap fun e => [.event (.crewExit e.1), .event (.namedCrewStart e.1)]) ++
  (s.queues.flatMap fun e => if e.2.en then
    [.event (.launchPacket e.1), .event (.drainPacket e.1), .event (.invalidatePacket e.1), .event (.ageTick e.1)] else []) ++
  (if (candidatesOf s).isEmpty then [] else [.event (.launchSelect [])]) ++
  (s.invals.map fun e => .event (.invalidationComplete e.1)) ++
  (allImages s).filterMap fun e => (e.2.into.orElse fun _ => restoreTarget s e.2).map fun c => .event (.restore e.2.id c)

/-- What the Den, the fabric and the tiles can bring about next. -/
def hubActions (s : State) : List Action :=
  (s.flights.map fun f => .event (match f.op with | .store _ => .streamStoreApply f.id | .red .. => .reductionApply f.id f.half)) ++
  (s.walks.map fun e => .event (.pageWalkComplete e.1)) ++
  (s.dlvs.flatMap fun e => [.event (.deliveryArrive e.1), .event (.deliveryLand e.1), .event (.deliveryResend e.1), .event (.deliveryAck e.1)]) ++
  (s.den.filterMap fun e => if e.2.ending.isSome then some (.event (.nameRelease e.1)) else none) ++
  (s.ctxs.flatMap fun c => c.2.recipes.flatMap fun r => r.2.wants.map fun w => .event (.recomputeStart c.1 r.1 w.1 w.2)) ++
  (match loopHead s with | some e => [.event (.fabricPacketReceive e.1 e.2)] | none => []) ++
  (s.targets.flatMap fun t => t.2.copies.flatMap fun c =>
    if c.numbered then [.event (.e2eAck t.1 c.pkt.seq), .event (.e2eTimeout t.1 c.pkt.seq)] else []) ++
  (s.ports.flatMap fun p => if p.2.up then (List.range 3).filterMap fun v => if p.2.buf v < 32 then some (.buffer p.1 v) else none else []) ++
  (s.parked.map fun p => .home p.src p.seq) ++ (s.transit.map fun e => .pass e.2.src e.2.dst e.2.seq) ++
  [.event .holdWatchdog, .event .stepFall, .event .clockStepChange, .event .wipeComplete]

/-- What may act next. -/
def candidates (s : State) : List Action := groupActions s ++ coreActions s ++ planActions s ++ hubActions s

/-- The schedule of the model's own: bring-up first, then the candidates in turn, each with a nanosecond's time where time can pass. -/
def idleStep (s : State) : Res :=
  if !s.pkg.up then exec (.powerGood true 0 []) s
  else
    let l := candidates s
    match l[s.turn % l.length]? with
    | none => .next (serveHost (letTime 1 s))
    | some a => match act a { s with turn := s.turn + 1 } with
      | .next s => .next (serveHost (letTime 1 s))
      | r => r

/-- A step with an empty agenda: the running group's instruction, or the schedule where it cannot issue. -/
def ownStep (s : State) : Res :=
  if s.me.live && s.me.status == .issuing && s.me.hold.isNone && s.me.debt == 0 then issueMe s else idleStep s

/-- A word placed for the running group to execute next: a group of its own, issuing a clause of one word of that word's class. -/
def placeWord (s : State) (w : Word64) : State :=
  let c : Clause := { base := 0, hdr := suavaHeader w, first := 8, words := [w] }
  let g : Group := { live := true, status := .issuing, pc := 8, clause := some c }
  { s with agenda := [], cur := s.serial, groups := setT s.groups s.serial g }

end Sys2Proof.Machine
end

