-- ==== Sys2Proof/Machine/Step.lean ====
section
/-! DEFINITION. The step of the machine, and a word placed where the next step fetches it. -/
namespace Sys2Proof.Machine

/-- One step: the agenda's head acts, or, with an empty agenda, the machine's own schedule (log 2). -/
def step (s : State) : Host.Outcome State Fault Refusal :=
  match s.agenda with
  | [] => ownStep s
  | a :: rest => act a { s with agenda := rest }

/-- The state with an instruction of `nbits` bits, the others zero, in the clause that the next step fetches from (R51, R59). -/
def State.withFetchWord (s : State) (nbits w : Nat) : State := placeWord s (BitVec.ofNat 64 (w % 2 ^ nbits))

end Sys2Proof.Machine
end

