-- ==== Sys2Proof/Safety.lean ====
section
/-! DEFINITION. What a safe run is, and the terms in which claims speak of an instruction that acts: when it enters, what completing it means, and
what it leaves alone. -/
namespace Sys2Proof.Machine

/-- A step that answers a next state. -/
def steps (s : State) : Bool :=
  match step s with
  | .next _ => true
  | _ => false

/-- The first `k` steps all answer a next state. -/
def safeFor : Nat → State → Bool
  | 0, _ => true
  | k + 1, s =>
    match step s with
    | .next t => safeFor k t
    | _ => false

/-! ### An instruction that acts -/

/-- What an instruction of the running group uses. -/
def useIn (i : Instr) (s : State) : Use := useOf s.me.regs.fmt i

/-- The threads an instruction of the running group acts for (R105). -/
def activeFor (i : Instr) (s : State) : Mask := setFor (useIn i s) s.me.regs

/-- The state in which an instruction finds its group: a chunk at its limit has closed (R445). -/
def issuing (s : State) : State := if s.me.limitReached then s.setMe (closeChunk s.me) else s

/-- Nothing stands before the effect of an instruction of the running group: the group is live and issues, with no fault pending, its lane is not held for a
load, the word passes the checks of R69, its chunk is not waiting to close, some thread is active, no register it uses is held, poisoned or
awaited (R56, R358), and it has its commit wait behind it (R445) or room in the checkpoint store (R446). `rows` counts the rows of local memory that it
writes for the first time. -/
structure Enters (i : Instr) (rows : Group → Nat) (s : State) : Prop where
  live : s.me.live = true
  runs : s.me.status = .issuing
  pend : s.me.pend = none
  loads : s.me.loads.any Load.hold = false
  word : wordOk s.me i = true
  closing : s.me.closeReq = false
  limit : (issuing s).me.closeReq = false
  active : activeFor i s ≠ 0
  allowed : ((useIn i s).forbid && s.me.place.slice.isSome) = false
  free : obstacle (useIn i s) (issuing s).me = none
  commit : (useIn i s).irr = true → (issuing s).me.uncommitted = false
  room : (useIn i s).irr = false →
    storeRoom (issuing s) (openChunk (issuing s).me)
      (((firstWrites (openChunk (issuing s).me) (useIn i s).writes).map fun r => (tagOf s.me.place.shape r).words).sum +
        5 * rows (openChunk (issuing s).me)) = true

/-- The running group as an instruction's own effect finds it: in its open chunk, or outside every chunk. -/
def enteredGroup (i : Instr) (s : State) : Group :=
  if (useIn i s).irr then { (issuing s).me with opn := none, hold := none }
  else (openChunk (issuing s).me).onOpen fun c =>
    { c with wrote := firstWrites (openChunk (issuing s).me) (useIn i s).writes ++ c.wrote }

/-- The state that an instruction's own effect finds. -/
def entered (i : Instr) (s : State) : State := s.setMe (enteredGroup i s)

/-- The value that thread `k` gets of an elementwise result: its own, or under the uniform mark the lowest active thread's (R58). -/
def resultOf (g : Group) (S : Mask) (r : Nat → Word) (k : Nat) : Word := if g.uniMark then r (lowest S) else r k

/-! ### What completing means, and what is left alone -/

/-- The running group has moved past its instruction: the program counter stands 8 bytes on, in the same clause unless this was its last
instruction (R57, R59). -/
structure MovesOn (s t : State) : Prop where
  pc : t.me.pc = s.me.pc + 8
  within : s.me.atLast = false → t.me.clause = s.me.clause ∧ t.me.status = s.me.status
  leaves : s.me.atLast = true → t.me.clause = none ∧ t.me.status = .waiting
  lane : t.me.hold = none

/-- Nothing outside the running group has changed but the counters: memory, cores with their local memories, accumulators and engines, every other
group, contexts, plans and the rest stand as they did. -/
structure OutsideKept (s t : State) : Prop where
  rest : t = { s with groups := t.groups, ctr := t.ctr }
  others : ∀ k, k ≠ s.cur → t.grp k = s.grp k

/-- Of the running group, what belongs neither to its registers nor to its place in the program has not changed. -/
structure PartsKept (s t : State) : Prop where
  place : t.me.place = s.me.place
  live : t.me.live = s.me.live
  watch : t.me.watch = s.me.watch
  stores : t.me.stores = s.me.stores
  dlv : t.me.dlv = s.me.dlv
  mcmd : t.me.mcmd = s.me.mcmd
  rem : t.me.rem = s.me.rem
  ask : t.me.ask = s.me.ask
  sending : t.me.sending = s.me.sending
  wait : t.me.wait = s.me.wait
  nextId : t.me.nextId = s.me.nextId
  banked : t.me.banked = s.me.banked
  image : t.me.image = s.me.image

/-- The registers a vector result leaves: every storage word of every register but those written. -/
def KeepsRegs (v w : Tab Word) (ds : List Reg) : Prop := ∀ r : Reg, r ∉ ds → ∀ i, i < 32 → regWord w r i = regWord v r i

/-- An instruction that only computes: it answers a next state in which the group has moved on, its registers are as given, and nothing else has
changed. -/
def Computes (i : Instr) (s : State) (regs : Regs) : Prop :=
  ∃ t, exec i s = .next t ∧ t.me.regs = regs ∧ MovesOn s t ∧ OutsideKept s t ∧ PartsKept s t

/-- The running group has passed to the entry of a clause (R57, R59). -/
structure JumpsTo (t : State) (target : Pc) : Prop where
  pc : t.me.pc = target
  clause : t.me.clause = none
  status : t.me.status = .waiting
  entry : t.me.entry = .header
  lane : t.me.hold = none

/-- An instruction that only transfers control: the registers are as given, the group stands at the target, nothing else has changed. -/
def Transfers (i : Instr) (s : State) (regs : Regs) (target : Pc) : Prop :=
  ∃ t, exec i s = .next t ∧ t.me.regs = regs ∧ JumpsTo t target ∧ OutsideKept s t ∧ PartsKept s t

end Sys2Proof.Machine
end

