-- ==== Sys2Proof/Certificates/Slice0/Obligations.lean ====
section
/-! DEFINITION. The statements about the model, for the provers. The tables of the first part say, in the spec's terms, what each instruction is to
compute; the obligations say that it does, and what it leaves alone. -/
namespace Sys2Proof.Claims
open Sys2Proof.Machine

/-! ### What the spec gives each instruction to compute -/

/-- A vector result: its destination, its fit bit, and the value for a thread. -/
abbrev Row := Reg × Bool × (Nat → Word)

/-- R112, R113: the arithmetic results. -/
def arithRow (g : Group) : Instr → Option Row
  | .iaddA _ d a b fit => some (d, fit, fun t => g.elem a t + g.elem b t)
  | .iaddI _ d a imm fit => some (d, fit, fun t => g.elem a t + imm)
  | .isub _ d a b fit => some (d, fit, fun t => g.elem a t - g.elem b t)
  | .imulA _ d a b fit => some (d, fit, fun t => g.elem a t * g.elem b t)
  | .imulI _ d a imm fit => some (d, fit, fun t => g.elem a t * imm)
  | .imulh _ d a b u fit => some (d, fit, fun t => mulHigh u (g.elem a t) (g.elem b t))
  | .imad _ d a b c fit => some (d, fit, fun t => g.elem a t * g.elem b t + g.elem c t)
  | .idiv _ d a b u fit => some (d, fit, fun t => divide u (g.elem a t) (g.elem b t))
  | .irem _ d a b u fit => some (d, fit, fun t => remainder u (g.elem a t) (g.elem b t))
  | .imin _ d a b u fit => some (d, fit, fun t => minWord u (g.elem a t) (g.elem b t))
  | .imax _ d a b u fit => some (d, fit, fun t => maxWord u (g.elem a t) (g.elem b t))
  | .iabs _ d a fit => some (d, fit, fun t => absWord (g.elem a t))
  | .ineg _ d a fit => some (d, fit, fun t => 0 - g.elem a t)
  | _ => none

/-- R112, R114: the bitwise, shift and field results. -/
def logicRow (g : Group) : Instr → Option Row
  | .andA _ d a b fit => some (d, fit, fun t => g.elem a t &&& g.elem b t)
  | .andI _ d a imm fit => some (d, fit, fun t => g.elem a t &&& imm)
  | .orA _ d a b fit => some (d, fit, fun t => g.elem a t ||| g.elem b t)
  | .orI _ d a imm fit => some (d, fit, fun t => g.elem a t ||| imm)
  | .xorA _ d a b fit => some (d, fit, fun t => g.elem a t ^^^ g.elem b t)
  | .xorI _ d a imm fit => some (d, fit, fun t => g.elem a t ^^^ imm)
  | .not _ d a fit => some (d, fit, fun t => ~~~(g.elem a t))
  | .popc _ d a fit => some (d, fit, fun t => popCount (g.elem a t))
  | .clz _ d a fit => some (d, fit, fun t => leadingZeros (g.elem a t))
  | .brev _ d a fit => some (d, fit, fun t => bitReverse (g.elem a t))
  | .shlA _ d a b fit => some (d, fit, fun t => shiftLeft (g.elem a t) (g.elem b t))
  | .shlI _ d a imm fit => some (d, fit, fun t => shiftLeft (g.elem a t) imm)
  | .shrA _ d a b fit => some (d, fit, fun t => shiftRight (g.elem a t) (g.elem b t))
  | .shrI _ d a imm fit => some (d, fit, fun t => shiftRight (g.elem a t) imm)
  | .sarA _ d a b fit => some (d, fit, fun t => shiftArith (g.elem a t) (g.elem b t))
  | .sarI _ d a imm fit => some (d, fit, fun t => shiftArith (g.elem a t) imm)
  | .bfx _ d a f sgn fit => some (d, fit, fun t => extractField sgn (g.elem a t) (g.elem f t))
  | .bfi _ d a b f fit => some (d, fit, fun t => insertField (g.elem a t) (g.elem b t) (g.elem f t))
  | _ => none

/-- The thread that thread `t` of a shuffle takes its element from, if R120 gives it one: it lies in 0 to 31 and is active. -/
def shuffled (m : ShflMode) (E : Mask) (t : Nat) (b : Word) : Option Nat :=
  match m with
  | .idx => if b.toNat < 32 ∧ E.getLsbD b.toNat then some b.toNat else none
  | .up => if b.toNat ≤ t ∧ E.getLsbD (t - b.toNat) then some (t - b.toNat) else none
  | .down => if t + b.toNat < 32 ∧ E.getLsbD (t + b.toNat) then some (t + b.toNat) else none
  | .xor => if t ^^^ b.toNat < 32 ∧ E.getLsbD (t ^^^ b.toNat) then some (t ^^^ b.toNat) else none

/-- R106, R117, R119, R120, R135, R136: the moves, and what a vote and a shuffle give; `E` is the set of threads that execute. -/
def moveRow (s : State) (g : Group) (E : Mask) : Instr → Option Row
  | .sel _ d a b p n fit => some (d, fit, fun t => if (readPred g.regs.p p).getLsbD t != n then g.elem a t else g.elem b t)
  | .mov _ d a fit => some (d, fit, fun t => g.elem a t)
  | .movi _ d imm fit => some (d, fit, fun _ => imm)
  | .movs _ d r fit => some (d, fit, fun t => special s g r t)
  | .vote _ d p .ballot n fit => some (d, fit, fun _ => maskOf fun t => E.getLsbD t && ((readPred g.regs.p p).getLsbD t != n))
  | .shfl _ d a b m fit => some (d, fit, fun t => g.elem a ((shuffled m E t (g.elem b t)).getD t))
  | .getfmt _ d fit => some (d, fit, fun _ => g.regs.fmt)
  | .csrr _ d n fit => some (d, fit, fun _ => csrValue g.regs n)
  | _ => none

/-- An instruction writes this vector result and does nothing else: the active threads' values stand in the destination by the rules for its
tag, and where they do not fit it there is a shape fault in the place of the whole effect. -/
def WritesRow (i : Instr) (s : State) : Row → Prop
  | (d, fit, r) =>
    match writeVec s.me.place.shape s.me.regs.v d (resultOf s.me (activeFor i s) r) (activeFor i s) fit with
    | some v => Computes i s { s.me.regs with v := v } ∧ KeepsRegs s.me.regs.v v [d]
    | none => exec i s = .next (shapeFault d (activeFor i s) (entered i s))

/-- A predicate result: its destination and the bit for a thread. -/
abbrev PredRow := Pred × (Nat → Bool)

/-- The number an element stands for, unsigned or signed. -/
def number (u : Bool) (w : Word) : Int := if u then w.toNat else w.toInt

/-- R116: a condition on two numbers. -/
def holds (c : Cond) (x y : Int) : Bool :=
  match c with
  | .eq => decide (x = y)
  | .ne => decide (x ≠ y)
  | .lt => decide (x < y)
  | .le => decide (x ≤ y)
  | .gt => decide (y < x)
  | .ge => decide (y ≤ x)

/-- R116, R118, R119: the predicate results; `E` is the set of threads that execute. -/
def predRow (g : Group) (E : Mask) : Instr → Option PredRow
  | .isetpA _ p a b c u k q =>
    some (p, fun t => combine k (holds c (number u (g.elem a t)) (number u (g.elem b t))) ((readPred g.regs.p q).getLsbD t))
  | .isetpI _ p a imm c u => some (p, fun t => holds c (number u (g.elem a t)) (number u imm))
  | .pand _ d a b => some (d, fun t => (readPred g.regs.p a).getLsbD t && (readPred g.regs.p b).getLsbD t)
  | .por _ d a b => some (d, fun t => (readPred g.regs.p a).getLsbD t || (readPred g.regs.p b).getLsbD t)
  | .pxor _ d a b => some (d, fun t => (readPred g.regs.p a).getLsbD t != (readPred g.regs.p b).getLsbD t)
  | .pnot _ d a => some (d, fun t => !(readPred g.regs.p a).getLsbD t)
  | .vote _ d p .any n _ => some (d.extractLsb' 0 3, fun _ => (threads E).any fun t => (readPred g.regs.p p).getLsbD t != n)
  | .vote _ d p .all n _ => some (d.extractLsb' 0 3, fun _ => (threads E).all fun t => (readPred g.regs.p p).getLsbD t != n)
  | .vote _ d p .eq n _ => some (d.extractLsb' 0 3, fun _ =>
      ((threads E).all fun t => (readPred g.regs.p p).getLsbD t != n) || ((threads E).all fun t => (readPred g.regs.p p).getLsbD t == n))
  | _ => none

/-- An instruction writes this predicate for its active threads and does nothing else; p7 keeps reading as all ones (R104). -/
def WritesPred (i : Instr) (s : State) : PredRow → Prop
  | (p, b) => ∃ ps, Computes i s { s.me.regs with p := ps } ∧
      ∀ q t, t < 32 → (readPred ps q).getLsbD t =
        if q = p ∧ q ≠ 7 ∧ (activeFor i s).getLsbD t then (if s.me.uniMark then b (lowest (activeFor i s)) else b t)
        else (readPred s.me.regs.p q).getLsbD t

/-- A vector result with flags: destination, fit bit, and code and flags for a thread. -/
abbrev FloatRow := Reg × Bool × (Nat → FRes)

/-- R145, R147, R150: the binary32 results; `rnd` is the governing mode (R141). -/
def floatRow (g : Group) : Instr → Option FloatRow
  | .faddA _ d a b r fit => some (d, fit, fun t => addFloat fp32 g.fsr (g.mode r) (g.f32 a t) (g.f32 b t))
  | .faddI _ d a imm r fit => some (d, fit, fun t => addFloat fp32 g.fsr (g.mode r) (g.f32 a t) (g.immF32 imm))
  | .fsub _ d a b r fit => some (d, fit, fun t => addFloat fp32 g.fsr (g.mode r) (g.f32 a t) (g.f32 b t).negate)
  | .fmulA _ d a b r fit => some (d, fit, fun t => mulFloat fp32 g.fsr (g.mode r) (g.f32 a t) (g.f32 b t))
  | .fmulI _ d a imm r fit => some (d, fit, fun t => mulFloat fp32 g.fsr (g.mode r) (g.f32 a t) (g.immF32 imm))
  | .ffma _ d a b c r fit => some (d, fit, fun t => fmaFloat fp32 g.fsr (g.mode r) (g.f32 a t) (g.f32 b t) (g.f32 c t))
  | .fmin _ d a b fit => some (d, fit, fun t => minmaxFloat true fp32 g.fsr (g.f32 a t) (g.f32 b t))
  | .fmax _ d a b fit => some (d, fit, fun t => minmaxFloat false fp32 g.fsr (g.f32 a t) (g.f32 b t))
  | .frcp _ d a r fit => some (d, fit, fun t => rcpFloat g.fsr (g.mode r) (g.f32 a t))
  | .frsq _ d a r fit => some (d, fit, fun t => rsqFloat g.fsr (g.mode r) (g.f32 a t))
  | .fexp2 _ d a r fit => some (d, fit, fun t => exp2Float g.fsr (g.mode r) (g.f32 a t))
  | .flog2 _ d a r fit => some (d, fit, fun t => log2Float g.fsr (g.mode r) (g.f32 a t))
  | _ => none

/-- R152: two results side by side, their flags ORed. -/
def sideBySide (lo hi : FRes) : FRes := (lo.1 + 65536 * hi.1, lo.2 ||| hi.2)

/-- R155: the bits of a part replaced, the others kept. -/
def withPart (w i : Nat) (y : Word) (q : Nat) : Word :=
  BitVec.ofNat 32 (y.toNat - y.toNat / 2 ^ (w * i) % 2 ^ w * 2 ^ (w * i) + q % 2 ^ w * 2 ^ (w * i))

/-- R152, R155: the packed-half and the conversion results. -/
def packedRow (g : Group) : Instr → Option FloatRow
  | .hadd2 _ d a b ty r fit => some (d, fit, fun t =>
      let f := fun h => addFloat (halfFmt ty) g.fsr (g.mode r) (g.half ty a t h) (g.half ty b t h)
      sideBySide (f 0) (f 1))
  | .hmul2 _ d a b ty r fit => some (d, fit, fun t =>
      let f := fun h => mulFloat (halfFmt ty) g.fsr (g.mode r) (g.half ty a t h) (g.half ty b t h)
      sideBySide (f 0) (f 1))
  | .hfma2 _ d a b c ty r fit => some (d, fit, fun t =>
      let f := fun h => fmaFloat (halfFmt ty) g.fsr (g.mode r) (g.half ty a t h) (g.half ty b t h) (g.half ty c t h)
      sideBySide (f 0) (f 1))
  | .fcvt _ d a dst src outp inp r fit => some (d, fit, fun t => convertElem g d a dst src outp inp r t)
  | .icvt _ d a dst src outp inp r fit => some (d, fit, fun t => convertElem g d a dst src outp inp r t)
  | _ => none

/-- R121: the threads of a reduction folded in ascending order, with the flags raised on the way. -/
def foldThreads (g : Group) (op : RedgOp) (a : Reg) : List Nat → Word × Word
  | [] => (0, 0)
  | t0 :: ts => ts.foldl (fun acc t =>
      let c := combineStep g op acc.1 (g.elem a t)
      (BitVec.ofNat 32 c.1, acc.2 ||| c.2)) (g.elem a t0, 0)

/-- An instruction writes this vector result, raises these flags of the threads that execute, and does nothing else; where the result does not
fit there is a shape fault in the place of the whole effect. -/
def WritesFloat (i : Instr) (s : State) (flags : Word) (d : Reg) (fit : Bool) (r : Nat → Word) : Prop :=
  match writeVec s.me.place.shape s.me.regs.v d (resultOf s.me (activeFor i s) r) (activeFor i s) fit with
  | some v => Computes i s { s.me.regs with v := v, flg := s.me.regs.flg ||| flags } ∧ KeepsRegs s.me.regs.v v [d]
  | none => exec i s = .next (shapeFault d (activeFor i s) (entered i s))

/-- The flags that the executing threads of an elementwise instruction raise (R81, R142). -/
def raised (i : Instr) (s : State) (f : Nat → FRes) : Word :=
  (threads (execSet s.me (activeFor i s))).foldl (fun w t => w ||| (f t).2) 0

/-! ### Control, traps and the group's own state -/

/-- R127: the stack once threads `F` wait at a clause: ORed into the top entry if that is a LOOP entry of the same target, else pushed. -/
def waitAt (fmt : Word) (F : Mask) (next : Pc) : List StackEntry → List StackEntry
  | e :: rest =>
    if e.kind = 1 ∧ e.target = next then { e with mask := e.mask ||| F } :: rest
    else { fmt := fmt, mask := F, kind := 1, target := next } :: e :: rest
  | [] => [{ fmt := fmt, mask := F, kind := 1, target := next }]

/-- R127: `B` branches and `F` does not. -/
def BranchesOn (i : Instr) (s : State) (regs : Regs) (B F : Mask) (target : Pc) : Prop :=
  (F = 0 → Transfers i s regs target) ∧
  (F ≠ 0 → B = 0 → Computes i s regs) ∧
  (F ≠ 0 → B ≠ 0 → Transfers i s { regs with amask := B, stack := waitAt regs.fmt F (s.me.pc + 8) regs.stack } target)

/-- The stack has room for `n` more entries without a spill, and they lie within its capacity (R123). -/
def HasRoom (s : State) (n : Nat) : Prop :=
  s.me.regs.stack.length + n ≤ 32 ∧ stkDepth s.me.regs + n ≤ 32 + stkCap s.me.regs

/-- The threads a control instruction's guard selects: under a uniform mark the lowest active thread's guard decides for all (R105, R138). -/
def chosen (g : Group) (gd : Guard) : Mask :=
  let B := g.regs.amask &&& (if gd.neg then ~~~(readPred g.regs.p gd.p) else readPred g.regs.p gd.p)
  if g.uniMark then (if B.getLsbD (lowest g.regs.amask) then g.regs.amask else 0) else B

/-- R65: a target counted in words from the header of the clause. -/
def target (g : Group) (off : Word) : Pc :=
  (match g.clause with | some c => c.base | none => g.pc) + BitVec.ofInt 48 (8 * off.toInt)

/-- An entry without threads that have left (R126). -/
def thinned (m : Mask) (e : StackEntry) : StackEntry := { e with mask := e.mask &&& ~~~m }

/-- No other group has a chunk uncommitted, so that nothing is squashed. -/
def Quiet (s : State) : Prop := ∀ e ∈ s.groups, e.1 ≠ s.cur → e.2.opn = none ∧ e.2.clo = none

/-- The core's local memory has its canonical form, which every step keeps (`MemoryFormsKept`). -/
def LocalForm (s : State) : Prop := Memory.wf (s.core s.me.place.core).lm = true

/-- The conditions under which R406 delivers a trap to its handler: handling is enabled, the record fits below the stack and no pending operation
uses its bytes, no reserved chunk holds them, and the stack has room. -/
structure TrapReady (s : State) : Prop where
  form : LocalForm s
  slice : s.me.place.slice = none
  ten : (s.ctx s.me.place.ctx).ccb.ten = true
  base : 32 ≤ stkBase s.me.regs
  clear : recordBlocked (s.core s.me.place.core) (stkBase s.me.regs - 32) = false
  quiet : Quiet s
  chunks : s.me.opn = none ∧ s.me.clo = none
  room : HasRoom s 1

/-- R406, R407: the group has taken a trap: the stack holds where it will resume, the record stands below the stack, the group stands at the
handler, and no other byte of memory has changed. -/
structure Trapped (s t : State) (f : Flt) : Prop where
  pc : t.me.pc = BitVec.ofNat 48 (s.ctx s.me.place.ctx).ccb.tvec
  regs : t.me.regs = { s.me.regs with
    stack := { fmt := s.me.regs.fmt, mask := s.me.regs.amask, kind := 3, target := f.ret } :: s.me.regs.stack, stored := 0 }
  entry : t.me.entry = .header ∧ t.me.entering = true ∧ t.me.clause = none ∧ t.me.status = .waiting ∧ t.me.hold = none
  record : readBytes (t.core s.me.place.core).lm (stkBase s.me.regs - 32) 32 = trapRecord f
  lmKept : ∀ c a, c ≠ s.me.place.core ∨ a < stkBase s.me.regs - 32 ∨ stkBase s.me.regs ≤ a →
    readByte (t.core c).lm a = readByte (s.core c).lm a
  memory : t.mem = s.mem
  others : ∀ k, k ≠ s.cur → t.grp k = s.grp k

/-! ### Memory -/

/-- An address that an access completes at: canonical, aligned, held by the core's TLB in a page that allows it, and under no recipe (R159, R162,
R165, R236). Pages start at multiples of 512 KiB (R234). -/
structure Hits (s : State) (write : Bool) (size va : Nat) (x : Xlat) : Prop where
  canonical : va < 2 ^ 57
  aligned : va % size = 0
  tlb : findXlat (s.core s.me.place.core).tlb s.me.place.ctx va = some x
  page : x.va % 524288 = 0 ∧ x.pa % 524288 = 0
  perm : write = true → x.write = true
  tile : tileAt s s.me.place.ctx va = none

/-- The threads that execute a memory instruction: under the uniform mark the lowest active one alone (R58). -/
def runners (i : Instr) (s : State) : List Nat := threads (execSet s.me (activeFor i s))

/-- The last of a list of stores, in their order, that covers a byte. -/
def lastStore (l : List (Nat × List Byte)) (a : Nat) : Option Byte :=
  l.reverse.findSome? fun e => if e.1 ≤ a then e.2[a - e.1]? else none

/-- R177, R178: atomic operations one after another on a memory: what they leave, and the old value of each thread. -/
def atomSeq (op : AOp) (fmt : Word) : List (Nat × Nat × Nat × Nat) → Memory → Memory × List (Nat × List Byte)
  | [], m => (m, [])
  | (t, a, x, cmp) :: rest, m =>
    let old := readLE m a op.bytes
    let r := atomSeq op fmt rest (writeBytes m a (leBytes op.bytes (applyOp op fmt old x cmp)))
    (r.1, (t, leBytes op.bytes old) :: r.2)

/-- An instruction has issued this load, with its registers as they were: its lane waits for the data, or it has moved on (R163). `left` is the state
before it, but for the bank queues that its requests have entered (R170). -/
def Issues (i : Instr) (s left : State) (l : Load → Prop) (hold : Bool) : Prop :=
  ∃ t x, exec i s = .next t ∧ t.me.loads = s.me.loads ++ [x] ∧ l x ∧ x.act = activeFor i s ∧ x.pc = s.me.pc ∧ x.newer = [] ∧ x.bad = false ∧
    x.hold = hold ∧ t.me.regs = s.me.regs ∧ (if hold then t.me.pc = s.me.pc ∧ t.me.hold = some stallScoreboard else MovesOn s t) ∧
    OutsideKept left t

/-- R434: what a recompute slice accesses with its own stores and cache instructions lies inside its target. -/
def InTarget (s : State) (size va : Nat) : Prop := ∀ sl, s.me.place.slice = some sl → sl.va ≤ va ∧ va + size ≤ sl.va + sl.size

/-- R170: the rows of local memory that the requests of a local access address, for the threads of a list. -/
def rowsOf (s : State) (n : Reg) (off : BitVec 24) (l : List Nat) : List Nat := bankRows (l.map fun t => (t, localAddr s.me n off t))

/-- No pipe of any plan: no address holds a slot header, whose reserved bits ignore writes (R306). -/
def NoHeaders (s : State) : Prop := ∀ e ∈ s.plans, e.2.pipes = []

/-- No home slice holds the mark of a tile (R432). -/
def NoMarks (s : State) : Prop := ∀ e ∈ s.ctxs, ∀ r ∈ e.2.recipes, r.2.state.marked = false

/-- No half of a packed reduction has reached its slice and waits there (R191). -/
def NoneArrived (s : State) : Prop := ∀ f ∈ s.flights, f.arrived = none

/-- What an access to memory leaves alone: the registers of every group, and the local memory of every core but those in a list. -/
structure RegistersKept (s t : State) (cores : List Nat) : Prop where
  mine : t.me.regs = s.me.regs
  cur : t.cur = s.cur
  others : ∀ k, k ≠ s.cur → (t.grp k).regs = (s.grp k).regs
  lm : ∀ c, c ∉ cores → (t.core c).lm = (s.core c).lm

/-! ### Names, holds and deliveries -/

/-- R185, R359, R374: what a group reads of its own chunk, its hold bits and its counters. `G` is the group in its open chunk. -/
def ownRow (s : State) (G : Group) : Instr → Option Row
  | .chkst _ d fit =>
    let (squashes, count, limit) := match G.opn with | some c => (c.sq, c.count, c.lim) | none => (0, 0, G.regs.lim)
    some (d, fit, fun _ => BitVec.ofNat 32 (min squashes 15 * 2 ^ 28 + min count 4095 * 2 ^ 13 + limit % 8192))
  | .holdq _ d (some r) fit =>
    let h := s.me.holdOf r
    some (d, fit, fun _ =>
      0#26 ++ h.cause ++ BitVec.ofBool h.watched ++ BitVec.ofBool h.poison ++ BitVec.ofBool h.landed ++ BitVec.ofBool h.held)
  | .holdq _ d none fit =>
    let hs := (List.range 128).filter fun r => (s.me.holdOf (BitVec.ofNat 7 r)).held
    some (d, fit, fun _ => if hs = [] then 0x8000 else BitVec.ofNat 32 (hs.headD 0 * 256 + hs.length))
  | .pmcr _ d code hi fit =>
    let v := if code = 0x200 then s.now % 2 ^ 64
      else if code.toNat ≤ 0x206 then getT 0 s.ctr (ctrKey s.me.place.ctx s.me.place.core code.toNat) else 0
    some (d, fit, fun _ => BitVec.ofNat 32 (if hi then v / 2 ^ 32 else v))
  | _ => none

/-- The places of the state that a message of the Den may change beside the group: its entries, and the sending side of the fabric. -/
def DenMessage (s t : State) : Prop :=
  t = { s with groups := t.groups, ctr := t.ctr, den := t.den, targets := t.targets, ports := t.ports, outbox := t.outbox }

/-- R357, R405: register `vr` armed, with the name of an expected producer or without, and with the watchdog time that stands. `u` is the state once the register's old watch entry is free. -/
structure Arms (i : Instr) (s : State) (vr : Reg) (n : Option Word64) (t : State) : Prop where
  answers : exec i s = .next t
  moves : MovesOn s t
  regs : t.me.regs = s.me.regs
  others : ∀ k, k ≠ s.cur → t.grp k = s.grp k
  rest : DenMessage s t
  holds : ∀ r, r ≠ vr → t.me.holdOf r = s.me.holdOf r
  effect :
    let u := freeWatch s.cur vr (entered i s)
    let gone := fun (x : Word64) => x = 0xFFFFFFFFFFFFFFFF ∨ inPod s (namePkg x) = false ∨ namePkg x = s.pkg.pkg ∧ staleName s x = true
    let room := fun (x : Word64) =>
      u.me.watch.length < 4 ∧ (namePkg x = s.pkg.pkg → (u.denEntry (nameIndex x)).watchers.length < 8)
    let limit := 1000 * ((s.ctx s.me.place.ctx).ccb.wdog % 65536)
    let bare : HoldBits := { held := true, since := s.now, limit := limit }
    (n = none → t.me.holdOf vr = bare ∧ t.me.watch = s.me.watch.filter (fun w => w.1 != vr) ∧ t.den = u.den) ∧
    (∀ x, n = some x → gone x →
      t.me.holdOf vr = { poison := true, cause := 1, since := s.now, limit := limit } ∧ t.me.watch = s.me.watch.filter (fun w => w.1 != vr) ∧ t.den = u.den) ∧
    (∀ x, n = some x → ¬ gone x → room x →
      t.me.holdOf vr = { bare with watched := true } ∧ t.me.watch = s.me.watch.filter (fun w => w.1 != vr) ++ [(vr, x)] ∧
      (namePkg x = s.pkg.pkg →
        (t.denEntry (nameIndex x)).watchers = (u.denEntry (nameIndex x)).watchers ++ [{ pkg := s.pkg.pkg, grp := s.cur, reg := vr }])) ∧
    (∀ x, n = some x → ¬ gone x → ¬ room x →
      t.me.holdOf vr = bare ∧ t.me.watch = s.me.watch.filter (fun w => w.1 != vr) ∧ t.den = u.den)

/-! ### Remote accesses and recipe tiles -/

/-- A thread's access of a peer package that nothing stands against (R362, R364, R470): its peer value names a package of the pod and a window its
context is bound to, the bytes lie in that window, which allows the access, at an aligned address, and a packet may leave for the package. -/
structure Peer (s : State) (write : Bool) (size kind : Nat) (vp vo : Reg) (w : Window) (t : Nat) : Prop where
  reserved : (s.me.elem vp t).toNat / 4096 = 0
  pod : inPod s ((s.me.elem vp t).toNat % 256) = true
  window : windowOf s s.me.place.ctx ((s.me.elem vp t).toNat % 256) ((s.me.elem vp t).toNat / 256 % 16) = some w
  inside : (s.me.elem vo t).toNat + size ≤ w.len
  rights : (if write then w.wr else w.rd) = true
  aligned : (w.base + (s.me.elem vo t).toNat) % size = 0
  leaves : mayLeave s ((s.me.elem vp t).toNat % 256) kind = true

/-- R365: threads in the order of the replays: those of one peer value together, in the order of its lowest thread. -/
def replays (s : State) (vp : Reg) (l : List Nat) : List Nat :=
  ((l.map fun t => s.me.elem vp t).eraseDups).flatMap fun p => l.filter fun t => s.me.elem vp t == p

/-- R469, R470, R472: packets to these packages may all leave at once: none of the targets' copies waits, and there is a free reservation, a port that is
up and a buffer count for each. -/
structure MayAllLeave (s : State) (l : List Nat) : Prop where
  copies : ∀ p ∈ l, ∀ c ∈ (s.target p).copies, c.numbered = true ∧ c.waiting = false ∧ c.id < (s.target p).made
  free : ∀ p ∈ l, l.count p ≤ (s.target p).free
  hops : ∀ p ∈ l, (routeTo s p).1 = 30 ∨ (s.port (routeTo s p).1).up = true ∧
    (l.filter fun q => routeTo s q == routeTo s p).length ≤ (s.port (routeTo s p).1).buf (routeTo s p).2

/-- The packets of a remote instruction may all leave at once, and none of an earlier one of the group has still to leave (R470). -/
def SendsAtOnce (s : State) (l : List Nat) : Prop := MayAllLeave s l ∧ s.me.sending = false ∧ unsent s s.cur = false

/-- The running group has sent these bodies to these packages, in this order: each stands as the newest copy its target has not acknowledged, under the
next sequence number (R471, R472), and nothing but the sending side of the fabric has changed beside the group. -/
structure Sends (s t : State) (kind : Nat) (l : List (Nat × Body)) : Prop where
  rest : t = { s with groups := t.groups, ctr := t.ctr, targets := t.targets, ports := t.ports, outbox := t.outbox }
  others : ∀ k, k ≠ s.cur → t.grp k = s.grp k
  regs : t.me.regs = s.me.regs
  copies : ∀ p, (t.target p).copies.map (fun c => (c.pkt.kind, c.pkt.dst, c.pkt.seq, c.pkt.body)) =
    (s.target p).copies.map (fun c => (c.pkt.kind, c.pkt.dst, c.pkt.seq, c.pkt.body)) ++
      (l.filter fun e => e.1 == p).mapIdx fun j e => (kind, p, ((s.target p).next + BitVec.ofNat 32 j).toNat, e.2)
  next : ∀ p, (t.target p).next = (s.target p).next + BitVec.ofNat 32 (l.filter fun e => e.1 == p).length

/-- What a recipe instruction leaves alone: the registers, every group, memory and local memory. -/
structure TilesOnly (s t : State) : Prop where
  mine : t.me.regs = s.me.regs
  cur : t.cur = s.cur
  others : ∀ k, k ≠ s.cur → t.grp k = s.grp k
  memory : t.mem = s.mem
  lm : ∀ c, (t.core c).lm = (s.core c).lm

/-- A tile of legal address and size whose pages all translate (R375). -/
structure GoodTile (s : State) (x : TileRef) : Prop where
  addr : x.va % 4096 = 0 ∧ x.va + x.size ≤ 2 ^ 57
  size : x.size % 4096 = 0 ∧ 4096 ≤ x.size ∧ x.size ≤ 65536
  walks : ∀ i, i < x.size / 4096 → ∃ e, walk s s.me.place.ctx (x.va + 4096 * i) = .ok e

/-- The running group's context, and the record at a key of its recipe table. -/
def ctxOf (s : State) (t : State) : Context := t.ctx s.me.place.ctx
def recipeOf (s : State) (t : State) (k : Nat) : Option Recipe := findT (t.ctx s.me.place.ctx).recipes k

/-! ### Engines and barriers -/

/-- R245: the command a matrix instruction enters. -/
def matrixCmd (g : Group) : Instr → Option MOp
  | .mldp _ vb => some (.mldp (g.uval vb))
  | .mswap _ => some .mswap
  | .mstr _ vn va vg vz => some (.mstr false (g.uval vn) (g.uval va) (g.uval vg) (vz.map g.uval))
  | .mstrp _ vn va vg vz => some (.mstr true (g.uval vn) (g.uval va) (g.uval vg) (vz.map g.uval))
  | .mdrn _ vd vg vx vs out relu clr bias bar pipe => some (.mdrn (g.uval vd) (g.uval vg) (g.uval vx) (g.uval vs) out relu clr bias bar pipe)
  | .mzero _ vg => some (.mzero (g.uval vg))
  | .mdup _ vm => some (.mdup (g.uval (regAt vm 1) ++ g.uval vm))
  | _ => none

/-- R246, R250, R251, R254, R261: what the checks of a command that names no plane, slot or scale come to: an illegal instruction, an operand
fault, or the range of local memory it will read. -/
def legalCmd (fmt : Word) : MOp → Option (Except MBad (Nat × Nat))
  | .mldp a =>
    let ternary := fmt.toNat / 2 ^ 24 % 16 = 6
    let size := if ternary then 512 * 64 else 128 * (256 * (match fmt.toNat / 2 ^ 24 % 16 with | 0 | 1 => 16 | 5 => 4 | _ => 8) / 8)
    some (if fmtDup fmt ∧ ternary then .error .illegal
      else if a.toNat % 16 = 0 ∧ a.toNat < 2 ^ 20 ∧ a.toNat + size ≤ 2 ^ 20 then .ok (a.toNat, if fmtDup fmt then size / 128 * 120 else size)
      else .error .operand)
  | .mswap => some (.ok (0, 0))
  | .mdup _ => some (.ok (0, 0))
  | .mzero w =>
    let rows := w.toNat % 1024
    let arow := w.toNat / 1024 % 512
    let cb := w.toNat / 2 ^ 19 % 4
    let ncb := w.toNat / 2 ^ 21 % 4
    some (if w.toNat / 2 ^ 23 = 0 ∧ 1 ≤ rows ∧ rows ≤ 512 ∧ arow + rows ≤ 512 ∧ cb + ncb ≤ 3 then .ok (0, 0) else .error .operand)
  | _ => none

/-- The fields of a barrier in its 128 bits (R274). -/
structure BarrierIs (x : Nat) (b : Bar) : Prop where
  exp : x / 2 ^ 64 % 2 ^ 20 = b.exp
  err : x / 2 ^ 56 % 16 = b.err
  sec : (BitVec.ofNat 32 (x / 2 ^ 24)).toInt = b.sec
  arr : x / 16 % 2 ^ 20 = b.arr
  phase : x % 16 = b.phase

/-- R279: sectors added, saturating, with the over bit. -/
def moreSectors (x : Int) (b : Bar) : Bar :=
  let y := max (-2147483648) (min 2147483647 (b.sec + x))
  { b with sec := y, err := if y = b.sec + x then b.err else b.err ||| 2 }

/-- R279: arrivals counted down, with the over bit. -/
def fewerArrivals (n : Nat) (b : Bar) : Bar := { b with arr := b.arr - n, err := if b.arr < n then b.err ||| 2 else b.err }

/-- R275. -/
def advanced (b : Bar) : Bar :=
  if b.arr = 0 ∧ b.sec ≤ 0 then
    { exp := b.exp, err := if b.sec < 0 then b.err ||| 2 else b.err, sec := 0, arr := b.exp, phase := (b.phase + 1) % 16 }
  else b

/-- The table of groups lists each group once, by rising number. -/
def GroupsRise (s : State) : Prop := s.groups.Pairwise fun a b => a.1 < b.1

/-- The table of cores lists each core once, by rising number. -/
def CoresRise (s : State) : Prop := s.cores.Pairwise fun a b => a.1 < b.1

/-- R279: a group that waits at this barrier for another phase goes on at the clause after its instruction, where a yield bit of the clause it slept at the end
of acts (R57); every other group is as it was. -/
def WokenAt (s t : State) (core a phase : Nat) : Prop :=
  ∀ k, k ≠ s.cur →
    let g := s.grp k
    let woken := fun p => g.live = true ∧ g.place.core = core ∧ g.status = .suspended (.barrier a p) ∧ p ≠ phase;
    (∀ p, woken p → t.grp k = { g with
      status := .waiting, pc := g.pc + 8, entry := .header, hold := none, yielded := g.yielded || g.wakeYield, wakeYield := false }) ∧
    ((∀ p, ¬ woken p) → t.grp k = g)

/-- A barrier update has taken effect: the barrier holds `b`, its block is initialised, no other byte of any memory has changed, and the groups that
waited are woken. -/
structure Updated (s t : State) (a : Nat) (b : Bar) : Prop where
  barrier : BarrierIs (readLE (t.core s.me.place.core).lm a 16) b
  inited : blockInited t s.me.place.core a = true
  lm : ∀ c x, c ≠ s.me.place.core ∨ x < a ∨ a + 16 ≤ x → readByte (t.core c).lm x = readByte (s.core c).lm x
  memory : t.mem = s.mem
  regs : t.me.regs = s.me.regs
  others : WokenAt s t s.me.place.core a b.phase

/-- The only change outside the running group is to its own core, as given. -/
def CoreChanged (s t : State) (c : Core) : Prop :=
  t = { s with groups := t.groups, ctr := t.ctr, cores := setT s.cores s.me.place.core c, serial := t.serial } ∧
  ∀ k, k ≠ s.cur → t.grp k = s.grp k

/-! ### Pipes -/

/-- R285: a slot token. -/
def tokenWord (taken : Bool) (pipe : Nat) (r : SlotRef) (seq : Nat) : Word :=
  BitVec.ofNat 32 (2 ^ 31 + (if taken then 2 ^ 30 else 0) + (if r.spill then 2 ^ 29 else 0) + pipe * 2 ^ 23 + r.ix * 2 ^ 11 + seq % 2048)

/-- An instruction writes this uniform word to a register, and beside the group, its counters, the plans and the crews nothing has changed. -/
def TokenWritten (i : Instr) (s t : State) (d : Reg) (fit : Bool) (w : Word) : Prop :=
  ∃ v, writeVec s.me.place.shape s.me.regs.v d (fun _ => w) (activeFor i s) fit = some v ∧ exec i s = .next t ∧
    t.me.regs = { s.me.regs with v := v } ∧ KeepsRegs s.me.regs.v v [d] ∧ MovesOn s t ∧ (∀ k, k ≠ s.cur → t.grp k = s.grp k) ∧
    t = { s with groups := t.groups, ctr := t.ctr, plans := t.plans, crews := t.crews }

/-- The group sleeps at its instruction until the pipe may have changed. -/
def SleepsAtPipe (i : Instr) (s : State) (j : Nat) (producer : Bool) : Prop :=
  ∃ t, exec i s = .next t ∧ t.me.status = .suspended (.pipe s.me.place.plan j producer) ∧ t.me.pc = s.me.pc ∧ t.me.regs = s.me.regs ∧
    OutsideKept s t ∧ PartsKept s t

/-- One slot of a pipe of the group's plan stands as given, every other slot and every other pipe of the plan as before. -/
def SlotSet (s t : State) (j : Nat) (p : Pipe) (r : SlotRef) (x : Slot) : Prop :=
  ∃ q, t.pipe s.me.place.plan j = some q ∧ q.slot r = x ∧ (∀ r', r' ≠ r → q.slot r' = p.slot r') ∧
    ∀ j', j' ≠ j → t.pipe s.me.place.plan j' = s.pipe s.me.place.plan j'

/-- R291: what PSTAT counts in a pipe, or tells of a slot. -/
def pipeWord (p : Pipe) (r : SlotRef) : PMode → Nat
  | .free => (p.refs.filter fun r => (p.slot r).state == .free).length
  | .ready => (p.refs.filter fun r => (p.slot r).state == .committed).length
  | .rfree => (p.refs.filter fun r => (p.slot r).state == .free && !r.spill).length
  | .sfree => (p.refs.filter fun r => (p.slot r).state == .free && r.spill).length
  | .tlo => ((if r.spill then p.mem.ringVa else p.mem.tileVa) + r.ix * p.stride) % 2 ^ 32
  | .thi => ((if r.spill then p.mem.ringVa else p.mem.tileVa) + r.ix * p.stride) / 2 ^ 32
  | .hlo => ((if r.spill then p.mem.rhdrVa else p.mem.thdrVa) + r.ix * 64) % 2 ^ 32
  | .hhi => ((if r.spill then p.mem.rhdrVa else p.mem.thdrVa) + r.ix * 64) / 2 ^ 32
  | .seq => (p.slot r).seq.toNat
  | .wlo | .whi => 0

/-! ### Events of groups and memory -/

/-- R161, R188: the word that a load's bytes give register `j` of a thread. -/
def loadedWord (l : Load) (vals : List (Nat × List Byte)) (j t : Nat) : Word :=
  let bs := ((vals.find? fun e => e.1 == (if l.uni then lowest l.act else t)).map Prod.snd).getD []
  if l.sgn then (if l.size = 1 then (BitVec.ofNat 8 (leNat bs)).signExtend 32 else (BitVec.ofNat 16 (leNat bs)).signExtend 32)
  else BitVec.ofNat 32 (leNat bs / 2 ^ (32 * j))

/-- R102, R161, R163: the data of a load of group `k` has reached its destination registers, those that a later instruction has written excepted, and
the load is outstanding no longer; nothing else of the registers, no other group and no memory has changed. -/
structure Lands (s t : State) (k : Nat) (l : Load) (vals : List (Nat × List Byte)) : Prop where
  loads : (t.grp k).loads.map Load.id = ((s.grp k).loads.map Load.id).filter fun i => i != l.id
  written : ∀ j, j < l.nreg → (∀ e ∈ l.newer, e.1 ≠ regAt l.dst j) → ∀ i, i < 32 →
    regWord (t.grp k).regs.v (regAt l.dst j) i =
      regWord ((writeVec (s.grp k).place.shape (s.grp k).regs.v (regAt l.dst j) (loadedWord l vals j) l.act true).getD []) (regAt l.dst j) i
  kept : ∀ r, ((∀ j, j < l.nreg → r ≠ regAt l.dst j) ∨ ∃ e ∈ l.newer, e.1 = r) → ∀ i, i < 32 →
    regWord (t.grp k).regs.v r i = regWord (s.grp k).regs.v r i
  regs : (t.grp k).regs = { (s.grp k).regs with v := (t.grp k).regs.v }
  others : ∀ j, j ≠ k → t.grp j = s.grp j
  memory : t.mem = s.mem
  lm : ∀ c, (t.core c).lm = (s.core c).lm
  cur : t.cur = s.cur

/-- R222, R164: the byte an outstanding access of a core takes: the group's own store, a clean copy in the L1, or memory. -/
def byteFor (s : State) (core : Nat) (stream : Bool) (pa : Nat) (own : Option Byte) : Byte :=
  match own with
  | some b => b
  | none =>
    if stream then readByte s.mem pa
    else match l1Find s core (pa / 128) with
    | some x => if x.owner = none then x.data.getD (pa % 128) 0 else readByte s.mem pa
    | none => readByte s.mem pa

/-- An outstanding load's data have all returned, and are these (R54, R163, R168, R433): of a global load, no access waits for a tile, another access or an
uncorrectable sector. -/
def Returned (s : State) (k : Nat) (l : Load) (vals : List (Nat × List Byte)) : Prop :=
  match l.src with
  | .data x => l.bad = false ∧ vals = x
  | .remote got want => l.bad = false ∧ want = [] ∧ vals = got
  | .global acc _ =>
    l.bad = false ∧ s.badSec = [] ∧ (∀ c x, x ∈ (s.core c).l1 → x.bad = []) ∧ (∀ a ∈ acc, tileAt s (s.grp k).place.ctx a.va = none) ∧
    loadBlocked s k (s.grp k) l acc = false ∧
    vals = acc.map fun a => (a.t, a.own.mapIdx fun i o => byteFor s (s.grp k).place.core a.stream (a.pa + i) o)

/-- R203, R204: of the ready groups of a lane, this one goes before every other. -/
def GoesFirst (s : State) (ready : List Nat) (k : Nat) : Prop :=
  k ∈ ready ∧ ∀ j ∈ ready, j ≠ k →
    rank (s.grp j) < rank (s.grp k) ∨ rank (s.grp j) = rank (s.grp k) ∧
      ((s.grp j).w < (s.grp k).w ∨ (s.grp j).w = (s.grp k).w ∧ (s.grp k).place.slot < (s.grp j).place.slot)

/-- No register, no local memory and no place of any group has changed. -/
structure GroupsUnmoved (s t : State) : Prop where
  regs : ∀ k, (t.grp k).regs = (s.grp k).regs
  pc : ∀ k, (t.grp k).pc = (s.grp k).pc
  lm : ∀ c, (t.core c).lm = (s.core c).lm

/-! ### Events of the engines -/

/-- R257, R91, R92: an accumulator element after a stream has run over it: one pass, unless its row is not valid or its band of K is skipped whole. The A
rows, the bitmap and the plane are those the stream finds. -/
def streamed (s : State) (core : Nat) (fmt v addr geo : Word) (zb : Option Word) (row col : Nat) : Word :=
  let m := (s.core core).mat
  let p := if m.live then m.plane1 else m.plane0
  let b := p.bfmt.toNat
  let k := if b = 6 then 512 else 128
  let q := geoOf geo
  let i := row - q.arow
  let old := getT 0 m.acc (1024 * row + col)
  let z := (bandBits s core k zb (i / 8)).1
  if q.arow ≤ row ∧ i < q.rows / 8 * 8 ∧ i < v.toNat ∧ 256 * q.cb ≤ col ∧ col < 256 * q.cb + 256 ∧ z ≠ 2 ^ (k / 8) - 1 then
    let a := unpackBits (engineRead s core (addr.toNat + i * apitch (fmtA fmt) b) (apitch (fmtA fmt) b)).1 k (fmtElem (fmtA fmt)).width
    BitVec.ofNat 32 (passElem fmt b z a (p.rows.map fun r => r.getD (col - 256 * q.cb) 0) old.toNat).1
  else old

/-- R266: a command of a core has left the queue for its unit; nothing but the core's matrix engine and its accumulator errors has changed. -/
def Dispatched (s t : State) (core : Nat) (c : MCmd) (m : Matrix) : Prop :=
  let x := s.core core
  (∃ f bad, t = { s with cores := setT s.cores core { x with badAcc := bad, mat := { m with
    queue := x.mat.queue.tail, run := x.mat.run ++ [(c.op.unit, { c with flags := f, plane := m.live })] } } })

/-- What a matrix command or an engine leaves alone: global memory, the registers of every group but flg, and the local memory of the other cores. -/
structure EngineKept (s t : State) (core : Nat) : Prop where
  memory : t.mem = s.mem
  regs : ∀ k, (t.grp k).regs = { (s.grp k).regs with flg := (t.grp k).regs.flg }
  lm : ∀ c, c ≠ core → (t.core c).lm = (s.core c).lm

/-- Nothing has changed but a core. -/
def OnlyCore (s t : State) (core : Nat) (x : Core) : Prop := t = { s with cores := setT s.cores core x }

/-! ### Events of pipes, crews and plans -/

/-- No group has a chunk uncommitted, so that a write squashes none. -/
def NoChunks (s : State) : Prop := ∀ e ∈ s.groups, e.2.opn = none ∧ e.2.clo = none

/-- R287, R292: every group suspended on a side of a pipe tries its instruction again. -/
def PipeWoken (s t : State) (plan j : Nat) (producer : Bool) : Prop :=
  ∀ k, (s.grp k).live = true → (s.grp k).status = .suspended (.pipe plan j producer) → (t.grp k).status = .waiting

/-- One pipe of a plan stands as given; every other pipe and every other plan as before. -/
structure PipeAfter (s t : State) (plan j : Nat) (q : Pipe) : Prop where
  pipe : t.pipe plan j = some q
  pipes : ∀ i, i ≠ j → t.pipe plan i = s.pipe plan i
  plans : ∀ k, k ≠ plan → findT t.plans k = findT s.plans k

/-- R307, R309, R317: a slot of a pipe has passed into a state: the operation is counted and the pipe's mode evaluated. -/
def SlotBecomes (s t : State) (plan j : Nat) (p : Pipe) (r : SlotRef) (x : Slot) : Prop :=
  ∃ q, PipeAfter s t plan j q ∧ q.slot r = x ∧ (∀ o, o ≠ r → q.slot o = p.slot o) ∧ q.ops = p.ops + 1 ∧ q.since = s.now ∧
    (q.depthMode = true ↔ if p.depthMode then q.lo < q.occupancy else q.hi ≤ q.occupancy)

/-- R470 to R472: one packet has been handed to a target's queue, as the newest copy; where it may leave at once, it has, under the next sequence
number. -/
structure Sent (s t : State) (dst kind : Nat) (b : Body) : Prop where
  made : (t.target dst).made = (s.target dst).made + 1
  kept : (∀ c ∈ (s.target dst).copies, c.id < (s.target dst).made) →
    ∃ c ∈ (t.target dst).copies, c.id = (s.target dst).made ∧ c.pkt.kind = kind ∧ c.pkt.dst = dst ∧ c.pkt.src = s.pkg.pkg ∧ c.pkt.body = b
  left : MayAllLeave s [dst] →
    (t.target dst).copies.map (fun c => (c.pkt.kind, c.pkt.dst, c.pkt.seq, c.pkt.body)) =
      (s.target dst).copies.map (fun c => (c.pkt.kind, c.pkt.dst, c.pkt.seq, c.pkt.body)) ++ [(kind, dst, (s.target dst).next.toNat, b)] ∧
    (t.target dst).next = (s.target dst).next + 1

/-- The fields of a status record (R345): code, tag, discarded total, revision, and the three marks. -/
structure StatusIs (bs : List Byte) (code : Nat) (tag : Word) (disc : Nat) (rev : Word) (nexc nchf : Nat) (tdown forced dlk : Bool) : Prop where
  size : bs.length = 32
  code : leNat bs % 256 = code
  dlk : (leNat bs).testBit 8 = dlk
  forced : (leNat bs).testBit 9 = forced
  tdown : (leNat bs).testBit 10 = tdown
  zero : leNat bs / 2 ^ 11 % 2 ^ 53 = 0
  nchf : leNat bs / 2 ^ 64 % 2 ^ 32 = nchf % 2 ^ 32
  nexc : leNat bs / 2 ^ 96 % 2 ^ 32 = nexc % 2 ^ 32
  rev : leNat bs / 2 ^ 128 % 2 ^ 32 = rev.toNat
  tag : leNat bs / 2 ^ 160 % 2 ^ 32 = tag.toNat
  disc : leNat bs / 2 ^ 192 = disc % 2 ^ 64

/-- R346, R475: a status record of a queue's context written where its address translates to a page that can be written, else counted; the vector is
sent in either case, of a record that no reserved chunk holds at once (R456). -/
def StatusWritten (s t : State) (ctx stat q : Nat) (is : List Byte → Prop) : Prop :=
  (NoChunks s → s.hub = [] → t.msix = s.msix ++ [queueOwner s q]) ∧
  (∀ x, walk s ctx stat = .ok x → x.write = true → NoChunks s → s.hub = [] → NoneArrived s →
    ∃ bs, is bs ∧ t.mem = writeBytes s.mem (x.phys stat) (keptBytes { s with plans := t.plans } (x.phys stat) bs)) ∧
  ((∀ x, walk s ctx stat = .ok x → x.write = false) → t.mem = s.mem ∧ (t.ctx ctx).staterr = ((s.ctx ctx).staterr + 1) % 2 ^ 64)

/-- The entries of the free list of the Den in their order (R387). -/
def freeList (s : State) : List Nat := (List.range (1048576 - s.denNext)).map (s.denNext + ·) ++ s.denFree

/-- Every group's registers stand as they were. -/
def RegsKept (s t : State) : Prop := ∀ k, (t.grp k).regs = (s.grp k).regs

/-! ### Events of the launch front end -/

/-- Bits [lo + n - 1 : lo] of a packet or register. -/
def field (x lo n : Nat) : Nat := x / 2 ^ lo % 2 ^ n

/-- R344: the front end has moved past the packet at the head of a queue. -/
def Retired (s t : State) (q : Nat) : Prop :=
  t.queue q = { s.queue q with qhead := (s.queue q).qhead + 1, cand := none, since := s.now, aged := 0 } ∧ ∀ k, k ≠ q → t.queue k = s.queue k

/-- R344, R346: a packet has ended with a status code: the record is written to the packet's address, and the packet is retired. No plan is touched. -/
def Answers (s t : State) (q p code : Nat) : Prop :=
  Retired s t q ∧ StatusWritten s t (s.queue q).ctx (field p 448 64) q
    (fun bs => StatusIs bs code (BitVec.ofNat 32 (field p 352 32)) 0 0 0 0 false false false) ∧ t.plans = s.plans

/-- R343: a packet whose unused fields, or the reserved ones, are not zero for a launch; or a launch whose base table is not aligned. -/
def BadLaunch (p : Nat) : Prop :=
  field p 704 320 ≠ 0 ∨ field p 8 296 ≠ 0 ∨ field p 320 12 ≠ 0 ∨ field p 384 64 % 64 ≠ 0 ∨
  ∃ k, k < 4 ∧ (field p (512 + 48 * k + 40) 7 ≠ 0 ∨ field p (512 + 48 * k + 16) 16 ≠ 0)

/-- R343: what a launch packet of a queue asks for. -/
def launchOf (s : State) (q p npool addr : Nat) (suava : Bool) : Launch :=
  { ctx := (s.queue q).ctx, addr := addr, tag := BitVec.ofNat 32 (field p 352 32), stat := field p 448 64
    w := field p 308 4 + 1, h := field p 304 4 + 1, links := linksOf p
    org := { table := field p 384 64, npool := npool, suava := suava, x := field p 316 4, y := field p 312 4 } }

/-- R350: the crews of a plan in placement order: stage, core, and which of the stage's crews on that core. -/
def placedCrews (p : Plan) : List (Nat × Nat × Nat) :=
  (p.stages.mapIdx fun i st =>
    (List.range st.h).flatMap fun dy => (List.range st.w).flatMap fun dx =>
      (List.range st.ncrew).map fun c => (i, 16 * (st.y + dy) + (st.x + dx), c)).flatten

/-- R105, R198: a crew of stage `i` of a plan of number `plan` stands at its start on its core, as the core's crew of index `c`, with a weight. -/
def CrewStarted (t : State) (plan : Nat) (p : Plan) (i core c weight : Nat) : Prop :=
  ∃ k cr, findT t.crews k = some cr ∧ cr.plan = plan ∧ cr.stage = i ∧ cr.core = core ∧ cr.index = c ∧ cr.saved = false ∧ cr.weight = weight ∧
    cr.groups.length = (p.stage i).ngrp ∧
    ∀ g key, cr.groups[g]? = some key →
      let n := c * (p.stage i).ngrp + g
      (t.grp key).live = true ∧ (t.grp key).regs = {} ∧ (t.grp key).pc = BitVec.ofNat 48 (p.stage i).entry ∧
      (t.grp key).place.core = core ∧ (t.grp key).place.lane = n / (p.stage i).perLane ∧ (t.grp key).place.slot = n % (p.stage i).perLane ∧
      (t.grp key).place.gid = g ∧ (t.grp key).place.shape = (p.stage i).shape ∧ (t.grp key).place.ctx = p.ctx ∧
      ((p.stage i).named = false → (t.grp key).status = .waiting)

/-- R314: the weight that crew number `m` of a plan starts with. -/
def startWeight (p : Plan) (m : Nat) : Nat := p.tw / (placedCrews p).length + (if m = 0 then p.tw % (placedCrews p).length else 0)

/-! ### Events of the balancer -/

/-- R311: a stage is a receiver: it is not fixed, and some pipe it consumes has occupancy at least hi. -/
def Receives (p : Plan) (i : Nat) : Prop :=
  (p.stage i).fixed = false ∧ ∃ q ∈ p.pipes, q.cons = i ∧ q.remote = false ∧ q.hi ≤ q.occupancy

/-- R311: a stage is a donor: it is not fixed, some pipe it produces has occupancy at least hi, and no pipe it consumes does. The occupancy of a pipe whose
counters another package holds is the one that package has told (R322, log 98). -/
def Donates (p : Plan) (i : Nat) : Prop :=
  (p.stage i).fixed = false ∧ (∃ q ∈ p.pipes, q.prod = i ∧ q.produced = true ∧ q.hi ≤ if q.remote then q.far else q.occupancy) ∧
    ∀ q ∈ p.pipes, q.cons = i → q.remote = false → q.occupancy < q.hi

/-- R311: two stages share one whole edge, vertical or horizontal. -/
def SharesEdge (a b : Stage) (vertical : Bool) : Prop :=
  if vertical then a.y = b.y ∧ a.h = b.h ∧ (a.x + a.w = b.x ∨ b.x + b.w = a.x)
  else a.x = b.x ∧ a.w = b.w ∧ (a.y + a.h = b.y ∨ b.y + b.h = a.y)

/-- R311: a donor has a row or a column to give across the edge: its extent across it exceeds 1. -/
def CanGive (a b : Stage) : Prop := SharesEdge a b true ∧ 1 < a.w ∨ ¬ SharesEdge a b true ∧ SharesEdge a b false ∧ 1 < a.h

/-- R312: core `c` stands in the donor's row or column on the shared edge. -/
def OnEdge (a b : Stage) (c : Nat) : Prop :=
  SharesEdge a b true ∧ (∃ dy, dy < a.h ∧ c = 16 * (a.y + dy) + (if a.x < b.x then a.x + a.w - 1 else a.x)) ∨
  ¬ SharesEdge a b true ∧ SharesEdge a b false ∧ ∃ dx, dx < a.w ∧ c = 16 * (if a.y < b.y then a.y + a.h - 1 else a.y) + (a.x + dx)

/-- R4: core `c` stands in a stage's rectangle. -/
def InStage (a : Stage) (c : Nat) : Prop := ∃ dx dy, dx < a.w ∧ dy < a.h ∧ c = 16 * (a.y + dy) + (a.x + dx)

/-- R311: of the pipes that a receiver consumes, the highest occupancy over hi is `o` over `h`. -/
def Fullest (p : Plan) (r o h : Nat) : Prop :=
  (∃ q ∈ p.pipes, q.cons = r ∧ q.remote = false ∧ q.occupancy = o ∧ q.hi = h) ∧ ∀ q ∈ p.pipes, q.cons = r → q.remote = false → q.occupancy * h ≤ o * q.hi

/-- R311: the pairs of stages with the samples in a row in which each has been donor and receiver, after one more. -/
def StreaksAre (p : Plan) (l : List ((Nat × Nat) × Nat)) : Prop :=
  ∀ d r n, ((d, r), n) ∈ l ↔ d < p.stages.length ∧ r < p.stages.length ∧ Donates p d ∧ Receives p r ∧
    (SharesEdge (p.stage d) (p.stage r) true ∨ SharesEdge (p.stage d) (p.stage r) false) ∧
    n = (match p.streak.find? fun x => x.1 == (d, r) with | some x => x.2 + 1 | none => 1)

/-- R311: a candidate of a sample. -/
def MovePair (p : Plan) (l : List ((Nat × Nat) × Nat)) (d r : Nat) : Prop := ∃ n, ((d, r), n) ∈ l ∧ p.bstk ≤ n ∧ CanGive (p.stage d) (p.stage r)

/-! ### Events of saves, names and deliveries -/

/-- R361, R394: a delivery has landed in a group: the register's storage words, its hold bits and its watch entry; a group suspended on the register
tries again. Nothing else of any group has changed, and no memory unless the group stands in an image. -/
structure Landed (s t : State) (k : Nat) (vt : Reg) (ws : List Word) : Prop where
  words : ∀ i, i < ws.length → regWord (t.grp k).regs.v vt i = ws.getD i 0
  kept : ∀ r, r ≠ vt → ∀ i, i < 32 → regWord (t.grp k).regs.v r i = regWord (s.grp k).regs.v r i
  regs : (t.grp k).regs = { (s.grp k).regs with v := (t.grp k).regs.v }
  hold : (t.grp k).holdOf vt = { landed := true, since := ((s.grp k).holdOf vt).since, limit := ((s.grp k).holdOf vt).limit }
  holds : ∀ r, r ≠ vt → (t.grp k).holdOf r = (s.grp k).holdOf r
  watch : (t.grp k).watch = (s.grp k).watch.filter fun w => w.1 != vt
  woken : (s.grp k).status = .suspended (.held vt) → (t.grp k).status = .waiting
  sleeper : ∀ till, (s.grp k).status = .suspended (.sleep till true) → (t.grp k).status = .waiting
  others : ∀ j, j ≠ k → t.grp j = s.grp j
  memory : (s.grp k).image = none → t.mem = s.mem

/-- A write to memory squashes no chunk and wakes no group: none has a chunk, none is parked on a line. -/
def Undisturbed (s : State) : Prop := NoChunks s ∧ s.watches = []

/-- R399, R400: a register of a group has been poisoned, with a cause; a group suspended on it tries again. -/
structure Poisoned (s t : State) (k : Nat) (r : Reg) (cause : BitVec 2) : Prop where
  hold : (t.grp k).holdOf r = { (s.grp k).holdOf r with poison := true, held := false, watched := false, cause := cause }
  woken : (s.grp k).status = .suspended (.held r) → (t.grp k).status = .waiting
  watch : ∀ w ∈ (t.grp k).watch, w.1 ≠ r

/-- R392, R393: a delivery that reaches its Den first of its sender's to that name. -/
def FirstOfLink (s : State) (k : Nat) (d : Delivery) : Prop :=
  ∀ o ∈ s.dlvs, o.2.stage = .toDen → o.1 < k → ¬ (o.2.name = d.name ∧ o.2.sender * 256 + o.2.spkg = d.sender * 256 + d.spkg)

/-- Beside the Den, the deliveries and the counts, nothing has changed. -/
def DenOnly (s t : State) : Prop :=
  t = { s with dlvs := t.dlvs, den := t.den, refused := t.refused, pcnt := t.pcnt, fresh := t.fresh }

/-- R419, R420: a group restored from its record at an address of its context: what the record's header says, its flags with those that have come since, its call
stack from the bottom, its hold bits and watch entries, and the registers it saved or received; every other starts at zero. -/
structure RestoredFrom (s t : State) (k : Nat) (va : Nat) : Prop where
  status : (t.grp k).status = .waiting
  w : (t.grp k).w = 0
  image : (t.grp k).image = none
  pc : (t.grp k).pc = BitVec.ofNat 48 (getLE s (s.grp k).place.ctx va 832)
  amask : (t.grp k).regs.amask = BitVec.ofNat 32 (getLE s (s.grp k).place.ctx va 832 / 2 ^ 64)
  fmt : (t.grp k).regs.fmt = BitVec.ofNat 32 (getLE s (s.grp k).place.ctx va 832 / 2 ^ 96)
  lmask : (t.grp k).regs.lmask = BitVec.ofNat 32 (getLE s (s.grp k).place.ctx va 832 / 2 ^ 160)
  chklim : (t.grp k).regs.chklim = BitVec.ofNat 32 (getLE s (s.grp k).place.ctx va 832 / 2 ^ 192)
  stk : (t.grp k).regs.stk = BitVec.ofNat 32 (getLE s (s.grp k).place.ctx va 832 / 2 ^ 224)
  preds : ∀ p : Pred, p ≠ 7 → readPred (t.grp k).regs.p p = BitVec.ofNat 32 (getLE s (s.grp k).place.ctx va 832 / 2 ^ (256 + 32 * p.toNat))
  regs : ∀ (r : Reg) (i : Nat), i < 32 → regWord (t.grp k).regs.v r i =
    if (getLE s (s.grp k).place.ctx va 832 / 2 ^ 1664).testBit r.toNat = true ∨ (getLE s (s.grp k).place.ctx va 832 / 2 ^ 1536).testBit r.toNat = true then
      (if i < (tagOf (s.grp k).place.shape r).words then
        BitVec.ofNat 32 (getLE s (s.grp k).place.ctx (va + regOffset (s.grp k).place.shape r.toNat + 4 * i) 4) else 0)
    else 0
  flg : (t.grp k).regs.flg = BitVec.ofNat 32 (field (getLE s (s.grp k).place.ctx va 832) 128 32) ||| (s.grp k).regs.flg
  depth : (t.grp k).regs.stack.length = min 32 (field (getLE s (s.grp k).place.ctx va 832) 480 32)
  stack : ∀ i, i < min 32 (field (getLE s (s.grp k).place.ctx va 832) 480 32) → (t.grp k).regs.stack.reverse[i]? =
    some (entryOf (BitVec.ofNat 128 (field (getLE s (s.grp k).place.ctx va 832) (2560 + 128 * i) 128)))
  holds : ∀ r : Reg,
    let b := field (getLE s (s.grp k).place.ctx va 832) (512 + 8 * r.toNat) 8
    let h := (t.grp k).holdOf r
    h.held = b.testBit 0 ∧ h.landed = b.testBit 1 ∧ h.poison = b.testBit 2 ∧ h.watched = b.testBit 3 ∧ h.cause.toNat = field b 4 2 ∧
      h.since = ((s.grp k).holdOf r).since ∧ h.limit = ((s.grp k).holdOf r).limit
  watch : ∀ (r : Reg) (n : Word64), (r, n) ∈ (t.grp k).watch ↔ ∃ i, i < 4 ∧
    let e := field (getLE s (s.grp k).place.ctx va 832) (1792 + 128 * i) 128
    e.testBit 71 = true ∧ r.toNat = field e 64 7 ∧ n.toNat = field e 0 64

/-! ### Events of recipes, the fabric and the host window -/

/-- R466, R469, R472: a packet of another package has been applied or settled: its number counts as applied, and this answer goes to the context that
issued it: it has left, or stands among the packets that wait for their hop. -/
structure Settled (s t : State) (p : Packet) (b : Body) : Prop where
  applied : (t.source p.src).applied (BitVec.ofNat 32 p.seq) = true
  others : ∀ q, q ≠ p.src → t.source q = s.source q
  answer : ∃ a : Packet, a.dst = p.src ∧ a.src = s.pkg.pkg ∧ a.kind = 6 ∧ a.body = b ∧ a.tenant = tenantOf s p.ctx ∧ a.ctx = p.ictx ∧
    ((∃ h, (h, a) ∈ t.outbox) ∨ (none, a) ∈ t.transit)

/-- R468, R485, R486: an error in the header of a packet that a port received: the port counts it as dropped or as corrected, the package under its structure's
counter, and the error log has it with the port. -/
structure HeaderNoted (s t : State) (port : Nat) (bad : Bool) : Prop where
  hdrdrop : (t.port port).hdrdrop = if bad then ((s.port port).hdrdrop + 1) % 2 ^ 64 else (s.port port).hdrdrop
  hdrfix : (t.port port).hdrfix = if bad then (s.port port).hdrfix else ((s.port port).hdrfix + 1) % 2 ^ 64
  counter : getT 0 t.pcnt (if bad then 0x10F else 0x10E) = (getT 0 s.pcnt (if bad then 0x10F else 0x10E) + 1) % 2 ^ 64
  log : t.errLog.getLast? = some { what := 7, addr := port, time := s.now }

/-- R466 to R468: an intact packet for this package that its port passes on, whose number is new, from a tenant bound to its context, and which waits for no
packet numbered before it (R284, R366, R395, R398). -/
structure Arrives (s : State) (port : Nat) (p : Packet) : Prop where
  port : port < 30 ∧ (s.port port).up = true
  pod : inPod s p.src = true ∧ inPod s p.dst = true
  header : p.hdrErr = 0 ∧ badKind p = false ∧ bodyKind p.body = p.kind
  here : p.dst = s.pkg.pkg
  fresh : (s.source p.src).applied (BitVec.ofNat 32 p.seq) = false ∧ (BitVec.ofNat 32 p.seq - (s.source p.src).low).toNat ≤ 64
  tenant : (s.ctx p.ctx).live = true ∧ (s.ctx p.ctx).tenant = some p.tenant
  inOrder : mustWait s p = false

/-- A page that a remote access may use, outside every tile. -/
def RemotePage (s : State) (ctx va : Nat) (write : Bool) (x : Xlat) : Prop :=
  walk s ctx va = .ok x ∧ (write = true → x.write = true) ∧ tileAt s ctx va = none

/-! ### Mailbox commands and the package's own events -/

/-- R478: a function's mailbox can start a command of a code, and the package's measurement is good. -/
def Posted (s : State) (fn code : Nat) : Prop :=
  fn < 64 ∧ (s.func fn).busy = false ∧ (s.func fn).mcmd.toNat % 2 ^ 16 = code ∧ s.pkg.meas = true

/-- R478, R479, R484: a command has ended: mresp holds the value and the device status word, mstat its code and result, busy is clear, vector 64 is sent. -/
structure Answered (s t : State) (fn code result value : Nat) : Prop where
  code : (t.func fn).code.toNat = code % 2 ^ 16
  result : (t.func fn).result.toNat = result
  busy : (t.func fn).busy = false
  vector : t.msix = s.msix ++ [(fn, 64)]
  value : (t.func fn).mresp.toNat % 2 ^ 64 = value % 2 ^ 64
  between : (t.func fn).mresp.toNat / 2 ^ 64 % 2 ^ 384 = 0
  status : (t.func fn).mresp.toNat / 2 ^ 448 =
    t.pkg.ncore % 512 * 2 ^ 40 + t.pkg.tjmax % 256 * 2 ^ 32 + t.pkg.therm % 16 * 2 ^ 28 + t.pkg.step % 16 * 2 ^ 24 +
      (if t.pkg.meas then 128 else 0) + (if t.pkg.wipe then 64 else 0) +
      (match t.pkg.life with | .manufacture => 0 | .provisioned => 1 | .deployed => 2 | .returned => 3)

/-- A command that has ended without its effect: only the mailbox has changed. -/
def TurnedDown (i : Instr) (s : State) (fn code result : Nat) : Prop :=
  ∃ t, exec i s = .next t ∧ Answered s t fn code result 0 ∧ t = { s with funcs := t.funcs, msix := t.msix } ∧
    (∀ f, (t.func f).ctx = (s.func f).ctx) ∧ ∀ f, f ≠ fn → t.func f = s.func f

/-- R405: a context control block as the command writes it, its fields cut to their widths. -/
def CcbIs (a b : Ccb) : Prop :=
  a.rring = b.rring % 2 ^ 64 ∧ a.rlog = b.rlog % 2 ^ 8 ∧ a.spool = b.spool % 2 ^ 64 ∧ a.spsz = b.spsz % 2 ^ 32 ∧ a.wdog = b.wdog % 2 ^ 16 ∧
  a.hdl = b.hdl % 2 ^ 16 ∧ a.tvec = b.tvec % 2 ^ 64 ∧ a.bkpt = b.bkpt ∧ a.tlate = b.tlate ∧ a.ten = b.ten

/-- A command done whose only effect is on a context. -/
def CtxChanged (i : Instr) (s : State) (fn code ctx : Nat) (f : Context → Prop) : Prop :=
  ∃ t, exec i s = .next t ∧ Answered s t fn code 0 0 ∧ f (t.ctx ctx) ∧ (∀ c, c ≠ ctx → t.ctx c = s.ctx c) ∧
    t = { s with ctxs := t.ctxs, funcs := t.funcs, msix := t.msix }

/-- R493: a request of READ_COUNTER in mcmd: class, sum, unit, counter and context. -/
def CounterAsked (m cls sum unit ctr ctx : Nat) : Prop :=
  m / 2 ^ 72 = 0 ∧ field m 64 8 = ctx ∧ field m 48 16 = ctr ∧ field m 32 16 = unit ∧ field m 25 7 = 0 ∧ field m 24 1 = sum ∧ field m 16 8 = cls

/-- R483, R492: everything that a wipe clears reads as zero or as never used. -/
structure Wiped (t : State) : Prop where
  memory : ∀ a, readByte t.mem a = 0
  lm : ∀ c a, readByte (t.core c).lm a = 0
  cores : ∀ c, (t.core c).l1 = [] ∧ (t.core c).tlb = [] ∧ (t.core c).mat = {} ∧ (t.core c).inited = 0 ∧ (t.core c).icache = []
  l2 : ∀ l, findT t.l2 l = none
  stlb : ∀ d, getT [] t.stlb d = [] ∧ getT [] t.wcache d = [] ∧ getT [] t.missq d = []
  den : ∀ i, t.denEntry i = {}
  groups : ∀ k, (t.grp k).live = false
  recipes : ∀ c, (t.ctx c).recipes = []

/-- R486, R487, R489, R490: the package after a reset: what Badger keeps stands, nothing else. -/
structure WasReset (s t : State) : Prop where
  life : t.pkg.life = s.pkg.life
  firmware : t.pkg.version = s.pkg.image.getD s.pkg.version
  pending : t.pkg.pending = s.pkg.pending
  keys : t.pkg.keysSealed = s.pkg.keysSealed ∧ t.pkg.owner = s.pkg.owner
  down : t.pkg.up = false ∧ t.pkg.linking = false ∧ t.pkg.wipe = true ∧ t.pkg.meas = false ∧ t.pkg.step = 0 ∧ t.pkg.therm = 0 ∧ t.pkg.tjmax = 0
  contexts : ∀ c, (t.ctx c).live = false
  groups : ∀ k, (t.grp k).live = false
  mailboxes : ∀ f, (t.func f).busy = true ∧ (t.func f).ctx = none
  marks : CoresRise s → ∀ c, (t.core c).marked = (s.core c).marked ∧ (t.core c).fenced = (s.core c).fenced
  memory : ∀ a, readByte t.mem a = 0

end Sys2Proof.Claims

open Sys2Proof Sys2Proof.Machine Sys2Proof.Claims

/-- R105, R69: an instruction word whose active set is empty goes by: the registers stand as they did, and nothing but the program counter and the counters
changes. -/
def Obligations.SkippedInstructions : Prop :=
  ∀ (i : Instr) (s : State), (encode i).isSome = true → s.me.live = true → s.me.status = .issuing → s.me.pend = none →
    s.me.loads.any Load.hold = false → wordOk s.me i = true → s.me.closeReq = false → (issuing s).me.closeReq = false → activeFor i s = 0 →
    Computes i s s.me.regs

/-! ### Integer instructions -/

/-- R112, R98, R58. -/
def Sys2Proof.Claims.ArithmeticResults : Prop :=
  ∀ (i : Instr) (s : State) (row : Row), Enters i (fun _ => 0) s → arithRow s.me i = some row → WritesRow i s row

/-- R112, R114, R98, R58. -/
def Sys2Proof.Claims.LogicResults : Prop :=
  ∀ (i : Instr) (s : State) (row : Row), Enters i (fun _ => 0) s → logicRow s.me i = some row → WritesRow i s row

/-- R106, R117, R119, R120, R135, R136. -/
def Sys2Proof.Claims.MoveResults : Prop :=
  ∀ (i : Instr) (s : State) (row : Row), Enters i (fun _ => 0) s →
    moveRow s s.me (execSet s.me (activeFor i s)) i = some row → WritesRow i s row

/-- R98, R99: the storage words that a vector write leaves, for each tag of the destination, with the fit bit and without. `none` is a shape fault:
nothing is written. -/
def Obligations.VectorWriteRule : Prop :=
  ∀ (sh : BitVec 256) (v : Tab Word) (d : Reg) (r : Nat → Word) (S : Mask) (fit : Bool), (S = 0 → writeVec sh v d r S fit = some v) ∧ (S ≠ 0 →
    let t0 := lowest S
    let t1 := lowest (S &&& ~~~(oneThread t0))
    let solves := fun (x : Word) => BitVec.ofNat 32 (t1 - t0) * x = r t1 - r t0
    let stride := fun (x : Word) => if S = oneThread t0 then x = 0 else solves x ∧ ∀ y, solves y → x.toNat ≤ y.toNat
    let onLine := fun (x : Word) => ∀ t ∈ threads S, r t = r t0 + x * BitVec.ofNat 32 (t - t0)
    let same := ∀ t ∈ threads S, r t = r t0
    match tagOf sh d with
    | .g => ∃ w, writeVec sh v d r S fit = some w ∧ KeepsRegs v w [d] ∧
        ∀ t, t < 32 → regWord w d t = if S.getLsbD t then r t else regWord v d t
    | .u =>
      (fit = true ∨ same → ∃ w, writeVec sh v d r S fit = some w ∧ KeepsRegs v w [d] ∧ regWord w d 0 = r t0) ∧
      (fit = false → ¬ same → writeVec sh v d r S fit = none)
    | .a =>
      (∀ x, stride x → fit = true ∨ onLine x →
        ∃ w, writeVec sh v d r S fit = some w ∧ KeepsRegs v w [d] ∧ regWord w d 0 = r t0 - x * BitVec.ofNat 32 t0 ∧ regWord w d 1 = x) ∧
      (fit = true → (∀ x, ¬ stride x) →
        ∃ w, writeVec sh v d r S fit = some w ∧ KeepsRegs v w [d] ∧ regWord w d 0 = r t0 ∧ regWord w d 1 = 0) ∧
      (fit = false → (∀ x, stride x → ¬ onLine x) → writeVec sh v d r S fit = none))

/-- R113: IDIV and IREM write the quotient and the remainder of the rule, whatever the operands, and change no flag (all of the registers but the
destination stand as they did). -/
def Obligations.DivisionRule : Prop :=
  (∀ (g : Guard) (d x y : Reg) (u fit : Bool) (s : State),
    (Enters (.idiv g d x y u fit) (fun _ => 0) s →
      WritesRow (.idiv g d x y u fit) s (d, fit, fun t => divide u (s.me.elem x t) (s.me.elem y t))) ∧
    (Enters (.irem g d x y u fit) (fun _ => 0) s →
      WritesRow (.irem g d x y u fit) s (d, fit, fun t => remainder u (s.me.elem x t) (s.me.elem y t)))) ∧
  ∀ (a b : Word),
    divide true a 0 = 0xFFFFFFFF ∧ divide false a 0 = 0xFFFFFFFF ∧ remainder true a 0 = a ∧ remainder false a 0 = a ∧
    divide false 0x80000000 0xFFFFFFFF = 0x80000000 ∧ remainder false 0x80000000 0xFFFFFFFF = 0 ∧
    (b ≠ 0 → a.toNat = (divide true a b).toNat * b.toNat + (remainder true a b).toNat ∧ (remainder true a b).toNat < b.toNat) ∧
    (b ≠ 0 → ¬(a = 0x80000000 ∧ b = 0xFFFFFFFF) →
      a.toInt = (divide false a b).toInt * b.toInt + (remainder false a b).toInt ∧
      (remainder false a b).toInt.natAbs < b.toInt.natAbs ∧
      ((remainder false a b).toInt = 0 ∨ (0 < (remainder false a b).toInt ↔ 0 < a.toInt)))

/-- R112: the results that are not one operation on words. -/
def Sys2Proof.Claims.ElementResults : Prop :=
  ∀ (a b : Word) (i : Nat),
    mulHigh true a b = (a.zeroExtend 64 * b.zeroExtend 64).extractLsb' 32 32 ∧
    mulHigh false a b = (a.signExtend 64 * b.signExtend 64).extractLsb' 32 32 ∧
    (minWord true a b).toNat = min a.toNat b.toNat ∧ (maxWord true a b).toNat = max a.toNat b.toNat ∧
    (minWord false a b).toInt = min a.toInt b.toInt ∧ (maxWord false a b).toInt = max a.toInt b.toInt ∧
    (a ≠ 0x80000000 → (absWord a).toInt = a.toInt.natAbs) ∧ absWord 0x80000000 = 0x80000000 ∧
    (popCount a).toNat = ((List.range 32).map fun k => (a.getLsbD k).toNat).sum ∧
    leadingZeros 0 = 32 ∧
    (a ≠ 0 → (leadingZeros a).toNat < 32 ∧ a.getLsbD (31 - (leadingZeros a).toNat) = true ∧
      ∀ k, 31 - (leadingZeros a).toNat < k → a.getLsbD k = false) ∧
    (i < 32 → (bitReverse a).getLsbD (31 - i) = a.getLsbD i)

/-- R114, bit by bit. -/
def Sys2Proof.Claims.ShiftAndFieldBits : Prop :=
  ∀ (a b f : Word) (k : Nat), k < 32 →
    let n := b.toNat
    let pos := f.toNat % 32
    let w := min 32 (f.toNat / 256 % 64)
    let sign := a.getLsbD 31
    let at' := fun (sgn : Bool) (j : Nat) => if pos + j < 32 then a.getLsbD (pos + j) else sgn && sign
    (shiftLeft a b).getLsbD k = (decide (n ≤ k) && a.getLsbD (k - n)) ∧
    (shiftRight a b).getLsbD k = (decide (k + n < 32) && a.getLsbD (k + n)) ∧
    (shiftArith a b).getLsbD k = (if k + n < 32 then a.getLsbD (k + n) else sign) ∧
    (extractField false a f).getLsbD k = (decide (k < w) && at' false k) ∧
    (extractField true a f).getLsbD k = (if k < w then at' true k else decide (0 < w) && at' true (w - 1)) ∧
    (insertField a b f).getLsbD k = (if pos ≤ k ∧ k < pos + w then a.getLsbD (k - pos) else b.getLsbD k)

/-- R115, R98. -/
def Sys2Proof.Claims.LeaResults : Prop :=
  ∀ (g : Guard) (d a b : Reg) (n : BitVec 5) (u fit : Bool) (s : State), Enters (.lea g d a b n u fit) (fun _ => 0) s →
    let i := Instr.lea g d a b n u fit
    let S := activeFor i s
    let z := fun t => (s.me.elem (regAt a 1) t ++ s.me.elem a t : Word64)
      + ((if u then (s.me.elem b t).zeroExtend 64 else (s.me.elem b t).signExtend 64) <<< n.toNat)
    match writeVec s.me.place.shape s.me.regs.v d (resultOf s.me S fun t => (z t).extractLsb' 0 32) S fit with
    | none => exec i s = .next (shapeFault d S (entered i s))
    | some v1 =>
      match writeVec s.me.place.shape v1 (regAt d 1) (resultOf s.me S fun t => (z t).extractLsb' 32 32) S fit with
      | none => exec i s = .next (shapeFault (regAt d 1) S (entered i s))
      | some v2 => Computes i s { s.me.regs with v := v2 } ∧ KeepsRegs s.me.regs.v v2 [d, regAt d 1]

/-- R104, R116, R118, R119. -/
def Sys2Proof.Claims.PredicateResults : Prop :=
  ∀ (i : Instr) (s : State) (row : PredRow), Enters i (fun _ => 0) s →
    predRow s.me (execSet s.me (activeFor i s)) i = some row → WritesPred i s row

/-- R121. -/
def Sys2Proof.Claims.ReductionResults : Prop :=
  ∀ (g : Guard) (d a : Reg) (op : RedgOp) (scan fit : Bool) (s : State), Enters (.redg g d a op scan fit) (fun _ => 0) s →
    let i := Instr.redg g d a op scan fit
    let E := threads (execSet s.me (activeFor i s))
    WritesFloat i s (foldThreads s.me op a E).2 d fit fun t =>
      (foldThreads s.me op a (if scan then E.filter (fun x => decide (x ≤ t)) else E)).1

/-! ### Floating-point instructions -/

/-- R140 to R142, R145, R147, R150. -/
def Sys2Proof.Claims.FloatResults : Prop :=
  ∀ (i : Instr) (s : State) (row : FloatRow), Enters i (fun _ => 0) s → floatRow s.me i = some row →
    WritesFloat i s (raised i s row.2.2) row.1 row.2.1 fun t => BitVec.ofNat 32 (row.2.2 t).1

/-- R152, R154, R155. -/
def Sys2Proof.Claims.PackedAndConvertedResults : Prop :=
  ∀ (i : Instr) (s : State) (row : FloatRow), Enters i (fun _ => 0) s → packedRow s.me i = some row →
    WritesFloat i s (raised i s row.2.2) row.1 row.2.1 fun t => BitVec.ofNat 32 (row.2.2 t).1

/-- R148, R149. -/
def Sys2Proof.Claims.FloatCompareResults : Prop :=
  ∀ (i : Instr) (s : State) (p q : Pred) (c : FCond) (k : Comb) (x y : Nat → FVal), Enters i (fun _ => 0) s →
    ((∃ g a b, i = .fsetpA g p a b c k q ∧ x = s.me.f32 a ∧ y = s.me.f32 b) ∨
      (∃ g a imm, i = .fsetpI g p a imm c ∧ k = .none ∧ x = s.me.f32 a ∧ y = fun _ => s.me.immF32 imm)) →
    ∃ ps, Computes i s { s.me.regs with p := ps, flg := s.me.regs.flg ||| raised i s fun t => (0, (compareFloat c (x t) (y t)).2) } ∧
      ∀ q' t, t < 32 → (readPred ps q').getLsbD t =
        if q' = p ∧ q' ≠ 7 ∧ (activeFor i s).getLsbD t then
          let t' := if s.me.uniMark then lowest (activeFor i s) else t
          combine k (compareFloat c (x t') (y t')).1 ((readPred s.me.regs.p q).getLsbD t')
        else (readPred s.me.regs.p q').getLsbD t

/-- R156 to R158: QCVT's codes, its duplication map and its flags. That a threshold which is a signalling NaN sets no flag is the model's choice (log 92), and so is
which of several registers that do not fit the shape fault names (log 92). -/
def Obligations.QuantisationResults : Prop :=
  ∀ (gd : Guard) (d a b c : Reg) (upd : Bool) (r : Rnd) (fit : Bool) (s : State), Enters (.qcvt gd d a b c upd r fit) (fun _ => 0) s →
    let i := Instr.qcvt gd d a b c upd r fit
    let f := s.me.regs.fmt
    let x := fun ch => s.me.f32 (regAt a (ch / 32)) (ch % 32)
    let old := s.me.upair (fmtDmap f)
    let map := if fmtDup f = true ∧ upd = true then allocMap x (s.me.f32 b 0).abs old else old
    let code := quantise s.me r x (s.me.f32 c 0) map
    let stream := (List.range 128).foldr (fun ch acc => (code ch).1 + 2 ^ (qcvtElem f).width * acc) 0
    let outs := (List.range (qcvtRegs f)).map fun j => (regAt d j, fun t => BitVec.ofNat 32 (bitsN stream (1024 * j + 32 * t) 32))
    let maps := if fmtDup f = true then
      [(fmtDmap f, fun (_ : Nat) => map.extractLsb' 0 32), (regAt (fmtDmap f) 1, fun (_ : Nat) => map.extractLsb' 32 32)] else []
    match writeRegs s.me (BitVec.allOnes 32) fit (outs ++ maps) with
    | .ok g' => Computes i s { s.me.regs with
          v := g'.regs.v, flg := s.me.regs.flg ||| (List.range 128).foldl (fun w ch => w ||| (code ch).2) 0 } ∧
        KeepsRegs s.me.regs.v g'.regs.v (regsFrom d (qcvtRegs f) ++ dupPair f)
    | .error e => exec i s = .next (shapeFault e (activeFor i s) (entered i s))

/-- R83: a magnitude num / den × 2^sh rounded to an integer under each mode. -/
def Sys2Proof.Claims.RoundingModes : Prop :=
  ∀ (neg : Bool) (num den : Nat) (sh : Int) (mode : Rounding), 0 < den →
    let a := num * 2 ^ sh.toNat
    let b := den * 2 ^ (-sh).toNat
    let n := (roundRatio mode neg num den sh).1
    ((roundRatio mode neg num den sh).2 = true ↔ a % b ≠ 0) ∧
    (a < (n + 1) * b ∧ n * b < a + b) ∧
    (mode = .rtz → n * b ≤ a) ∧
    (mode = .rup → if neg then n * b ≤ a else a ≤ n * b) ∧
    (mode = .rdn → if neg then a ≤ n * b else n * b ≤ a) ∧
    (mode = .rne → 2 * (n * b) ≤ 2 * a + b ∧ 2 * a ≤ 2 * (n * b) + b ∧
      (2 * (n * b) = 2 * a + b ∨ 2 * a = 2 * (n * b) + b → n % 2 = 0)) ∧
    (mode = .rna → 2 * (n * b) ≤ 2 * a + b ∧ 2 * a < 2 * (n * b) + b)

/-- R146. -/
def Sys2Proof.Claims.SpecialOperands : Prop :=
  ∀ (f : FFmt) (fsr : Bool) (mode : Rounding) (a b n : Bool) (m : Nat) (e k : Int) (y z : FVal), f.e4m3 = false →
    let canonical := f.nanBits
    addFloat f fsr mode (.inf n) (.inf !n) = (canonical, flagNv) ∧
    mulFloat f fsr mode (.inf a) (.fin b 0 e) = (canonical, flagNv) ∧ mulFloat f fsr mode (.fin b 0 e) (.inf a) = (canonical, flagNv) ∧
    fmaFloat f fsr mode (.inf a) (.fin b 0 e) z = (canonical, flagNv) ∧ fmaFloat f fsr mode (.fin b 0 e) (.inf a) z = (canonical, flagNv) ∧
    addFloat f fsr mode (.nan n) y = (canonical, flagIf (n || y.isSig) flagNv) ∧
    addFloat f fsr mode y (.nan n) = (canonical, flagIf (n || y.isSig) flagNv) ∧
    mulFloat f fsr mode (.nan n) y = (canonical, flagIf (n || y.isSig) flagNv) ∧
    mulFloat f fsr mode y (.nan n) = (canonical, flagIf (n || y.isSig) flagNv) ∧
    addFloat f fsr mode (.fin n m e) (.fin (!n) m e) = (f.signBit (mode == .rdn), 0) ∧
    addFloat f fsr mode (.fin n 0 e) (.fin n 0 k) = (f.signBit n, 0) ∧
    addFloat f fsr mode (.inf n) (.fin a m e) = (f.infBits n, 0) ∧ addFloat f fsr mode (.fin a m e) (.inf n) = (f.infBits n, 0)

/-- R151: zeros, infinities, negative numbers and NaNs; 1 gives exactly what the table says. -/
def Sys2Proof.Claims.SpecialArguments : Prop :=
  ∀ (fsr : Bool) (mode : Rounding) (n : Bool) (m : Nat) (e : Int),
    let nan := fp32.nanBits
    let inf := fun n => fp32.infBits n
    rcpFloat fsr mode (.fin n 0 e) = (inf n, flagDz) ∧ rsqFloat fsr mode (.fin n 0 e) = (inf n, flagDz) ∧
    exp2Float fsr mode (.fin n 0 e) = (0x3F800000, 0) ∧ log2Float fsr mode (.fin n 0 e) = (inf true, flagDz) ∧
    rcpFloat fsr mode (.inf n) = (fp32.signBit n, 0) ∧
    rsqFloat fsr mode (.inf false) = (0, 0) ∧ rsqFloat fsr mode (.inf true) = (nan, flagNv) ∧
    exp2Float fsr mode (.inf false) = (inf false, 0) ∧ exp2Float fsr mode (.inf true) = (0, 0) ∧
    log2Float fsr mode (.inf false) = (inf false, 0) ∧ log2Float fsr mode (.inf true) = (nan, flagNv) ∧
    (m ≠ 0 → rsqFloat fsr mode (.fin true m e) = (nan, flagNv) ∧ log2Float fsr mode (.fin true m e) = (nan, flagNv)) ∧
    (∀ one, one = readFloat fp32 false 0x3F800000 →
      rcpFloat fsr mode one = (0x3F800000, 0) ∧ rsqFloat fsr mode one = (0x3F800000, 0) ∧
      exp2Float fsr mode one = (0x40000000, 0) ∧ log2Float fsr mode one = (0, 0)) ∧
    rcpFloat fsr mode (.nan n) = (nan, flagIf n flagNv) ∧ rsqFloat fsr mode (.nan n) = (nan, flagIf n flagNv) ∧
    exp2Float fsr mode (.nan n) = (nan, flagIf n flagNv) ∧ log2Float fsr mode (.nan n) = (nan, flagIf n flagNv)

/-! ### Control instructions -/

/-- R127, R130, R138, R65, R98: BRA and LOOP, with room for the entry of the threads that do not branch. -/
def Sys2Proof.Claims.BranchesAndLoops : Prop :=
  (∀ (g : Guard) (off : Word) (s : State), Enters (.bra g off) (pushRows 1) s → HasRoom s 1 →
    BranchesOn (.bra g off) s s.me.regs (chosen s.me g) (s.me.regs.amask &&& ~~~(chosen s.me g)) (target s.me off)) ∧
  (∀ (g : Guard) (va : Reg) (off : Word) (fit : Bool) (s : State), Enters (.loop g va off fit) (pushRows 1) s → HasRoom s 1 →
    let C := chosen s.me g
    let count := fun t => s.me.elem va (if s.me.uniMark then lowest s.me.regs.amask else t) - 1
    let B := C &&& maskOf fun t => count t != 0
    match writeVec s.me.place.shape s.me.regs.v va count C fit with
    | none => exec (.loop g va off fit) s = .next (shapeFault va C (entered (.loop g va off fit) s))
    | some v => BranchesOn (.loop g va off fit) s { s.me.regs with v := v } B (s.me.regs.amask &&& ~~~B) (target s.me off) ∧
        KeepsRegs s.me.regs.v v [va])

/-- R128, R131: BRD and CALL. -/
def Sys2Proof.Claims.DivergentBranchesAndCalls : Prop :=
  (∀ (g : Guard) (off : Word) (s : State), Enters (.brd g off) (pushRows 2) s → HasRoom s 2 →
    let r := s.me.regs
    let B := chosen s.me g
    let F := r.amask &&& ~~~B
    let whole : StackEntry := { fmt := r.fmt, mask := r.amask, kind := 0, target := 0xFFFFFFFFFFFF }
    (F = 0 → Transfers (.brd g off) s { r with stack := whole :: r.stack } (target s.me off)) ∧
    (F ≠ 0 → B = 0 → Computes (.brd g off) s { r with stack := whole :: r.stack }) ∧
    (F ≠ 0 → B ≠ 0 → Computes (.brd g off) s { r with
      amask := F, stack := { fmt := r.fmt, mask := B, kind := 0, target := target s.me off } :: whole :: r.stack })) ∧
  (∀ (g : Guard) (off : Word) (s : State), Enters (.call g off) (pushRows 2) s → HasRoom s 2 →
    let r := s.me.regs
    let C := chosen s.me g
    let F := r.amask &&& ~~~C
    let entry := fun (k : BitVec 4) (m : Mask) => ({ fmt := r.fmt, mask := m, kind := k, target := s.me.pc + 8 } : StackEntry)
    (C = 0 → Computes (.call g off) s r) ∧
    (C ≠ 0 → Transfers (.call g off) s { r with
      amask := C, stack := entry 2 C :: (if F = 0 then r.stack else entry 1 F :: r.stack) } (target s.me off)))

/-- R129, R132: JOIN and RET on a stack without spilled entries. -/
def Sys2Proof.Claims.JoinsAndReturns : Prop :=
  (∀ (dead rest : List StackEntry) (e : StackEntry) (s : State), Enters .join (fun _ => 0) s → s.me.regs.spilled = 0 →
    s.me.regs.stack = dead ++ e :: rest → (∀ x ∈ dead, x.kind = 0 ∧ x.target ≠ 0xFFFFFFFFFFFF ∧ x.mask = 0) → e.kind = 0 → e.mask ≠ 0 →
    let regs := { s.me.regs with amask := e.mask, fmt := e.fmt, stack := rest }
    if e.target = 0xFFFFFFFFFFFF then Computes .join s regs else Transfers .join s regs e.target) ∧
  (∀ (g : Guard) (s : State), Enters (.ret g) (removeRows s (guarded s.me g) true) s → s.me.regs.spilled = 0 →
    let r := s.me.regs
    let R := chosen s.me g
    (R ≠ 0 → R ≠ r.amask → Computes (.ret g) s { r with
      amask := r.amask &&& ~~~R
      stack := (r.stack.takeWhile fun e => e.kind != 2).map (thinned R) ++ r.stack.dropWhile fun e => e.kind != 2 }) ∧
    (∀ e rest, R ≠ 0 → R = r.amask → r.stack = e :: rest → e.kind = 2 → e.mask ≠ 0 →
      Transfers (.ret g) s { r with amask := e.mask, stack := rest } e.target))

/-- R133, R125, R126: EXIT on a stack without spilled entries: some threads leave, or the group goes on with the newest entry that still holds
threads, or it has none left and ends once its chunk has committed. -/
def Sys2Proof.Claims.Exits : Prop :=
  ∀ (g : Guard) (s : State), Enters (.exit g) (removeRows s (guarded s.me g) false) s → s.me.regs.spilled = 0 →
    let r := s.me.regs
    let R := chosen s.me g
    (R ≠ 0 → R ≠ r.amask → Computes (.exit g) s { r with amask := r.amask &&& ~~~R, stack := r.stack.map (thinned R) }) ∧
    (∀ dead e rest, R ≠ 0 → R = r.amask → r.stack = dead ++ e :: rest → (∀ x ∈ dead, x.kind.toNat ≤ 3 ∧ x.mask &&& ~~~R = 0) →
      e.kind.toNat ≤ 3 → ¬(e.kind = 0 ∧ e.target = 0xFFFFFFFFFFFF) → e.mask &&& ~~~R ≠ 0 →
      Transfers (.exit g) s { r with amask := e.mask &&& ~~~R, fmt := e.fmt, stack := rest.map (thinned R) } e.target) ∧
    (R = r.amask → (∀ x ∈ r.stack, x.kind.toNat ≤ 3 ∧ x.mask &&& ~~~R = 0) →
      ∃ t, exec (.exit g) s = .next t ∧ t.me.regs.amask = 0 ∧ t.me.regs.stack = [] ∧ t.mem = s.mem ∧
        (t.me.status = .ended ∨ t.me.exiting = true ∧ t.me.uncommitted = true ∧ t.me.status = .waiting) ∧
        ∀ k, k ≠ s.cur → t.grp k = s.grp k)

/-- R134, R57: NOP and YIELD. -/
def Sys2Proof.Claims.NopAndYield : Prop :=
  ∀ (g : Guard) (s : State),
    (Enters (.nop g) (fun _ => 0) s → Computes (.nop g) s s.me.regs) ∧
    (Enters (.yield g) (fun _ => 0) s →
      ∃ t, exec (.yield g) s = .next t ∧ t.me.yielded = true ∧ t.me.regs = s.me.regs ∧ MovesOn s t ∧ OutsideKept s t ∧ PartsKept s t)

/-! ### The group's control registers -/

/-- R77, R79, R135, R81, R107 to R109, R136: SETFMT and CSRW take legal values, and refuse others as illegal instructions. -/
def Sys2Proof.Claims.ControlRegisterWrites : Prop :=
  (∀ (g : Guard) (a : Reg) (s : State), Enters (.setfmt g a) (fun _ => 0) s →
    let w := s.me.uval a
    let legal := w.toNat / 2 ^ 28 ≤ 6 ∧ w.toNat / 2 ^ 24 % 16 ≤ 6 ∧ w.toNat / 2 ^ 22 % 4 ≤ 2 ∧ w.toNat / 2 ^ 19 % 8 ≤ 4 ∧
      w.toNat / 2 ^ 14 % 4 ≤ 2 ∧ w.toNat / 2 ^ 7 % 2 = 0
    (legal → Computes (.setfmt g a) s { s.me.regs with fmt := BitVec.ofNat 32 (w.toNat / 128 * 128) }) ∧
    (¬ legal → exec (.setfmt g a) s = .next (raiseAt 1 0 0 (activeFor (.setfmt g a) s) (entered (.setfmt g a) s)))) ∧
  (∀ (g : Guard) (n : WCreg) (a : Reg) (op : CsrOp) (s : State), Enters (.csrw g n a op) (fun _ => 0) s →
    let i := Instr.csrw g n a op
    let r := s.me.regs
    let new := fun (old : Word) => match op with
      | .write => s.me.uval a
      | .set => old ||| s.me.uval a
      | .clear => old &&& ~~~(s.me.uval a)
    let refused := exec i s = .next (raiseAt 1 0 0 (activeFor i s) (entered i s))
    match n with
    | .flg => Computes i s { r with flg := new r.flg &&& 0x01FF01FF }
    | .chklim =>
      let v := new r.chklim &&& 0x1FFF
      if 16 ≤ v.toNat ∧ v.toNat ≤ 4096 then Computes i s { r with chklim := v } else refused
    | .stk =>
      let v := new r.stk &&& 0xFFFFFFF0
      let room := 16 * (v.toNat / 16 % 65536) + 16 * (v.toNat / 2 ^ 20)
      if room ≤ 1048576 ∧ r.spilled = 0 then Computes i s { r with stk := v } else refused)

/-! ### Traps -/

/-- R406, R367, R369, R370: TRAP, an enabled BKPT and a TFENCE that finds an enabled flag deliver their traps to the handler; without the enable
or the flag the last two have no effect. -/
def Sys2Proof.Claims.TrapEntry : Prop :=
  ∀ (g : Guard) (imm : Word) (s : State), s.me.opn = none → s.me.clo = none →
    let flt := fun (i : Instr) (cls : Nat) (info : Word) (ret : Pc) =>
      ({ cls := cls, cause := 0, info := info, addr := 0, fmask := activeFor i s, thr := lowest (activeFor i s), pc := s.me.pc, ret := ret } : Flt)
    let flags := s.me.regs.flg &&& 0x1FF
    let enabled := s.me.regs.flg &&& 0x1FF &&& (s.me.regs.flg >>> 16)
    (Enters (.trap g imm) (fun _ => 0) s → TrapReady s →
      ∃ t, exec (.trap g imm) s = .next t ∧ Trapped s t (flt (.trap g imm) 0x10 imm (s.me.pc + 8))) ∧
    (Enters (.bkpt g imm) (fun _ => 0) s → (s.ctx s.me.place.ctx).ccb.bkpt = true → TrapReady s →
      ∃ t, exec (.bkpt g imm) s = .next t ∧ Trapped s t (flt (.bkpt g imm) 0x11 imm (s.me.pc + 8))) ∧
    (Enters (.bkpt g imm) (fun _ => 0) s → (s.ctx s.me.place.ctx).ccb.bkpt = false → Computes (.bkpt g imm) s s.me.regs) ∧
    (Enters (.tfence g) (fun _ => 0) s → s.me.mcmd = 0 → s.me.dlv = 0 → enabled ≠ 0 → TrapReady s →
      ∃ t, exec (.tfence g) s = .next t ∧ Trapped s t (flt (.tfence g) 0x12 flags (s.me.pc + 8))) ∧
    (Enters (.tfence g) (fun _ => 0) s → s.me.mcmd = 0 → s.me.dlv = 0 → enabled = 0 → Computes (.tfence g) s s.me.regs)

/-- R406: a fault of an instruction, raised with nothing of the group uncommitted, is delivered in the same way, and points back at the
instruction. -/
def Sys2Proof.Claims.FaultEntry : Prop :=
  ∀ (cls cause : Nat) (info : Word) (S : Mask) (s : State), TrapReady s →
    Trapped s (raiseAt cls cause info S s)
      { cls := cls, cause := cause, info := info, addr := 0, fmask := S, thr := lowest S, pc := s.me.pc, ret := s.me.pc }

/-- R407: the places of the fields in the trap record. -/
def Sys2Proof.Claims.TrapRecordLayout : Prop :=
  ∀ (f : Flt), f.addr < 2 ^ 64 → f.cls < 256 → f.cause < 256 → f.thr < 256 →
    (trapRecord f).length = 32 ∧
    let n := leNat (trapRecord f)
    n / 2 ^ 192 = f.addr ∧ n / 2 ^ 144 % 2 ^ 48 = f.pc.toNat ∧ n / 2 ^ 136 % 256 = f.cls ∧ n / 2 ^ 128 % 256 = f.cause ∧
    n / 2 ^ 96 % 2 ^ 32 = f.info.toNat ∧ n / 2 ^ 64 % 2 ^ 32 = f.fmask.toNat ∧ n / 2 ^ 56 % 256 = f.thr ∧ n % 2 ^ 56 = 0

/-- R368: RETT pops the trap entry and resumes where it points. -/
def Sys2Proof.Claims.TrapReturn : Prop :=
  ∀ (e : StackEntry) (rest : List StackEntry) (s : State), Enters .rett (fun _ => 0) s → s.me.regs.spilled = 0 →
    s.me.regs.stack = e :: rest → e.kind = 3 → e.mask ≠ 0 →
    ∃ t, exec .rett s = .next t ∧ t.me.regs = { s.me.regs with amask := e.mask, fmt := e.fmt, stack := rest } ∧
      t.me.pc = e.target ∧ t.me.entry = .resume ∧ t.me.clause = none ∧ t.me.status = .waiting ∧ OutsideKept s t ∧ PartsKept s t

/-- R122, R123: an entry pushed with the lane full spills the oldest entry, and popping it brings both back, in their order. -/
def Sys2Proof.Claims.SpillAndRefill : Prop :=
  ∀ (e : StackEntry) (s s1 : State), Quiet s → LocalForm s → s.me.regs.stack.length = 32 → pushEntry s.cur e s = .ok s1 →
    (s1.grp s.cur).regs.stack.length = 32 ∧ (s1.grp s.cur).regs.spilled = s.me.regs.spilled + 1 ∧
    ∃ s2, popEntry s.cur s1 = some (e, s2) ∧ (s2.grp s.cur).regs = s.me.regs

/-- R371, R373: PHINT without a request and SLEEP of 0 go on; SLEEP suspends the group past its instruction. -/
def Sys2Proof.Claims.HintsAndSleep : Prop :=
  (∀ (g : Guard) (idx : BitVec 20) (h : Option Reg) (hint : Nat) (s : State), Enters (.phint g idx h) (fun _ => 0) s →
    hintOf s s.me idx h = .ok hint →
    ((s.core s.me.place.core).save = none → Computes (.phint g idx h) s s.me.regs) ∧
    ((s.core s.me.place.core).save ≠ none → s.me.place.slice = none → s.me.opn = none → s.me.clo = none →
      ∃ t, exec (.phint g idx h) s = .next t ∧ t.me.status = .suspended (.parked hint) ∧ t.me.pc = s.me.pc + 8 ∧ t.me.regs = s.me.regs ∧
        t.mem = s.mem ∧ t.cores = s.cores ∧ ∀ k, k ≠ s.cur → t.grp k = s.grp k)) ∧
  (∀ (g : Guard) (imm : Word) (dlv : Bool) (s : State), Enters (.sleep g imm dlv) (fun _ => 0) s →
    ∃ t, exec (.sleep g imm dlv) s = .next t ∧ t.me.pc = s.me.pc + 8 ∧ t.me.regs = s.me.regs ∧ OutsideKept s t ∧ PartsKept s t ∧
      if imm = 0 then t.me.yielded = true ∧ MovesOn s t
      else t.me.status = .suspended (.sleep (s.now + imm.toNat) dlv) ∧ t.me.clause = none)

/-! ### Memory instructions -/

/-- R161 to R164, R166, R168, R169: LDG issues a load of every executing thread's bytes. -/
def Sys2Proof.Claims.GlobalLoads : Prop :=
  ∀ (g : Guard) (d n : Reg) (off : BitVec 24) (sz : Size) (sgn ev fit : Bool) (s : State) (x : Nat → Xlat),
    let i := Instr.ldg g d n off sz sgn ev fit
    Enters i (fun _ => 0) s → s.me.loads.length < 15 →
    (∀ t ∈ runners i s, Hits s false sz.bytes (globalAddr s.me n off t) (x t)) →
    let acc := (runners i s).map fun t =>
      let va := globalAddr s.me n off t
      let pa := (x t).pa + (va - (x t).va)
      ({ t := t, va := va, pa := pa, stream := (x t).stream
         own := (List.range sz.bytes).map fun j => ownByte (entered i s) s.cur (x t).stream (pa + j) } : ThreadAcc)
    Issues i s s (fun l =>
        l.dst = d ∧ l.nreg = sz.regs ∧ l.size = sz.bytes ∧ l.sgn = sgn ∧ l.fit = fit ∧ l.uni = s.me.uniMark ∧ l.src = .global acc ev)
      (!fit && !s.me.uniMark && decide (1 < (threads (activeFor i s)).length) &&
        (regsFrom d sz.regs).any fun r => tagOf s.me.place.shape r != .g)

/-- R174, R219: LDK issues one load of the pool's word, which every active thread gets. -/
def Sys2Proof.Claims.PoolLoads : Prop :=
  ∀ (g : Guard) (d : Reg) (idx : BitVec 20) (h : Option Reg) (wn : Wn) (fit : Bool) (s : State) (x : Xlat) (npool va : Nat),
    let i := Instr.ldk g d idx h wn fit
    let k := (match h with | some r => idx.zeroExtend 32 + s.me.uval r | none => idx.zeroExtend 32).toNat
    let a := va + 16 * k + 4 * wn.bits.toNat
    Enters i (fun _ => 0) s → s.me.loads.length < 15 → poolOf s s.me = some (npool, va) → k < npool → Hits s false 4 a x →
    Issues i s s (fun l => l.dst = d ∧ l.nreg = 1 ∧ l.size = 4 ∧ l.fit = true ∧ l.uni = true ∧
      l.src = .global [{ t := lowest (activeFor i s), va := a, pa := x.pa + (a - x.va), stream := x.stream, own := List.replicate 4 none }] false) false

/-- R161, R163, R171, R173: LDL issues a load of every executing thread's local bytes, all of them good. -/
def Sys2Proof.Claims.LocalLoads : Prop :=
  ∀ (g : Guard) (d n : Reg) (off : BitVec 24) (sz : Size) (sgn fit : Bool) (s : State),
    let i := Instr.ldl g d n off sz sgn fit
    let core := s.me.place.core
    Enters i (fun _ => 0) s → s.me.loads.length < 15 → bankFull (s.core core) (rowsOf s n off (runners i s)) = none →
    (∀ t ∈ runners i s, localCode (s.core core) true false sz.bytes (localAddr s.me n off t) = 0 ∧ rowBad s core (localAddr s.me n off t) = false) →
    let vals := (runners i s).map fun t => (t, readLocalBytes (entered i s) s.cur core (localAddr s.me n off t) sz.bytes)
    Issues i s (enterBanks core (rowsOf s n off (runners i s)) s)
      (fun l => l.dst = d ∧ l.nreg = sz.regs ∧ l.size = sz.bytes ∧ l.sgn = sgn ∧ l.fit = fit ∧ l.uni = s.me.uniMark ∧ l.src = .data vals)
      (!fit && !s.me.uniMark && decide (1 < (threads (activeFor i s)).length) &&
        (regsFrom d sz.regs).any fun r => tagOf s.me.place.shape r != .g)

/-- R161, R166, R169: STG keeps its bytes with the open chunk, where the L1 has room for its lines (R223) and no other group's chunk holds one (R167); no
byte of memory changes. -/
def Sys2Proof.Claims.GlobalStores : Prop :=
  ∀ (g : Guard) (d n : Reg) (off : BitVec 24) (sz : Size) (s : State) (x : Nat → Xlat),
    let i := Instr.stg g d n off sz
    let u := entered i s
    let pa := fun t => (x t).pa + (globalAddr s.me n off t - (x t).va)
    let stores := fun (stream : Bool) => ((runners i s).filter fun t => (x t).stream == stream).map fun t => (pa t, storeData s.me d sz.bytes t)
    let lines := ((stores false).map fun e => e.1 / 128).eraseDups
    let mine := match u.me.opn with | some c => c.sd.map Prod.fst | none => []
    Enters i (fun _ => 0) s → storesOut u s.cur < 15 → s.me.regs.stored = 0 →
    (∀ t ∈ runners i s, Hits s true sz.bytes (globalAddr s.me n off t) (x t) ∧ InTarget s sz.bytes (globalAddr s.me n off t)) →
    (∀ l ∈ lines, dirtyElsewhere u s.cur s.me.place.core l = none) → l1Room u s.me.place.core lines = true →
    (mine = [] ∨ (mine ++ lines).eraseDups.length ≤ 64) →
    ∃ t, exec i s = .next t ∧ t.mem = s.mem ∧ MovesOn s t ∧ RegistersKept s t [] ∧
      (∀ k, k ≠ s.cur → t.grp k = s.grp k) ∧
      ∀ stream a, ownByte t s.cur stream a = (lastStore (stores stream) a).or (ownByte u s.cur stream a)

/-- R161, R171, R173: STL writes its threads' bytes into the core's local memory, all of them good, and nothing else. -/
def Sys2Proof.Claims.LocalStores : Prop :=
  ∀ (g : Guard) (d n : Reg) (off : BitVec 24) (sz : Size) (s : State),
    let i := Instr.stl g d n off sz
    let core := s.me.place.core
    let stores := (runners i s).map fun t => (localAddr s.me n off t, storeData s.me d sz.bytes t)
    Enters i (fun g => newRows (storeSpan i n off sz.bytes (s.core g.place.core) g) g) s → Quiet s → LocalForm s →
    storesOut (entered i s) s.cur < 15 → bankFull (s.core core) (rowsOf s n off (runners i s)) = none →
    (∀ t ∈ runners i s, localCode (s.core core) false true sz.bytes (localAddr s.me n off t) = 0) →
    ∃ t, exec i s = .next t ∧ t.mem = s.mem ∧ MovesOn s t ∧ RegistersKept s t [core] ∧ (∀ k, k ≠ s.cur → t.grp k = s.grp k) ∧
      ∀ a, readByte (t.core core).lm a = (lastStore stores a).getD (readByte (s.core core).lm a)

/-- R175 to R178: ATOMG and ATOML perform their threads' operations in ascending order, and issue a load of the old values. No request of the group or of
its core on the way holds ATOMG back (R164, R180), and no sector that it reads is bad (R168). One whose threads may change the page tables under the marks of
tiles that later threads look at is left to the meaning itself. Choices of the model that it rests on: log 19 for ATOML under a uniform mark, and log 11 for the
queues of the banks, which must have room here. -/
def Sys2Proof.Claims.Atomics : Prop :=
  ∀ (g : Guard) (d n v : Reg) (off : BitVec 24) (op : AOp) (fit : Bool) (s : State), Quiet s → s.me.loads.length < 15 →
    (∀ x : Nat → Xlat,
      let i := Instr.atomg g d n v off op fit
      let ops := (runners i s).map fun t =>
        (t, (x t).pa + (globalAddr s.me n off t - (x t).va), (opArgs s.me op v t).1, (opArgs s.me op v t).2)
      Enters i (fun _ => 0) s → (∀ t ∈ runners i s, Hits s true op.bytes (globalAddr s.me n off t) (x t)) →
      NoHeaders s → NoneArrived s → s.badSec = [] → NoMarks s ∨ (runners i s).length ≤ 1 →
      requestWaits (entered i s) op.bytes ((runners i s).map fun t => (t, globalAddr s.me n off t, x t)) = false →
      ∃ t l, exec i s = .next t ∧ t.mem = (atomSeq op s.me.regs.fmt ops s.mem).1 ∧ MovesOn s t ∧ RegistersKept s t [] ∧
        t.me.loads = s.me.loads ++ [l] ∧ l.dst = d ∧ l.nreg = op.destRegs ∧ l.fit = true ∧ l.act = activeFor i s ∧
        l.src = .data (atomSeq op s.me.regs.fmt ops s.mem).2) ∧
    (let i := Instr.atoml g d n v off op fit
      let core := s.me.place.core
      let ops := (runners i s).map fun t => (t, localAddr s.me n off t, (opArgs s.me op v t).1, (opArgs s.me op v t).2)
      Enters i (fun _ => 0) s → (∀ t ∈ runners i s, localCode (s.core core) true true op.bytes (localAddr s.me n off t) = 0) →
      bankFull (s.core core) (rowsOf s n off (runners i s)) = none →
      ∃ t l, exec i s = .next t ∧ t.mem = s.mem ∧ MovesOn s t ∧ RegistersKept s t [core] ∧
        (∀ a, readByte (t.core core).lm a = readByte (atomSeq op s.me.regs.fmt ops (s.core core).lm).1 a) ∧
        t.me.loads = s.me.loads ++ [l] ∧ l.dst = d ∧ l.nreg = op.destRegs ∧ l.fit = true ∧ l.act = activeFor i s ∧
        l.src = .data (atomSeq op s.me.regs.fmt ops (s.core core).lm).2)

/-- R175, R176, R179: RED keeps its operands, merged by address, with the open chunk. -/
def Sys2Proof.Claims.Reductions : Prop :=
  ∀ (g : Guard) (n v : Reg) (off : BitVec 24) (op : AOp) (s : State) (x : Nat → Xlat),
    let i := Instr.red g n v off op
    let heldBy := fun (g : Group) => (g.chunks.map Chunk.held).flatten
    Enters i (fun _ => 0) s → (∀ t ∈ runners i s, Hits s true op.bytes (globalAddr s.me n off t) (x t)) →
    ∃ t, exec i s = .next t ∧ t.me.regs = s.me.regs ∧ MovesOn s t ∧ OutsideKept s t ∧
      heldBy t.me = heldBy (entered i s).me ++
        (mergeReds s.me op v ((runners i s).map fun k => (k, globalAddr s.me n off k, x k)) []).map fun e =>
          { ins := s.me.nextId, va := e.1, pa := e.2.1, op := HeldOp.red op (BitVec.ofNat 64 e.2.2.1) s.me.regs.fmt, pc := s.me.pc, thrs := e.2.2.2 }

/-- R180, R184, R186, R182, R183: FENCE completes or waits; CHUNK closes its chunk; PFG changes no memory; CWB and CINV leave one store to wait
for per line; MWAIT goes on or parks. Choices of the model that it rests on: logs 18, 24, 31, and log 26 for the released accesses that FENCE marks as having left the core. -/
def Obligations.FencesAndCaches : Prop :=
  (∀ (g : Guard) (sc : Scope) (s : State), Enters (.fence g sc) (fun _ => 0) s →
    if s.me.loads = [] ∧ scopeMet (entered (.fence g sc) s) s.cur sc = true then
      ∃ t, exec (.fence g sc) s = .next t ∧ t.me.regs = s.me.regs ∧ MovesOn s t ∧ PartsKept s t ∧
        OutsideKept { s with flights := s.flights.map fun f =>
          if f.grp = s.cur ∧ f.left = none then { f with left := some s.serial } else f } t
    else exec (.fence g sc) s = .next (holdFor stallFence (entered (.fence g sc) s))) ∧
  (∀ (g : Guard) (s : State), Enters (.chunk g) (fun _ => 0) s →
    ∃ t, exec (.chunk g) s = .next t ∧ (t.me.opn = none ∨ t.me.closeReq = true) ∧ t.me.regs = s.me.regs ∧ MovesOn s t ∧ OutsideKept s t ∧
      PartsKept s t) ∧
  (∀ (g : Guard) (n : Reg) (off : BitVec 24) (l2 : Bool) (s : State), Enters (.pfg g n off l2) (fun _ => 0) s →
    (∀ t ∈ runners (.pfg g n off l2) s, (lookAddr s s.me false false 1 (globalAddr s.me n off t)).isMiss = false) →
    ∃ t, exec (.pfg g n off l2) s = .next t ∧ t.mem = s.mem ∧ MovesOn s t ∧ RegistersKept s t []) ∧
  (∀ (g : Guard) (n : Reg) (off : BitVec 24) (l2 : Bool) (s : State) (x : Nat → Xlat),
    let lineAt := fun t => ((x t).pa + (globalAddr s.me n off t - (x t).va)) / 128
    let clean := Instr.cwb g n off
    let drop := Instr.cinv g n off l2
    (Enters clean (fun _ => 0) s → storesOut (entered clean s) s.cur < 15 →
      (∀ t ∈ runners clean s, Hits s false 1 (globalAddr s.me n off t) (x t) ∧ InTarget s 1 (globalAddr s.me n off t)) →
      ∃ t, exec clean s = .next t ∧ t.me.regs = s.me.regs ∧ MovesOn s t ∧ OutsideKept s t ∧
        t.me.stores.map OutStore.kind = s.me.stores.map OutStore.kind ++ 
          ((runners clean s).map fun k => StoreKind.writeBack (lineAt k) (globalAddr s.me n off k / 128 * 128)).eraseDups) ∧
    (Enters drop (fun _ => 0) s → storesOut (entered drop s) s.cur < 15 →
      (∀ t ∈ runners drop s, Hits s false 1 (globalAddr s.me n off t) (x t) ∧ InTarget s 1 (globalAddr s.me n off t)) →
      ∃ t, exec drop s = .next t ∧ t.me.regs = s.me.regs ∧ MovesOn s t ∧ OutsideKept s t ∧
        t.me.stores.map OutStore.kind = s.me.stores.map OutStore.kind ++
          (((runners drop s).filter fun k => !ownDirty (entered drop s).me (lineAt k)).map fun k =>
            StoreKind.remove (lineAt k) (globalAddr s.me n off k / 128 * 128) l2).eraseDups)) ∧
  (∀ (g : Guard) (n : Reg) (off : BitVec 24) (vc : Option Reg) (s : State) (x : Xlat),
    let i := Instr.mwait g n off vc
    let va := globalAddr s.me n off (lowest (activeFor i s))
    let pa := x.pa + (va - x.va)
    Enters i (fun _ => 0) s → Hits s false 4 va x → s.badSec = [] →
    (vc.isSome = true → requestWaits (entered i s) 4 [(lowest (activeFor i s), va, x)] = false) →
    if ∃ r, vc = some r ∧ readLE s.mem pa 4 ≠ (s.me.uval r).toNat then
      ∃ t, exec i s = .next t ∧ t.me.regs = s.me.regs ∧ MovesOn s t ∧ PartsKept s t ∧ RegistersKept s t [] ∧ t.mem = s.mem ∧ t.watches = s.watches ∧
        ∀ k, k ≠ s.cur → t.grp k = s.grp k
    else ∃ t, exec i s = .next t ∧ t.me.status = .suspended (.mwait (pa / 128)) ∧ t.me.pc = s.me.pc + 8 ∧ t.me.regs = s.me.regs ∧
      t.watches = s.watches ++ [(pa / 128, s.cur)] ∧ t.mem = s.mem ∧ ∀ k, k ≠ s.cur → t.grp k = s.grp k)

/-! ### Names, holds, deliveries and counters -/

/-- R185, R359, R374, R98: CHKST, HOLDQ and PMCR. -/
def Sys2Proof.Claims.OwnStateReads : Prop :=
  ∀ (i : Instr) (s : State) (row : Row), Enters i (fun _ => 0) s → ownRow s (enteredGroup i s) i = some row → WritesRow i s row

/-- R355: GNAME writes the two halves of the group's name. -/
def Sys2Proof.Claims.GroupNames : Prop :=
  ∀ (g : Guard) (d : Reg) (fit : Bool) (s : State), Enters (.gname g d fit) (fun _ => 0) s →
    let i := Instr.gname g d fit
    let S := activeFor i s
    match writeVec s.me.place.shape s.me.regs.v d (fun _ => s.me.place.name.extractLsb' 0 32) S fit with
    | none => exec i s = .next (shapeFault d S (entered i s))
    | some v1 =>
      match writeVec s.me.place.shape v1 (regAt d 1) (fun _ => s.me.place.name.extractLsb' 32 32) S fit with
      | none => exec i s = .next (shapeFault (regAt d 1) S (entered i s))
      | some v2 => Computes i s { s.me.regs with v := v2 } ∧ KeepsRegs s.me.regs.v v2 [d, regAt d 1]

/-- R356, R357, R398, R470: ARM and ARMIF; a delivery that has landed makes ARMIF do nothing, and the lane waits for the reservations of the
messages to other packages. Choices of the model that it rests on: log 41. -/
def Obligations.ArmedRegisters : Prop :=
  ∀ (g : Guard) (vr : Reg) (vn : Option Reg) (s : State), s.me.image = none →
    let name := vn.map fun r => (s.me.uval (regAt r 1) ++ s.me.uval r : Word64)
    let leaves := armMayLeave s (armPackages s vr name)
    (Enters (.arm g vr vn) (fun _ => 0) s → leaves = true → ∃ t, Arms (.arm g vr vn) s vr name t) ∧
    (Enters (.arm g vr vn) (fun _ => 0) s → leaves = false → exec (.arm g vr vn) s = .next (holdFor stallSlot (entered (.arm g vr vn) s))) ∧
    (Enters (.armif g vr vn) (fun _ => 0) s → (s.me.holdOf vr).landed = false → leaves = true → ∃ t, Arms (.armif g vr vn) s vr name t) ∧
    (Enters (.armif g vr vn) (fun _ => 0) s → (s.me.holdOf vr).landed = false → leaves = false →
      exec (.armif g vr vn) s = .next (holdFor stallSlot (entered (.armif g vr vn) s))) ∧
    (Enters (.armif g vr vn) (fun _ => 0) s → (s.me.holdOf vr).landed = true → Computes (.armif g vr vn) s s.me.regs)

/-- R360: REGPUT sends one delivery with a copy of the register, faults on a name of no package, and waits with 16 on their way. Choices of the model that it rests on: log 72. -/
def Obligations.DeliveriesSent : Prop :=
  ∀ (g : Guard) (vt vn vs : Reg) (s : State), Enters (.regput g vt vn vs) (fun _ => 0) s →
    let i := Instr.regput g vt vn vs
    let n : Word64 := s.me.uval (regAt vn 1) ++ s.me.uval vn
    let here := namePkg n = s.pkg.pkg
    let d : Delivery :=
      { name := n, vt := vt, tag := tagOf s.me.place.shape vs, words := storage s.me.place.shape s.me.regs.v vs
        sender := s.cur, spkg := s.pkg.pkg, score := s.me.place.core, sctx := s.me.place.ctx, back := s.serial
        stage := if here then .toDen else .away }
    let bad := n = 0xFFFFFFFFFFFFFFFF ∨ inPod s (namePkg n) = false
    (bad → exec i s = .next (raiseAt 0xA 0 0 (activeFor i s) (entered i s))) ∧
    (¬ bad → 16 ≤ s.me.dlv → exec i s = .next (holdFor stallDlv (entered i s))) ∧
    (¬ bad → s.me.dlv < 16 → here ∨ mayLeave s (namePkg n) 0x08 = true →
      ∃ t, exec i s = .next t ∧ t.me.dlv = s.me.dlv + 1 ∧ t.dlvs = setT s.dlvs s.serial d ∧ t.serial = s.serial + 1 ∧
        t.me.regs = s.me.regs ∧ MovesOn s t ∧ (∀ k, k ≠ s.cur → t.grp k = s.grp k) ∧
        (here → t = { s with groups := t.groups, ctr := t.ctr, dlvs := t.dlvs, serial := t.serial }))

/-! ### Remote accesses -/

/-- R362 to R365, R54, R180: RLD, RST, RATOM and RRED send one access per executing thread, RRED one per merged operand, in the
order of the replays; where they cannot all leave at once the instruction has issued, and its lane waits until every packet of its access has left (R470). Choices of
the model that it rests on: logs 8, 34, 35. -/
def Obligations.RemoteAccesses : Prop :=
  ∀ (g : Guard) (d vp vo vx : Reg) (sz : Size) (sgn fit : Bool) (op : AOp) (s : State) (w : Nat → Window),
    let pkg := fun t => (s.me.elem vp t).toNat % 256
    let va := fun t => (w t).base + (s.me.elem vo t).toNat
    let order := fun i => replays s vp (runners i s)
    let newLoad := fun (i : Instr) (t : State) (regs size : Nat) (sg ft hold : Bool) =>
      ∃ l : Load, t.me.loads = s.me.loads ++ [l] ∧ l.id = s.me.nextId ∧ l.dst = d ∧ l.nreg = regs ∧ l.size = size ∧ l.sgn = sg ∧ l.fit = ft ∧
        l.hold = hold ∧ l.act = activeFor i s ∧ l.src = .remote [] (order i);
    (let i := Instr.rld g d vp vo sz sgn fit
      let hold := !fit && !s.me.uniMark && decide (1 < (threads (activeFor i s)).length) &&
        (regsFrom d sz.regs).any fun r => tagOf s.me.place.shape r != .g;
      Enters i (fun _ => 0) s → s.me.loads.length < 15 → (∀ t ∈ runners i s, Peer s false sz.bytes 1 vp vo (w t) t) →
      SendsAtOnce s ((order i).map pkg) →
      ∃ t, exec i s = .next t ∧ t.me.rem = s.me.rem + (order i).length ∧ newLoad i t sz.regs sz.bytes sgn fit hold ∧
        (if hold then t.me.pc = s.me.pc ∧ t.me.hold = some stallScoreboard else MovesOn s t) ∧
        Sends s t 1 ((order i).map fun k => (pkg k, Body.rld s.cur s.me.nextId k (va k) sz.bytes))) ∧
    (let i := Instr.rst g d vp vo sz;
      Enters i (fun _ => 0) s → storesOut (entered i s) s.cur < 15 → (∀ t ∈ runners i s, Peer s true sz.bytes 2 vp vo (w t) t) →
      SendsAtOnce s ((order i).map pkg) →
      ∃ t, exec i s = .next t ∧ t.me.rem = s.me.rem + (order i).length ∧ MovesOn s t ∧
        Sends s t 2 ((order i).map fun k => (pkg k, Body.rst (va k) (storeData s.me d sz.bytes k) s.cur s.me.pc.toNat (2 ^ k))) ∧
        t.me.stores.map OutStore.kind = s.me.stores.map OutStore.kind ++ (order i).mapIdx (fun j k =>
          StoreKind.remote (pkg k) ((s.target (pkg k)).made + (((order i).take j).filter fun x => pkg x == pkg k).length))) ∧
    (let i := Instr.ratom g d vp vo vx op fit;
      Enters i (fun _ => 0) s → s.me.loads.length < 15 → (∀ t ∈ runners i s, Peer s true op.bytes 3 vp vo (w t) t) →
      SendsAtOnce s ((order i).map pkg) →
      ∃ t, exec i s = .next t ∧ t.me.rem = s.me.rem + (order i).length ∧ newLoad i t op.destRegs op.bytes false true false ∧ MovesOn s t ∧
        Sends s t 3 ((order i).map fun k => (pkg k, Body.ratom s.cur s.me.nextId k (va k) op
          (BitVec.ofNat 64 (opArgs s.me op vx k).1) (BitVec.ofNat 64 (opArgs s.me op vx k).2) s.me.regs.fmt s.me.pc.toNat))) ∧
    (let i := Instr.rred g vp vo vx op
      let merged := mergeRemote s.me op vx ((order i).map fun k => { t := k, peer := s.me.elem vp k, pkg := pkg k, va := va k }) [];
      Enters i (fun _ => 0) s → (∀ t ∈ runners i s, Peer s true op.bytes 4 vp vo (w t) t) →
      SendsAtOnce s (merged.map fun e => e.1.pkg) →
      ∃ t, exec i s = .next t ∧ t.me.rem = s.me.rem + merged.length ∧ MovesOn s t ∧
        Sends s t 4 (merged.map fun e => (e.1.pkg, Body.rred e.1.va op (BitVec.ofNat 64 e.2.1) s.me.regs.fmt s.cur s.me.pc.toNat e.2.2.toNat))) ∧
    (∀ i write size kind dsts,
      (i = .rld g d vp vo sz sgn fit ∧ write = false ∧ size = sz.bytes ∧ kind = 1 ∧ dsts = (order i).map pkg ∧ s.me.loads.length < 15 ∨
        i = .rst g d vp vo sz ∧ write = true ∧ size = sz.bytes ∧ kind = 2 ∧ dsts = (order i).map pkg ∧ storesOut (entered i s) s.cur < 15 ∨
        i = .ratom g d vp vo vx op fit ∧ write = true ∧ size = op.bytes ∧ kind = 3 ∧ dsts = (order i).map pkg ∧ s.me.loads.length < 15 ∨
        i = .rred g vp vo vx op ∧ write = true ∧ size = op.bytes ∧ kind = 4 ∧
          dsts = (mergeRemote s.me op vx ((order i).map fun k => { t := k, peer := s.me.elem vp k, pkg := pkg k, va := va k }) []).map fun e => e.1.pkg) →
      Enters i (fun _ => 0) s → (∀ t ∈ runners i s, Peer s write size kind vp vo (w t) t) → s.me.sending = false →
      ∃ t, exec i s = .next t ∧ t.me.regs = s.me.regs ∧ t.me.rem = s.me.rem + dsts.length ∧
        (∀ p, (t.target p).made = (s.target p).made + dsts.count p) ∧ (∀ k, k ≠ s.cur → t.grp k = s.grp k) ∧
        t = { s with groups := t.groups, ctr := t.ctr, targets := t.targets, ports := t.ports, outbox := t.outbox } ∧
        (MovesOn s t ∨ t.me.pc = s.me.pc ∧ (t.me.hold = some stallSlot ∧ t.me.sending = true ∨ t.me.hold = some stallScoreboard))) ∧
    (∀ i, i = .rld g d vp vo sz sgn fit ∨ i = .rst g d vp vo sz ∨ i = .ratom g d vp vo vx op fit ∨ i = .rred g vp vo vx op →
      s.me.live = true → s.me.sending = true →
      (unsent s s.cur = true → exec i s = .next (holdFor stallSlot s)) ∧
      (unsent s s.cur = false →
        ∃ t, exec i s = .next t ∧ t.me.regs = s.me.regs ∧ t.me.sending = false ∧ MovesOn s t ∧ OutsideKept s t))

/-! ### Recipes -/

/-- R376: RCPDEF attaches the recipe that a block of good tiles describes, or refuses one that is too deep. Choices of the model that it rests on: log 42. -/
def Obligations.RecipesAttached : Prop :=
  ∀ (g : Guard) (d vh vb : Reg) (idx : BitVec 20) (fit : Bool) (s : State) (e : PoolEntry),
    let i := Instr.rcpdef g d vh vb idx fit
    let u := entered i s
    let regs := (List.range (4 + 3 * e.extent)).map (regAt vb)
    let b := readBlock s.me vb e.extent
    let n := newDepth (ctxOf s s) b.src
    Enters i (fun _ => 0) s → poolEntry s s.me idx.toNat = .ok e → e.kind = 5 → e.extent ≤ 4 → vb.toNat + 4 + 3 * e.extent ≤ 128 →
    (∀ r ∈ regs, tagOf s.me.place.shape r = .u ∧ (s.me.holdOf r).held = false ∧ (s.me.holdOf r).poison = false ∧ u.me.awaits r = false) →
    (∀ x ∈ b.tgt :: b.src, GoodTile s x) → blockBad u s.me.place.ctx b = false →
    recipesFull (ctxOf s s) (if 4 < n then [b.tgt] else b.tgt :: b.src) = false → (n ≤ 4 → refsFull (ctxOf s s) b = false) →
    clearHeld u s.me.place.ctx b.tgt (decide (n ≤ 4)) = false →
    ∃ t v k r, exec i s = .next t ∧ MovesOn s t ∧ (∀ j, j ≠ s.cur → (t.grp j).regs = (s.grp j).regs ∨ (s.grp j).uncommitted = true) ∧
      t.me.regs = { s.me.regs with v := v } ∧ KeepsRegs s.me.regs.v v [d] ∧
      writeVec s.me.place.shape s.me.regs.v d (fun _ => BitVec.ofNat 32 (if 4 < n then 2 ^ 31 + n else n)) (activeFor i s) fit = some v ∧
      recipeOf s t k = some r ∧ r.tgt = b.tgt ∧
      if 4 < n then r.state = .refused ∧ r.rpin = true ∧ r.src = []
      else r.state = .unsealed ∧ r.slice = e.base ∧ r.arg = s.me.uval vh ∧ r.src = b.src ∧ r.depth = n ∧ r.rpin = false

/-- R377 to R379, R432, R433, R439: RSEAL seals an unsealed tile, whose lines it brings into the L2, and drops it where a line is bad or finds every way of its
set pinned; RPIN of a dropped tile asks for its recomputation and holds the lane; RDROP drops a sealed one that nothing pins, RPIN and RUNPIN count pins; a recipe record
that nothing keeps is gone after RUNPIN. Choices of the model that it rests on: logs 43, 44, 70. -/
def Obligations.TileInstructions : Prop :=
  ∀ (g : Guard) (vt vz : Reg) (s : State) (k : Nat) (e : Recipe),
    let va := (s.me.uval (regAt vt 1) ++ s.me.uval vt : Word64).toNat
    let tile : TileRef := ⟨va, (s.me.uval vz).toNat⟩
    let c := ctxOf s s
    let lines := vaLines s s.me.place.ctx e.tgt.va e.tgt.size
    let sealed : Recipe := { e with state := .sealed, stime := c.stime + 1, wants := [] }
    let user := TileUser.group s.cur s.me.pc
    let recorded := findT c.recipes k = some e ∧ recordOf c tile = some (k, e);
    (Enters (.rseal g vt) (fun _ => 0) s → GoodTile s (tileOf s s.me.place.ctx va) → findT c.recipes k = some e → e.state = .unsealed →
      (c.recipes.find? fun e => e.2.tgt.va == va && e.2.state != .none && e.2.state != .pinned) = some (k, e) →
      c.quota = 0 ∨ (residency c).length < c.quota →
      ∃ t, exec (.rseal g vt) s = .next t ∧ MovesOn s t ∧ TilesOnly s t ∧
        (recipeOf s t k = some sealed ∧ (∀ l ∈ lines, (findT t.l2 l).isSome) ∨
          ∃ r, recipeOf s t k = some r ∧ r.state = .dropped ∧ ∀ l ∈ lines, findT t.l2 l = none) ∧
        (linesBad s lines = false → e.byp = false → (∀ l ∈ lines, findT s.l2 l = none →
            (l2Peers s l).length + (lines.filter fun m => l2Set m == l2Set l && (findT s.l2 m).isNone).length ≤ 16) →
          recipeOf s t k = some sealed) ∧
        (linesBad s lines = true ∨ e.byp = true ∨ (∃ l ∈ lines, bypasses s l = true) → ∃ r, recipeOf s t k = some r ∧ r.state = .dropped)) ∧
    (Enters (.rdrop g vt) (fun _ => 0) s → GoodTile s (tileOf s s.me.place.ctx va) → findT c.recipes k = some e →
      (c.recipes.find? fun e => e.2.tgt.va == va) = some (k, e) →
      (e.pins = true ∨ e.state = .dropped ∨ e.state = .recomputing → Computes (.rdrop g vt) s s.me.regs) ∧
      (e.pins = false → e.state = .sealed →
        ∃ t, exec (.rdrop g vt) s = .next t ∧ MovesOn s t ∧ TilesOnly s t ∧ recipeOf s t k = some { e with state := .dropped } ∧
          ∀ l ∈ lines, findT t.l2 l = none)) ∧
    (Enters (.rpin g vt vz) (fun _ => 0) s → GoodTile s tile →
      (recorded → e.pinc < 255 → e.state ≠ .failed → e.state ≠ .dropped → e.state ≠ .recomputing →
        ∃ t, exec (.rpin g vt vz) s = .next t ∧ MovesOn s t ∧ TilesOnly s t ∧
          recipeOf s t k = some { e with
            pinc := e.pinc + 1, state := if e.state = .none then .pinned else e.state, users := e.users.filter (· != user) }) ∧
      (recorded → e.pinc < 255 → e.state = .dropped ∨ e.state = .recomputing → e.users.contains user = true →
        ∃ t, exec (.rpin g vt vz) s = .next t ∧ MovesOn s t ∧ TilesOnly s t ∧
          recipeOf s t k = some { e with pinc := e.pinc + 1, users := e.users.filter (· != user) }) ∧
      (recorded → e.pinc < 255 → e.state = .dropped ∨ e.state = .recomputing → e.users.contains user = false →
        ∃ t l, exec (.rpin g vt vz) s = .next t ∧ t.me.pc = s.me.pc ∧ t.me.hold = some stallFence ∧ TilesOnly s t ∧
          recipeOf s t k = some { e with wants := l, waits := e.waits ++ [user].filter fun x => !e.waits.contains x } ∧ (∀ x ∈ e.wants, x ∈ l) ∧
          (e.state = .recomputing → l = e.wants) ∧
          (e.state = .dropped → missLevel s.me < 4 → (s.me.place.core, missLevel s.me) ∈ l)) ∧
      (recordOf c tile = none → (c.recipes.any fun e => e.2.tgt.meets tile) = false →
        ∃ t, exec (.rpin g vt vz) s = .next t ∧ MovesOn s t ∧ TilesOnly s t ∧
          recipeOf s t s.serial = some { tgt := tile, pinc := 1, state := .pinned })) ∧
    (Enters (.runpin g vt vz) (fun _ => 0) s → GoodTile s tile →
      (recordOf c tile = none → Computes (.runpin g vt vz) s s.me.regs) ∧
      (recorded →
        ∃ t, exec (.runpin g vt vz) s = .next t ∧ MovesOn s t ∧ TilesOnly s t ∧ (∀ x ∈ (ctxOf s t).recipes, x.2.idle = false) ∧
          (e.unpin.idle = false → recipeOf s t k = some e.unpin) ∧ e.unpin.pinc = e.pinc - 1 ∧ e.unpin.rpin = false))

/-! ### Engine instructions -/

/-- R245, R246: a matrix instruction whose command passes its checks enters it at the end of the core's queue, with a snapshot of fmt; a command
that fails them faults, and a full queue holds the lane. -/
def Sys2Proof.Claims.MatrixCommands : Prop :=
  ∀ (i : Instr) (s : State) (op : MOp), Enters i (fun _ => 0) s → matrixCmd s.me i = some op →
    let p := s.me.place
    let c := s.core p.core
    match checkCmd (entered i s) p.core p.plan p.stage p.crew s.serial s.me.regs.fmt op with
    | .error .illegal => exec i s = .next (raiseAt 1 0 0 (activeFor i s) (entered i s))
    | .error .operand => exec i s = .next (raiseAt 9 0 0 (activeFor i s) (entered i s))
    | .ok x =>
      if 32 ≤ c.mat.queue.length then exec i s = .next (holdFor stallMq (entered i s))
      else
        let cmd : MCmd := { id := s.serial, op := op, slot := x.slot, fmt := s.me.regs.fmt, grp := s.cur, crew := p.crew, pc := s.me.pc
                            reads := x.reads, writes := x.writes, flags := 0, plane := false, k := c.mat.pairs }
        ∃ t, exec i s = .next t ∧ t.me.mcmd = s.me.mcmd + 1 ∧ t.serial = s.serial + 1 ∧ t.me.regs = s.me.regs ∧ MovesOn s t ∧
          CoreChanged s t { c with mat := { c.mat with
            queue := c.mat.queue ++ [cmd], pairs := c.mat.pairs + (match op with | .mstr true .. => 1 | _ => 0) } }

/-- R246, R250, R251, R254, R261: the checks of MLDP, MSWAP, MDUP and MZERO. -/
def Sys2Proof.Claims.MatrixChecks : Prop :=
  ∀ (s : State) (core plan stage crew id : Nat) (fmt : Word) (op : MOp) (r : Except MBad (Nat × Nat)), fmtB fmt ≤ 6 →
    legalCmd fmt op = some r →
    match r, checkCmd s core plan stage crew id fmt op with
    | .error e, .error e' => e = e'
    | .ok (a, n), .ok x => x.writes = [] ∧ x.slot = none ∧ ∀ k, k ∈ x.reads ↔ a / 32 ≤ k ∧ 32 * k < a + n
    | _, _ => False

/-- R274, R275, R277 to R279: BINIT, ARRIVE and BEXP update their barrier. -/
def Sys2Proof.Claims.BarrierUpdates : Prop :=
  ∀ (g : Guard) (vb vn' vs' : Reg) (vn vs : Option Reg) (s : State) (b : Bar), s.me.uncommitted = false → Quiet s → GroupsRise s → LocalForm s →
    let a := (s.me.uval vb).toNat
    let n := match vn with | some r => (s.me.uval r).toNat | none => 1
    let x := match vs with | some r => (s.me.uval r).toNat | none => 0
    let good := a < 1048576 ∧ a % 16 = 0
    let updates := fun (i : Instr) (b : Bar) => ∃ t, exec i s = .next t ∧ MovesOn s t ∧ Updated s t a b;
    (Enters (.binit g vb vn') (fun _ => 0) s → good → 1 ≤ (s.me.uval vn').toNat → (s.me.uval vn').toNat ≤ 1048575 →
      ∃ t, exec (.binit g vb vn') s = .next t ∧ MovesOn s t ∧
        Updated s t a { exp := (s.me.uval vn').toNat, err := 0, sec := 0, arr := (s.me.uval vn').toNat, phase := 0 } ∧
        readLE (t.core s.me.place.core).lm a 16 = (s.me.uval vn').toNat * 2 ^ 64 + (s.me.uval vn').toNat * 16) ∧
    (BarrierIs (readLE (s.core s.me.place.core).lm a 16) b → good → blockInited s s.me.place.core a = true →
      (Enters (.arrive g vb vn vs) (fun _ => 0) s → 1 ≤ n → n ≤ 1048575 → x ≤ 2147483647 →
        updates (.arrive g vb vn vs) (advanced (fewerArrivals n (moreSectors x b)))) ∧
      (Enters (.bexp g vb vs') (fun _ => 0) s → (s.me.uval vs').toNat ≤ 2147483647 →
        updates (.bexp g vb vs') (advanced (moreSectors (s.me.uval vs').toNat b)))) ∧
    (good → blockInited s s.me.place.core a = false →
      (Enters (.arrive g vb vn vs) (fun _ => 0) s →
        exec (.arrive g vb vn vs) s = .next (raiseAt 7 0 0 (activeFor (.arrive g vb vn vs) s) (entered (.arrive g vb vn vs) s))) ∧
      (Enters (.bexp g vb vs') (fun _ => 0) s →
        exec (.bexp g vb vs') s = .next (raiseAt 7 0 0 (activeFor (.bexp g vb vs') s) (entered (.bexp g vb vs') s)))) ∧
    (¬ good → Enters (.binit g vb vn') (fun _ => 0) s →
      exec (.binit g vb vn') s = .next (raiseAt 7 0 0 (activeFor (.binit g vb vn') s) (entered (.binit g vb vn') s)))

/-- R279: BTEST reads a barrier; BWAIT goes on past another phase and else sleeps at its instruction. -/
def Sys2Proof.Claims.BarrierReads : Prop :=
  ∀ (g : Guard) (vd vb vp : Reg) (sec fit : Bool) (s : State) (b : Bar),
    let a := (s.me.uval vb).toNat
    BarrierIs (leNat (readLocalBytes (entered (.btest g vd vb sec fit) s) s.cur s.me.place.core a 16)) b → a < 1048576 → a % 16 = 0 →
    (Enters (.btest g vd vb sec fit) (fun _ => 0) s →
      WritesRow (.btest g vd vb sec fit) s
        (vd, fit, fun _ => if sec then BitVec.ofInt 32 b.sec else BitVec.ofNat 32 (b.err * 2 ^ 28 + b.arr * 16 + b.phase))) ∧
    (Enters (.bwait g vb vp) (fun _ => 0) s →
      let p := (s.me.uval vp).toNat % 16
      (b.phase ≠ p → Computes (.bwait g vb vp) s s.me.regs) ∧
      (b.phase = p → ∃ t, exec (.bwait g vb vp) s = .next t ∧ t.me.status = .suspended (.barrier a p) ∧ t.me.pc = s.me.pc ∧
        t.me.regs = s.me.regs ∧ t.me.clause = none ∧ OutsideKept s t ∧ PartsKept s t))

/-- R280, R282, R294, R351: KICK enqueues a record for the producer group of its crew alone; LAUNCH enters a child launch, or waits for room. Choices of the model that it rests on: log 31. -/
def Obligations.KicksAndLaunches : Prop :=
  ∀ (g : Guard) (idx : BitVec 20) (h : Option Reg) (s : State),
    let p := s.me.place
    let c := s.core p.core
    let v := match h with | some r => s.me.uval r | none => 0
    (Enters (.kick g idx h) (fun _ => 0) s →
      let i := Instr.kick g idx h
      let n := (idx.zeroExtend 32 + v).toNat
      (p.gid ≠ (s.crew p.crew).prod → exec i s = .next (raiseAt 6 0 0 (activeFor i s) (entered i s))) ∧
      (p.gid = (s.crew p.crew).prod → 16384 ≤ n → exec i s = .next (raiseAt 7 0 0 (activeFor i s) (entered i s))) ∧
      (p.gid = (s.crew p.crew).prod → n < 16384 → c.eng.kicks.length < 64 →
        ∃ t, exec i s = .next t ∧ t.serial = s.serial + 1 ∧ t.me.regs = s.me.regs ∧ MovesOn s t ∧ PartsKept s t ∧
          CoreChanged s t { c with eng := { c.eng with
            kicks := c.eng.kicks ++ [{ id := s.serial, index := n, grp := s.cur, crew := p.crew, fmt := s.me.regs.fmt }] } }) ∧
      (p.gid = (s.crew p.crew).prod → n < 16384 → 64 ≤ c.eng.kicks.length → exec i s = .next (holdFor stallMq (entered i s)))) ∧
    (∀ e : PoolEntry, Enters (.launch g idx h) (fun _ => 0) s → poolEntry s s.me idx.toNat = .ok e →
      let i := Instr.launch g idx h
      let parent := findT s.plans p.plan
      let l : Pending := { ctx := p.ctx, addr := e.base, parent := p.plan, since := s.now
                           pri := match h with | some _ => v.toNat % 8 | none => (parent.map Plan.pri).getD 0
                           org := (parent.map Plan.org).getD {} }
      (e.kind ≠ 6 ∨ 8 ≤ v.toNat → exec i s = .next (raiseAt 7 0 0 (activeFor i s) (entered i s))) ∧
      (e.kind = 6 → v.toNat < 8 → c.launches.length < 4 →
        ∃ t, exec i s = .next t ∧ t.serial = s.serial ∧ t.me.regs = s.me.regs ∧ MovesOn s t ∧ PartsKept s t ∧
          CoreChanged s t { c with launches := c.launches ++ [l] }) ∧
      (e.kind = 6 → v.toNat < 8 → 4 ≤ c.launches.length →
        ∃ t, exec i s = .next t ∧ t.me.status = .suspended .launch ∧ t.me.pc = s.me.pc ∧ t.me.regs = s.me.regs ∧ OutsideKept s t ∧ PartsKept s t))

/-! ### Pipe instructions -/

/-- R285 to R287, R292: PRSV of a pipe whose slots this package holds reserves the first free slot, writes zero for a closed pipe, and waits where none is
free; of a pipe whose slots another package holds it asks there, and takes the answer to that request (R322); what it has asked about a closed pipe it takes
back (R292). -/
def Sys2Proof.Claims.SlotsReserved : Prop :=
  ∀ (g : Guard) (vd : Reg) (idx : BitVec 20) (h : Option Reg) (fit : Bool) (s : State) (j : Nat) (pl : Plan) (p : Pipe),
    let i := Instr.prsv g vd idx h fit
    Enters i (fun _ => 0) s → pipeAt s s.me idx h = .ok (j, pl, p) →
    (p.prod ≠ s.me.place.stage ∨ p.link = true ∧ p.lside = true → exec i s = .next (raiseAt 8 0 0 (activeFor i s) (entered i s))) ∧
    (p.prod = s.me.place.stage → (p.link = false ∨ p.lside = false) →
      (p.closedP = true ∨ pl.forced = true →
        (s.me.ask = none → ∃ t, TokenWritten i s t vd fit 0 ∧ t.plans = s.plans) ∧
        (∀ a q dst, s.me.ask = some a → a.op = 0 → s.pipe s.me.place.plan a.pipe = some q → q.peer = some dst →
          (∀ n l, a.got = some (1 :: n :: l) →
            ∃ t, exec i s = .next t ∧ t.me.ask = none ∧ t.plans = s.plans ∧ Sent s t dst 0x10 (.linkReq q.lkey 101 0 n)) ∧
          (a.got = none → ∃ t, exec i s = .next t ∧ t.me.ask = none ∧ t.plans = s.plans ∧ Sent s t dst 0x10 (.linkReq q.lkey 102 a.no 0)))) ∧
      (p.closedP = false → pl.forced = false → p.link = false →
        (∀ r, (p.refs.find? fun r => (p.slot r).state == .free) = some r →
          ∃ t, TokenWritten i s t vd fit (tokenWord false j r p.next.toNat) ∧
            SlotSet s t j p r { state := .reserved s.me.place.crew, seq := p.next } ∧ (∀ q, t.pipe s.me.place.plan j = some q → q.next = p.next + 1)) ∧
        ((p.refs.find? fun r => (p.slot r).state == .free) = none → SleepsAtPipe i s j true)) ∧
      (p.closedP = false → pl.forced = false → p.link = true →
        (∀ a, s.me.ask = some a → a.pipe = j → a.op = 0 → a.slot = s.me.place.crew →
          (∀ n q l, a.got = some (1 :: n :: q :: l) →
            ∃ t, TokenWritten i s t vd fit (tokenWord false j ⟨decide (4096 ≤ n), n % 4096⟩ (q % 2 ^ 32)) ∧ t.me.ask = none) ∧
          (∀ l, a.got = some (0 :: l) → ∃ t, TokenWritten i s t vd fit 0 ∧ t.me.ask = none ∧ t.plans = s.plans) ∧
          (a.got = none → SleepsAtPipe i s j true)) ∧
        (∀ dst, s.me.ask = none → p.peer = some dst →
          (mayLeave s dst 0x10 = true →
            ∃ t, exec i s = .next t ∧ t.me.status = .suspended (.pipe s.me.place.plan j true) ∧ t.me.pc = s.me.pc ∧ t.me.regs = s.me.regs ∧
              t.me.ask = some { pipe := j, op := 0, slot := s.me.place.crew, no := s.serial } ∧
              Sent s t dst 0x10 (.linkReq p.lkey 0 s.serial s.me.place.crew) ∧
              t = { s with groups := t.groups, ctr := t.ctr, targets := t.targets, ports := t.ports, outbox := t.outbox, serial := s.serial + 1 }) ∧
          (mayLeave s dst 0x10 = false → exec i s = .next (holdFor stallSlot (entered i s)))) ∧
        (s.me.ask = none → p.peer = none → exec i s = .next (holdFor stallSlot (entered i s)))))

/-- R285 to R287, R292, R313: CTAK takes the committed slot with the lowest sequence number and its weight, writes zero for a closed pipe, and else
waits. -/
def Sys2Proof.Claims.SlotsTaken : Prop :=
  ∀ (g : Guard) (vd : Reg) (idx : BitVec 20) (h : Option Reg) (fit : Bool) (s : State) (j : Nat) (pl : Plan) (p : Pipe) (c : Crew),
    let i := Instr.ctak g vd idx h fit
    Enters i (fun _ => 0) s → pipeAt s s.me idx h = .ok (j, pl, p) → findT s.crews s.me.place.crew = some c →
    (p.cons ≠ s.me.place.stage ∨ p.link = true ∧ p.lside = false → exec i s = .next (raiseAt 8 0 0 (activeFor i s) (entered i s))) ∧
    (p.cons = s.me.place.stage → (p.link = false ∨ p.lside = true) →
      (∀ r, r ∈ p.refs → (p.slot r).state = .committed →
        (∀ r' ∈ p.refs, r' ≠ r → (p.slot r').state = .committed → 0 < ((p.slot r').seq - (p.slot r).seq).toNat ∧
          ((p.slot r').seq - (p.slot r).seq).toNat < 2 ^ 31) →
        ∃ t, TokenWritten i s t vd fit (tokenWord true j r (p.slot r).seq.toNat) ∧
          SlotSet s t j p r { p.slot r with state := .taken s.me.place.crew, share := 0 } ∧
          findT t.crews s.me.place.crew = some { c with weight := c.weight + (p.slot r).share }) ∧
      ((∀ r ∈ p.refs, (p.slot r).state ≠ .committed) →
        (closedToConsumer s s.me.place.plan pl p = true → ∃ t, TokenWritten i s t vd fit 0 ∧ t.plans = s.plans ∧ t.crews = s.crews) ∧
        (closedToConsumer s s.me.place.plan pl p = false → SleepsAtPipe i s j false)))

/-- R286, R288, R289, R315, R320: PCMT posts a commit of a reserved slot with half of its crew's weight, to wait for its crew's operations that name the token,
CREL posts a release of a taken one, to wait for those that read from the slot; a discarded token is dropped, any other faults. No weight passes over a linked
pipe (R322), and the header of its slot is another package's to write. -/
def Obligations.CommitsAndReleases : Prop :=
  ∀ (g : Guard) (vt : Reg) (s : State) (p : Pipe) (c : Crew),
    let me := s.me.place
    let w := s.me.uval vt
    let j := w.toNat / 2 ^ 23 % 64
    let r : SlotRef := ⟨w.getLsbD 29, w.toNat / 2 ^ 11 % 4096⟩
    let x := p.slot r
    let pcmt := Instr.pcmt g vt
    let crel := Instr.crel g vt
    s.pipe me.plan j = some p →
    (Enters pcmt (fun _ => 0) s → p.prod = me.stage → (p.link = false ∨ p.lside = false) →
      (holding s me.plan me.crew w = .reserved → findT s.crews me.crew = some c → c.plan = me.plan → Quiet s →
        let full := if 2 ≤ c.weight ∨ p.link = true then c.weight else c.weight + 1048576
        let share := if p.link then 0 else full / 2
        ∃ t, exec pcmt s = .next t ∧ MovesOn s t ∧ t.me.regs = s.me.regs ∧
          SlotSet s t j p r { x with state := .committing me.crew, share := share, waits := opsNaming s me.core me.crew me.plan w } ∧
          findT t.crews me.crew = some { c with weight := full - share } ∧
          t.mem = (if p.link then s else writeHeader me.ctx p r x.seq share (entered pcmt s)).mem ∧
          ∀ k, k ≠ s.cur → (t.grp k).regs = (s.grp k).regs) ∧
      (holding s me.plan me.crew w = .discarded → Computes pcmt s s.me.regs) ∧
      (holding s me.plan me.crew w ≠ .reserved → holding s me.plan me.crew w ≠ .discarded →
        exec pcmt s = .next (raiseAt 8 0 0 (activeFor pcmt s) (entered pcmt s)))) ∧
    (Enters crel (fun _ => 0) s → p.cons = me.stage → (p.link = false ∨ p.lside = true) →
      (holding s me.plan me.crew w = .taken →
        ∃ t, exec crel s = .next t ∧ MovesOn s t ∧ t.me.regs = s.me.regs ∧ PartsKept s t ∧
          SlotSet s t j p r { x with state := .releasing me.crew, waits := opsReading s me.core me.crew w } ∧
          t = { s with groups := t.groups, ctr := t.ctr, plans := t.plans } ∧ ∀ k, k ≠ s.cur → t.grp k = s.grp k) ∧
      (holding s me.plan me.crew w = .discarded → Computes crel s s.me.regs) ∧
      (holding s me.plan me.crew w ≠ .taken → holding s me.plan me.crew w ≠ .discarded →
        exec crel s = .next (raiseAt 8 0 0 (activeFor crel s) (entered crel s))))

/-- R291, R322: PSTAT writes the crew's weight, a count of a pipe, which another package is asked for where it holds the slots, or an address or number of a slot whose
token its crew holds. Choices of the model that it rests on: log 30. -/
def Obligations.PipeStatus : Prop :=
  ∀ (g : Guard) (vd : Reg) (m : PMode) (idx : BitVec 20) (h : Option Reg) (fit : Bool) (s : State),
    let i := Instr.pstat g vd m idx h fit
    let me := s.me.place
    Enters i (fun _ => 0) s →
    (m = .wlo → WritesRow i s (vd, fit, fun _ => BitVec.ofNat 32 (s.crew me.crew).weight)) ∧
    (m = .whi → WritesRow i s (vd, fit, fun _ => BitVec.ofNat 32 ((s.crew me.crew).weight / 2 ^ 32))) ∧
    (m = .free ∨ m = .ready ∨ m = .rfree ∨ m = .sfree → ∀ j pl p, pipeAt s s.me idx h = .ok (j, pl, p) → (p.link = false ∨ p.lside = true) →
      WritesRow i s (vd, fit, fun _ => BitVec.ofNat 32 (pipeWord p ⟨false, 0⟩ m))) ∧
    (let w := match h with | some r => s.me.uval r | none => 0
      let op := 2 + statCode m
      ∀ (j : Nat) (p : Pipe) (r : SlotRef), p.link = true → p.lside = false →
      ((m = .free ∨ m = .ready ∨ m = .rfree ∨ m = .sfree) ∧ r = ⟨false, 0⟩ ∧ (∃ pl, pipeAt s s.me idx h = .ok (j, pl, p)) ∨
        (m = .tlo ∨ m = .thi ∨ m = .hlo ∨ m = .hhi ∨ m = .seq) ∧ r = ⟨w.getLsbD 29, w.toNat / 2 ^ 11 % 4096⟩ ∧ j = w.toNat / 2 ^ 23 % 64 ∧
          s.pipe me.plan j = some p ∧ (holding s me.plan me.crew w = .reserved ∨ holding s me.plan me.crew w = .taken)) →
      (∀ a, s.me.ask = some a → a.pipe = j → a.op = op → a.slot = r.num →
        (∀ n l, a.got = some (n :: l) → ∃ t, TokenWritten i s t vd fit (BitVec.ofNat 32 n) ∧ t.me.ask = none ∧ t.plans = s.plans) ∧
        (a.got = none → exec i s = .next (holdFor stallScoreboard (entered i s)))) ∧
      (∀ dst, s.me.ask = none → p.peer = some dst →
        (mayLeave s dst 0x10 = true →
          ∃ t, exec i s = .next t ∧ t.me.hold = some stallScoreboard ∧ t.me.pc = s.me.pc ∧ t.me.regs = s.me.regs ∧
            t.me.ask = some { pipe := j, op := op, slot := r.num, no := s.serial } ∧ Sent s t dst 0x10 (.linkReq p.lkey op s.serial r.num) ∧
            t = { s with groups := t.groups, ctr := t.ctr, targets := t.targets, ports := t.ports, outbox := t.outbox, serial := s.serial + 1 }) ∧
        (mayLeave s dst 0x10 = false → exec i s = .next (holdFor stallSlot (entered i s)))) ∧
      (s.me.ask = none → p.peer = none → exec i s = .next (holdFor stallSlot (entered i s)))) ∧
    (m = .tlo ∨ m = .thi ∨ m = .hlo ∨ m = .hhi ∨ m = .seq →
      let w := match h with | some r => s.me.uval r | none => 0
      ∀ p, s.pipe me.plan (w.toNat / 2 ^ 23 % 64) = some p → (p.link = false ∨ p.lside = true) →
        (holding s me.plan me.crew w = .reserved ∨ holding s me.plan me.crew w = .taken →
          WritesRow i s (vd, fit, fun _ => BitVec.ofNat 32 (pipeWord p ⟨w.getLsbD 29, w.toNat / 2 ^ 11 % 4096⟩ m))) ∧
        (holding s me.plan me.crew w ≠ .reserved → holding s me.plan me.crew w ≠ .taken → exec i s = .next (raiseAt 8 0 0 (activeFor i s) (entered i s))))

/-! ### Encoding, steps and invariants -/

/-- R62 to R67: instruction words as the spec writes them out. -/
def Obligations.DecodedWords : Prop :=
  let free : Guard := ⟨7, false⟩;
  decode 0x0070912200000000 = .ok (.iaddA free 9 9 8 false) ∧
  decode 0xC010000000000000 = .ok (.bra ⟨1, false⟩ 0) ∧
  decode 0xC090000000000009 = .ok (.brd ⟨1, false⟩ 9) ∧
  decode 0xC370000000000000 = .ok (.exit free) ∧
  decode 0x2C7142A000010020 = .ok (.fcvt free 20 21 .bf16 .f32 1 0 .fmt false) ∧
  decode 0x4570008195000040 = .ok (.red free 4 6 0x40 .addBf16x2) ∧
  decode 0x4870000000000002 = .ok (.fence free .pkg) ∧
  decode 0x6170A16306800001 = .ok (.mstr free 10 11 12 (some 13)) ∧
  decode 0x8170010004800002 = .ok (.arrive free 8 none (some 9)) ∧
  decode 0x807003C000100004 = .ok (.kick free 4 (some 30)) ∧
  decode 0xCD71400000000003 = .ok (.prsv free 20 3 none false) ∧
  decode 0xA5F0C10500000000 = .ok (.regput free 12 8 20) ∧
  decode 0xA4F0C10000000001 = .ok (.arm free 12 (some 8)) ∧
  decode 0xB073364A00000005 = .ok (.rcpdef free 51 50 40 5 false) ∧
  decode 0xB0F0050000000000 = .ok (.rseal free 40)

/-- R62 to R69: a word is the instruction that it encodes, with every operand at every value the encoding admits, and no other word is one. -/
def Obligations.DecodeAndEncodeAgree : Prop := ∀ (w : Word64) (i : Instr), decode w = .ok i ↔ i.wf = true ∧ encode i = some w

/-- R51, R57, R69: with nothing on the agenda and the cycles of its last instruction past (R103), the running group's step is exec of the instruction its word decodes to, and nothing beside; a word that is
no instruction raises the illegal-instruction fault, for the threads that its guard selects. An issue that the agenda names waits for bank requests that precede
its own (R207). Choices of the model that it rests on: log 2. -/
def Obligations.StepRunsDecoded : Prop :=
  ∀ (s : State) (w : Word64), s.agenda = [] → s.me.live = true → s.me.status = .issuing → s.me.hold = none → s.me.debt = 0 → s.me.word = some w →
    (∀ i, decode w = .ok i → step s = exec i s) ∧
    (∀ e, decode w = .error e → s.me.pend = none → step s = .next (raiseAt 1 0 0 (wordSet w s.me.regs) s)) ∧
    ∀ (rest : List Action) (u : State), u.agenda = .issue s.cur :: rest → { u with agenda := [] } = s →
      bankOutranked { s with agenda := rest } s.cur = false → ∀ i, decode w = .ok i →
      step u = exec i { s with agenda := rest }

/-- R220: memory keeps its canonical form through every step. -/
def Sys2Proof.Claims.MemoryKept : Prop := ∀ s t : State, Memory.wf s.mem = true → step s = .next t → Memory.wf t.mem = true

/-- R160: so does the local memory of every core. -/
def Sys2Proof.Claims.LocalMemoryKept : Prop :=
  ∀ s t : State, (∀ c, Memory.wf (s.core c).lm = true) → step s = .next t → ∀ c, Memory.wf (t.core c).lm = true

/-- R4, R194: the tables of groups and of cores list each group and each core once, through every step. Choices of the model that it rests on: log 15. -/
def Obligations.TablesKept : Prop :=
  ∀ s t : State, step s = .next t → (GroupsRise s → GroupsRise t) ∧ (CoresRise s → CoresRise t)

/-- R342, R387, R483, R484, R77, R81, R97, R104, R108, R109: the machine after reset. Memory lists nothing and has its form; no group lives; no context
exists; the package runs its wipe and reports what the device status word has at reset. A group's registers start as given. -/
def Obligations.AfterReset : Prop :=
  let s := State.reset;
  let r : Regs := {};
  Memory.wf s.mem = true ∧ (∀ c, Memory.wf (s.core c).lm = true) ∧ GroupsRise s ∧ CoresRise s ∧
  (∀ a, readByte s.mem a = 0) ∧ (∀ c a, readByte (s.core c).lm a = 0) ∧ (∀ k, (s.grp k).live = false) ∧
  (∀ c, (s.ctx c).live = false) ∧ (∀ i, (s.denEntry i).gen = 0 ∧ (s.denEntry i).state = .free) ∧
  s.pkg.life = .manufacture ∧ s.pkg.wipe = true ∧ s.pkg.meas = false ∧ s.pkg.step = 0 ∧ s.pkg.therm = 0 ∧ s.pkg.tjmax = 0 ∧
  (∀ k, (getT {} s.queues k).en = false ∧ (getT {} s.queues k).age = 0 ∧ (getT {} s.queues k).ctx = 0 ∧ (getT {} s.queues k).level = 0) ∧
  r.fmt = 0 ∧ r.flg = 0 ∧ r.chklim = 256 ∧ r.stk = 0 ∧ (∀ v i, regWord r.v v i = 0) ∧ (∀ p, p ≠ 7 → readPred r.p p = 0) ∧ readPred r.p 7 = 0xFFFFFFFF

/-! ### Events of groups and memory -/

/-- R200 to R204: ISSUE_SELECT gives a lane on which nothing issues to the ready group that goes first, and that group enters its clause. Choices of the model that it rests on: logs 11, 12. -/
def Obligations.LaneSelection : Prop :=
  ∀ (s : State) (core lane k : Nat) (c : Clause),
    let ks := laneGroups s core lane
    let g := s.grp k
    (∀ j ∈ ks, (s.grp j).status ≠ .issuing ∧ (s.grp j).opn = none ∧ ((s.grp j).closeReq && (s.grp j).shut) = false) →
    (∀ j ∈ standOn s core lane, (s.grp j).debt = 0 ∧ (s.grp j).idle = 0) →
    GoesFirst s (ks.filter fun j => stallOf s j == none) k →
    locate s g = .ok (c, true) → g.pend = none → lateOf s k = none → mergesAt g g.pc = false →
    ∃ t, exec (.issueSelect core lane) s = .next t ∧ t.cur = k ∧
      t.grp k = { g with
        w := 0, yielded := false, status := .issuing, clause := some c, pc := c.first, hold := none, entering := false, held := 0, banked := none
        shut := false } ∧
      (∀ j, j ≠ k → t.grp j = if j ∈ ks then { s.grp j with yielded := false } else s.grp j) ∧
      t = { s with groups := t.groups, cur := k }

/-- R54, R163, R164, R373, R183, R229, R186: the ends of outstanding loads and stores, and the wake-ups of SLEEP and MWAIT. A lane that waits for its load goes
on, or takes the shape fault of data that does not fit. Choices of the model that it rests on: logs 16, 22. -/
def Obligations.AccessesComplete : Prop :=
  ∀ (s : State) (k id : Nat),
    let g := s.grp k
    (∀ till dlv, g.status = .suspended (.sleep till dlv) →
      exec (.sleepExpire k) s = .next (if till ≤ s.now then
        s.setGrp k { g with status := .waiting, yielded := g.yielded || g.wakeYield, wakeYield := false } else s)) ∧
    (∀ line, g.status = .suspended (.mwait line) →
      exec (.mwaitResume k) s =
        .next { s.setGrp k { g with status := .waiting, yielded := g.yielded || g.wakeYield, wakeYield := false } with
          watches := s.watches.filter fun w => w != (line, k) }) ∧
    (∀ l vals, (g.loads.find? fun l => l.id == id) = some l → g.live = true → g.status ≠ .ended → l.nreg ≤ 4 → Returned s k l vals →
      (l.hold = false → ∃ t, exec (.loadComplete k id) s = .next t ∧ Lands s t k l vals ∧ (t.grp k).pc = g.pc ∧ (t.grp k).status = g.status) ∧
      (l.hold = true → loadMisfit g.place.shape l vals = none →
        ∃ t, exec (.loadComplete k id) s = .next t ∧ Lands s t k l vals ∧ MovesOn { s with cur := k } { t with cur := k }) ∧
      (∀ r w i, l.hold = true → l.src = .data vals → loadMisfit g.place.shape l vals = some r → g.word = some w → decode w = .ok i →
        exec (.loadComplete k id) s = .next { shapeFault r (setFor (useOf g.regs.fmt i) g.regs)
          { s.setGrp k { g with loads := g.loads.filter fun o => o.id != l.id } with cur := k } with cur := s.cur })) ∧
    (∀ x, (g.stores.find? fun x => x.id == id) = some x → (∀ peer copy, x.kind ≠ .remote peer copy) →
      (∀ line va, x.kind = .fill line va → tileAt s g.place.ctx va = none ∧ bypasses s line = false ∧
        (notYetOwn s k line = true → l1Room s g.place.core [line] = true)) →
      (∀ line va l2, x.kind = .remove line va l2 → pinnedLine s line = false ∧ ownDirty g line = false ∧ tileAt s g.place.ctx va = none) →
      ∃ t, exec (.storeComplete k id) s = .next t ∧ t.mem = s.mem ∧ t.grp k = { g with stores := g.stores.filter fun x => x.id != id } ∧
        (∀ j, j ≠ k → t.grp j = s.grp j) ∧ (∀ c, (t.core c).lm = (s.core c).lm) ∧
        match x.kind with
        | .fill line _ => getT .uncached t.dir line = (getT .uncached s.dir line).fill (sharerOf s g.place.core)
        | .writeBack line _ => ∀ e, findT s.l2 line = some e → findT t.l2 line = some { e with dirty := false }
        | .remove line _ l2 => (∀ y ∈ (t.core (l1Home s g.place.core line)).l1, y.line = line → y.owner ≠ none) ∧
            (l2 = true → findT t.l2 line = none)
        | .remote _ _ => True)

/-- R449, R109, R169, R179, R191, R306, R457: a commit writes its chunk's bytes and releases what it holds, and chklim, as it stands then, becomes the limit of the
next chunk; a commit whose writes may change the page tables under the marks of tiles is left to the meaning itself. Released stores and reductions take effect at
home, a packed reduction half by half in the order of arrival. Choices of the model that it rests on: log 26. -/
def Obligations.CommitsAndReleasedStores : Prop :=
  ∀ (s : State) (k : Nat), s.badSec = [] →
    let g := s.grp k
    (∀ c, g.clo = some c → Quiet { s with cur := k } → NoHeaders s → NoneArrived s → g.exiting = false →
      (∀ e ∈ chunkReads k g c.no, waitsOnTile s g e.1 e.2 = none) →
      (∀ x ∈ g.stores, x.chunk ≠ c.no) → commitBlocked s g c = false → heldByReserved s k c.resv (writeKeys s g c) g.place.core [] = false →
      (∀ e ∈ c.sd, refusesWrite s g (getT 0 c.vas e.1) = false) → NoMarks s ∨ c.sd.length ≤ 1 → mayGrant s (sliceSet g c) = true → s.hub = [] →
      ∃ t, exec (.chunkCommit k) s = .next t ∧ (∀ j, j ≠ k → (t.grp j).regs = (s.grp j).regs) ∧ (∀ j, (t.grp j).pc = (s.grp j).pc) ∧
        (t.grp k).regs = { g.regs with lim := g.regs.chklim.toNat } ∧ (∀ n, (t.core n).lm = (s.core n).lm) ∧ t.grants = s.grants + 1 ∧
        t.mem = c.sd.foldl (fun m e => e.2.foldl (fun m b => writeByte m (128 * e.1 + b.1) b.2) m) s.mem ∧
        (g.closeReq = false → (t.grp k).clo = none ∧
          (t.grp k).opn = g.opn.map fun o => { o with ckpt := { o.ckpt with lim := o.ckpt.chklim.toNat } }) ∧
        (t.flights.map fun f => (f.grp, f.va, f.pa, f.op, f.half)) = (s.flights.map fun f => (f.grp, f.va, f.pa, f.op, f.half)) ++
          c.held.flatMap fun h =>
            if (match h.op with | .red op _ _ => (halvesOf op).isSome | .store _ => false) then
              [(k, h.va, h.pa, h.op, 0), (k, h.va, h.pa, h.op, 1)] else [(k, h.va, h.pa, h.op, 2)]) ∧
    (∀ f bs id, (s.flights.find? fun f => f.id == id) = some f → f.op = .store bs → NoneArrived s →
      flightBlocked s f bs.length = false → flightFault s f = none →
      ∃ t, exec (.streamStoreApply id) s = .next t ∧ t.mem = writeBytes s.mem f.pa (keptBytes s f.pa bs) ∧ GroupsUnmoved s t ∧
        t.flights = s.flights.filter fun o => !(o.id == f.id && o.half == f.half)) ∧
    (∀ f op x fmt id half, (s.flights.find? fun f => f.id == id && f.half == half) = some f → f.op = .red op x fmt →
      (f.arrived = none → flightBlocked s f op.bytes = false ∧ flightFault s f = none) → (f.half = 2 → NoneArrived s) →
      (f.half ≠ 2 → streamAhead s f = false) →
      let m := readLE s.mem f.pa op.bytes
      ∃ t v, exec (.reductionApply id half) s = .next t ∧ t.mem = writeBytes s.mem f.pa (keptBytes s f.pa (leBytes op.bytes v)) ∧ GroupsUnmoved s t ∧
        (f.half = 2 → v = applyOp op fmt m x.toNat 0) ∧
        (∀ h, f.half = 0 ∨ f.half = 1 → halvesOf op = some h →
          v = m - m / 2 ^ (16 * f.half) % 65536 * 2 ^ (16 * f.half) + addHalf h fmt m x.toNat f.half * 2 ^ (16 * f.half)) ∧
        (t.flights.map fun o => (o.id, o.half)) =
          (s.flights.filter fun o => !(o.id == f.id && o.half == f.half)).map fun o => (o.id, o.half))

/-- R229, R239, R430, R438, R485 to R487: page walks, evictions, errors. Choices of the model that it rests on: logs 25, 28, 63. -/
def Obligations.WalksEvictionsErrors : Prop :=
  ∀ (s : State),
    (∀ id w, findT s.walks id = some w →
      ∃ t, exec (.pageWalkComplete id) s = .next t ∧ GroupsUnmoved s t ∧ t.mem = s.mem ∧
        (getT [] s.missq w.die = [] → findT t.walks id = none ∧ getT [] t.missq w.die = [] ∧
          (∀ x, walkResult s w = .ok x →
            (∀ c ∈ w.cores, (t.core c).tlb.head? = some x) ∧ (getT [] t.stlb w.die).head? = some x ∧ t.groups = s.groups) ∧
          (∀ c, walkResult s w = .error c → t.stlb = s.stlb ∧ (∀ n, (t.core n).tlb = (s.core n).tlb) ∧
            (∀ k ∈ w.groups, (t.grp k).xlate.head? = some (pageOf w.va, c)) ∧
            ∀ n ∈ w.engines, (t.core n).xfail.head? = some (w.ctx, pageOf w.va, c)))) ∧
    (∀ w, upperAt (getT [] s.wcache w.die) w.ctx w.va = none → w.va < 2 ^ 57 → walkResult s w = walk s w.ctx w.va) ∧
    (∀ line, evictee s line = true → ∃ t, exec (.l2Evict line) s = .next t ∧ t.groups = s.groups ∧ t.mem = s.mem ∧
      (∀ c, (t.core c).lm = (s.core c).lm) ∧
      (sealedTiles s line = [] → findT t.l2 line = none ∧ t.ctxs = s.ctxs) ∧
      (∀ c r rest e, sealedTiles s line = (c, r) :: rest → findT (s.ctx c).recipes r = some e →
        findT (t.ctx c).recipes r = some { e with state := .dropped } ∧ ∀ l ∈ vaLines s c e.tgt.va e.tgt.size, findT t.l2 l = none)) ∧
    (∀ line, evictee s line = false → exec (.l2Evict line) s = .next s) ∧
    (∀ ctx r e, findT (s.ctx ctx).recipes r = some e → e.state = .sealed → e.pinc = 0 →
      ∃ t, exec (.sealedTileError ctx r) s = .next t ∧ findT (t.ctx ctx).recipes r = some { e with state := .dropped } ∧ t.groups = s.groups ∧
        t.mem = s.mem ∧ ∀ l ∈ vaLines s ctx e.tgt.va e.tgt.size, findT t.l2 l = none) ∧
    (∀ st core addr bad, ∃ t, exec (.softError st core addr bad) s = .next t ∧ t.mem = s.mem ∧ (∀ c, st ≠ .l1 → st ≠ .tables → (t.core c).lm = (s.core c).lm) ∧
      (s.errLog.length < 4096 → t.errLog = s.errLog ++ [{ what := rowOfStruct st, addr := addr, time := s.now }]) ∧
      (st ≠ .l1 → st ≠ .icache → getT 0 t.pcnt (0x100 + 2 * rowOfStruct st + b2n bad) =
        (getT 0 s.pcnt (0x100 + 2 * rowOfStruct st + b2n bad) + 1) % 2 ^ 64) ∧
      (bad = true → (st = .dram ∨ st = .l2 →
          ((∀ c ∈ s.ctxs, ∀ r ∈ c.2.recipes, r.2.state = .sealed → addr / 128 ∉ vaLines s c.1 r.2.tgt.va r.2.tgt.size) → addr / 32 ∈ t.badSec) ∧
          ∀ c r e, findT s.ctxs c ≠ none → findT (s.ctx c).recipes r = some e → addr / 128 ∈ vaLines s c e.tgt.va e.tgt.size →
            (e.state = .sealed → ∃ e', findT (t.ctx c).recipes r = some e' ∧ e'.state = .dropped) ∧
            (e.state = .recomputing → ∃ e', findT (t.ctx c).recipes r = some e' ∧ e'.again = true)) ∧
         (st = .local → addr / 16 ∈ (t.core core).badRow) ∧
        (st = .acc → addr ∈ (t.core core).badAcc)) ∧
      (bad = false → st ≠ .l1 → st ≠ .icache → t = { s with errLog := t.errLog, pcnt := t.pcnt }))

/-! ### Events of the engines -/

/-- R253 to R258, R261, R266: MATRIX_DISPATCH moves the head of the queue to its unit; a load fills the shadow plane, a swap exchanges the planes, a map and a
zeroing act at once, a stream passes over its region, a drain waits for its completion. Choices of the model that it rests on: logs 28, 33. -/
def Obligations.MatrixDispatches : Prop :=
  ∀ (s : State) (core : Nat) (c : MCmd) (rest : List MCmd),
    let m := (s.core core).mat
    let done := fun (m' : Matrix) => ∃ t, exec (.matrixDispatch core) s = .next t ∧ Dispatched s t core c m';
    m.queue = c :: rest →
    (c.op.paired = false → mayDispatch m c = true →
      match c.op with
      | .mldp a => done (if m.live then { m with plane0 := (loadPlane s core c.fmt a).1 } else { m with plane1 := (loadPlane s core c.fmt a).1 })
      | .mdup w => done { m with map := w }
      | .mswap => done { m with live := !m.live, gen := m.gen + 1 }
      | .mstr _ v addr geo zb => ∃ acc, done { m with acc := acc } ∧
          ∀ row col, col < 1024 → getT 0 acc (1024 * row + col) = streamed s core c.fmt v addr geo zb row col
      | .mzero geo => ∃ acc, done { m with acc := acc } ∧
          ∀ row col, col < 1024 → getT 0 acc (1024 * row + col) =
            let q := geoOf geo
            if q.arow ≤ row ∧ row < q.arow + q.rows ∧ 256 * q.cb ≤ col ∧ col < 256 * (q.cb + q.ncb + 1) then 0
            else getT 0 m.acc (1024 * row + col)
      | .mdrn .. => done m) ∧
    (c.op.paired = false → mayDispatch m c = false → exec (.matrixDispatch core) s = .next s) ∧
    (∀ a b, headPair s core = some (a, b) → sameStream a.op b.op = true → mayDispatch m a = true →
      mayDispatch (s.core (partner core)).mat b = true →
      ∃ t, exec (.matrixDispatch core) s = .next t ∧ (t.core core).mat.queue = rest ∧
        (t.core (partner core)).mat.queue = (s.core (partner core)).mat.queue.tail ∧ t.groups = s.groups ∧ t.mem = s.mem)

/-- R247, R249, R260 to R263, R82: MATRIX_COMPLETE ends the oldest command of a unit, ORs its flags into its group's flg, and writes the rows of a drain; a drain
into another package's slot waits for that package's answers (R269); MSTRP_PAIR_DISCARD removes the commands of a pair that cannot run. Choices of the model that it rests on: logs 32, 33, and log 100 for when a
partner core can queue no partner. -/
def Obligations.MatrixCompletes : Prop :=
  ∀ (s : State) (core k : Nat) (u : MUnit) (c : MCmd),
    let m := (s.core core).mat
    let quietLate := fun (k : Nat) =>
      (s.grp k).live = true ∧ (s.grp k).status ≠ .ended ∧ (s.ctx (s.grp k).place.ctx).late.length < 1023
    let gone := fun (t : State) => (t.core core).mat.run = m.run.eraseIdx k ∧ (t.grp c.grp).mcmd = (s.grp c.grp).mcmd - 1 ∧ EngineKept s t core;
    (m.run[k]? = some (u, c) → (∀ r ∈ m.run.take k, r.1 ≠ u) → c.sent = true → (∃ e ∈ s.slotWrites, e.2.core = core ∧ e.2.op = c.id) →
      (∀ plan pipe spill ix p, c.slot = some (plan, pipe, spill, ix) → s.pipe plan pipe = some p → p.remote = true) →
      exec (.matrixComplete core k) s = .next s) ∧
    (m.run[k]? = some (u, c) → (∀ r ∈ m.run.take k, r.1 ≠ u) → c.slot = none → c.sent = false →
      (∀ e ∈ s.slotWrites, ¬ (e.2.core = core ∧ e.2.op = c.id)) →
      (c.op.isDrain = false → ∃ t, exec (.matrixComplete core k) s = .next t ∧ gone t ∧ (t.core core).lm = (s.core core).lm ∧
        ((s.grp c.grp).live = true → (s.grp c.grp).status ≠ .ended → (t.grp c.grp).regs.flg = (s.grp c.grp).regs.flg ||| c.flags)) ∧
      (∀ vd geo vx vs out relu clr bias pipe, c.op = .mdrn vd geo vx vs out relu clr bias false pipe → Memory.wf (s.core core).lm = true →
        localHeld s core (drainRows vd geo out) = false → (∀ e ∈ s.groups, e.2.opn = none ∧ e.2.clo = none) →
        (geoOf geo).rows ≤ 512 → ((geoOf geo).ncb + 1) * blockBytes out ≤ 16 * (vd.toNat / 2 ^ 20) →
        ∃ t, exec (.matrixComplete core k) s = .next t ∧ gone t ∧
          (∀ i j, i < (geoOf geo).rows → j ≤ (geoOf geo).ncb →
            readBytes (t.core core).lm (vd.toNat % 2 ^ 20 + i * (16 * (vd.toNat / 2 ^ 20)) + j * blockBytes out) (blockBytes out) =
              (drainBlock m (s.core core).badAcc c.fmt (geoOf geo) out relu (drainIn s core c.fmt geo vx vs bias) i j).1) ∧
          (clr = true → ∀ row col, col < 1024 → (geoOf geo).arow ≤ row → row < (geoOf geo).arow + (geoOf geo).rows → 256 * (geoOf geo).cb ≤ col →
            col < 256 * ((geoOf geo).cb + (geoOf geo).ncb + 1) → getT 0 (t.core core).mat.acc (1024 * row + col) = 0))) ∧
    (∀ a rest, m.queue = a :: rest → a.op.paired = true → headPair s core = none → noCrewOn s (partner core) = true →
      ((s.core (partner core)).mat.queue.any fun x => x.op.paired && x.k == a.k) = false → quietLate a.grp →
      ∃ t, exec (.mstrpPairDiscard core) s = .next t ∧ (t.core core).mat.queue = m.queue.filter (fun x => x.id != a.id) ∧
        (t.grp a.grp).mcmd = (s.grp a.grp).mcmd - 1 ∧ ∀ j, (t.grp j).regs = (s.grp j).regs) ∧
    (∀ a b, m.queue.head? = some a → a.op.paired = true → headPair s core = some (a, b) → sameStream a.op b.op = false →
      quietLate a.grp → quietLate b.grp →
      ∃ t, exec (.mstrpPairDiscard core) s = .next t ∧ (t.core core).mat.queue = m.queue.filter (fun x => x.id != a.id) ∧
        (t.core (partner core)).mat.queue = (s.core (partner core)).mat.queue.filter (fun x => x.id != b.id) ∧
        ∀ j, (t.grp j).regs = (s.grp j).regs)

/-- R331 to R334, R337: a record is fetched and counts its first arrival, an instance starts, its sectors move, and it completes with its arrival. Choices of the model that it rests on: log 67. -/
def Obligations.RequestEngine : Prop :=
  ∀ (s : State) (core : Nat),
    let x := s.core core
    let e := x.eng
    (∀ (k : Kick) (ks : List Kick), e.kicks = k :: ks → atRest s core = false → e.find k.crew k.index = none → e.cache.length < 128 →
      blockInited s core (64 * k.index) = true →
      ((e.waiting ++ e.running).all fun i => !(i.crew == k.crew && i.index == k.index)) = true →
      ∃ t i, exec (.recordFetch core) s = .next t ∧
        OnlyCore { s with serial := s.serial + 1 } t core { x with eng := { e with
          kicks := ks, waiting := e.waiting ++ [i]
          cache := { crew := k.crew, index := k.index, bytes := i.recd } ::
            e.cache.filter fun r => !(r.crew == k.crew && r.index == k.index) } } ∧
        i.id = k.id ∧ i.index = k.index ∧ i.crew = k.crew ∧ i.grp = k.grp ∧ i.fmt = k.fmt ∧ i.need = recPreds i.recd - 1 ∧ i.left = [] ∧
        (x.badRow = [] → i.recd = (List.range 64).map fun n => readLocalFor s 0 core (64 * k.index + n))) ∧
    (∀ i, (e.waiting.find? fun i => i.need == 0) = some i → atRest s core = false → e.running.length < 16 → recOk s i.crew i.id i.recd = true →
      recRuns s core i = true → recKind i.recd ≠ 4 →
      ∃ t, exec (.instanceStart core) s = .next t ∧
        OnlyCore s t core { x with eng := { e with
          waiting := e.waiting.filter fun y => y.id != i.id
          running := e.running ++ [{ i with left := List.range (recSectors i.recd) }] } }) ∧
    (∀ i sec src dst, (e.running.find? fun y => y.id == i.id) = some i → sec ∈ i.left → (∀ a ∈ i.away, a.1 ≠ sec) →
      let ctx := (s.crew i.crew).ctx
      let j := sec / gsEsz i.recd
      let i' := if recKind i.recd = 1 ∨ (findT i.xs j).isSome = true then i else { i with xs := setT i.xs j (readIndex s core i.recd j) }
      secEnds s i' sec = (src, dst) → dst.isAway = false → (∀ va ∈ src.globals ++ dst.globals, ∃ p, findXlat x.tlb ctx va = some p) →
      endError s core ctx false src = none → endError s core ctx true dst = none →
      tileWait core ctx (.engine core i.id) src s = none → endHeld s core ctx dst = false → endBehind s core ctx src = false →
      endBehind s core ctx dst = false → banksRefuse x (src.sectors ++ dst.sectors) = false → recBar i.recd = false → NoChunks s → NoneArrived s →
      Memory.wf x.lm = true →
      (∀ a, dst = .loc a → ((x.mat.queue ++ x.mat.run.map Prod.snd).any fun m => m.reads.contains (a / 32)) = false) →
      ∃ t, exec (.sectorLand core i.id sec) s = .next t ∧
        (∀ j, (t.grp j).regs = (s.grp j).regs) ∧ (∀ y ∈ (t.core core).eng.running, y.id = i.id → sec ∉ y.left) ∧
        (∀ a, dst = .loc a → readBytes (t.core core).lm a 32 = (readEnd s core ctx (.engine core i.id) src).1 ∧ t.mem = s.mem ∧
          ∀ b, b < a ∨ a + 32 ≤ b → readByte (t.core core).lm b = readByte (s.core core).lm b) ∧
        (∀ va p, dst = .glob va → enginePlace s core ctx va = .ok p →
          t.mem = writeBytes s.mem (p.phys va) (keptBytes s (p.phys va) (readEnd s core ctx (.engine core i.id) src).1) ∧ ∀ c, (t.core c).lm = (s.core c).lm)) ∧
    (∀ i, (e.running.find? fun y => y.id == i.id) = some i → recKind i.recd ≤ 3 → i.left = [] → recBar i.recd = false → recSucc i.recd = [] →
      (e.held.filter fun h => h.isFor i.crew i.index) = [] → i.err < 16 → Memory.wf x.lm = true →
      (recArr i.recd = true → barrierHeld s 0 core (recBaddr i.recd) = false) →
      ∃ t, exec (.instanceComplete core i.id) s = .next t ∧ (t.core core).eng.running = e.running.filter (fun y => y.id != i.id) ∧ t.mem = s.mem ∧
        (recArr i.recd = false → t.groups = s.groups ∧ (t.core core).lm = x.lm) ∧
        (∀ b, recArr i.recd = true → blockInited s core (recBaddr i.recd) = true → (∀ e ∈ s.groups, e.2.opn = none ∧ e.2.clo = none) →
          BarrierIs (readLE x.lm (recBaddr i.recd) 16) b →
          BarrierIs (readLE (t.core core).lm (recBaddr i.recd) 16) (advanced (fewerArrivals 1 { b with err := b.err ||| i.err }))))

/-! ### Events of pipes, crews and plans -/

/-- R288, R289, R307, R309, R310: a posted commit or release takes effect once the operations it waits for have completed, a mode change reaches the
cores. Of a pipe whose counters another package holds (R322), the commit goes there and the producer's copy of the slot is cleared; the mode of one whose counters this
package holds goes to the producer's package. That these go as requests numbered 1 and 103, and that the producer keeps no copy, are choices of the model (log 30). -/
def Obligations.SlotEvents : Prop :=
  ∀ (s : State) (plan j n : Nat) (pl : Plan) (p : Pipe), findT s.plans plan = some pl → s.pipe plan j = some p →
    let r : SlotRef := ⟨decide (4096 ≤ n), n % 4096⟩
    let x := p.slot r
    (∀ c, x.state = .committing c → opsLive s x.waits = false → p.remote = false → headerHeld s pl.ctx p r = false →
      ((∀ k e, recipeAt (s.ctx pl.ctx) (p.tileAddr r) = some (k, e) → ¬ (r.spill = true ∧ p.rcp = true ∧ e.state = .sealed ∧ e.pinc = 0)) →
        ∃ t, exec (.pcmtTakeEffect plan j n) s = .next t ∧ SlotBecomes s t plan j p r { x with state := .committed, waits := [] } ∧
        PipeWoken s t plan j false ∧ RegsKept s t ∧ t = { s with plans := t.plans, groups := t.groups }) ∧
      (∀ k e, p.rcp = true → r.spill = true → recipeAt (s.ctx pl.ctx) (p.tileAddr r) = some (k, e) → findT (s.ctx pl.ctx).recipes k = some e →
        e.state = .sealed → e.pinc = 0 →
        ∃ t, exec (.pcmtTakeEffect plan j n) s = .next t ∧ SlotBecomes s t plan j p r { x with state := .committed, waits := [] } ∧
          findT (t.ctx pl.ctx).recipes k = some { e with state := .dropped })) ∧
    (∀ c dst, x.state = .committing c → opsLive s x.waits = false → p.remote = true → p.peer = some dst →
      mayLeave s dst 0x10 = true → slotDataAway s dst p.lkey r.num = false →
      ∃ t q, exec (.pcmtTakeEffect plan j n) s = .next t ∧ PipeAfter s t plan j q ∧ q.slot r = {} ∧
        Sent s t dst 0x10 (.linkReq p.lkey 1 c r.num) ∧ t.groups = s.groups ∧ t.mem = s.mem) ∧
    (∀ c, x.state = .committing c → opsLive s x.waits = true ∨ p.remote = false ∧ headerHeld s pl.ctx p r = true → exec (.pcmtTakeEffect plan j n) s = .next s) ∧
    (∀ c e e', x.state = .releasing c → opsLive s x.waits = false → p.links = [] → NoChunks s → s.hub = [] → NoneArrived s → s.badSec = [] →
      (p.rcp = true → recipeAt (s.ctx pl.ctx) (p.tileAddr r) = none) →
      walk s pl.ctx (p.hdrAddr r) = .ok e → e.write = true →
      let pa := e.phys (p.hdrAddr r)
      let m := writeBytes s.mem pa (keptBytes s pa (List.replicate 64 0))
      let bit := p.hdrAddr r + 39
      walk { s with mem := m } pl.ctx bit = .ok e' →
      ∃ t, exec (.crelTakeEffect plan j n) s = .next t ∧ SlotBecomes s t plan j p r {} ∧ PipeWoken s t plan j true ∧ RegsKept s t ∧
        t.mem = writeByte m (e'.phys bit) (readByte m (e'.phys bit) &&& 0xEF)) ∧
    (∀ c, x.state = .releasing c → opsLive s x.waits = true ∨ headerHeld s pl.ctx p r = true → exec (.crelTakeEffect plan j n) s = .next s) ∧
    (p.remote = true ∨ p.link = true ∧ p.relayed = p.depthMode → exec (.throttleRelay plan j) s = .next s) ∧
    (∀ dst, p.link = true → p.lside = true → p.peer = some dst → p.relayed ≠ p.depthMode →
      ∃ t, exec (.throttleRelay plan j) s = .next t ∧ PipeAfter s t plan j { p with relayed := p.depthMode } ∧
        Sent s t dst 0x10 (.linkReq p.lkey 103 0 (if p.depthMode then 1 else 0)) ∧ t.cores = s.cores ∧ t.groups = s.groups) ∧
    (p.link = false → ∃ t, exec (.throttleRelay plan j) s = .next t ∧ PipeAfter s t plan j { p with relayed := p.depthMode } ∧
      (∀ c, (t.core c).thr = if (s.core c).plan = some plan then
          (pl.pipes.mapIdx fun i q => !(q.link && q.lside) && q.prod == (s.core c).stage && (if i = j then q.depthMode else q.relayed)).any id
        else (s.core c).thr) ∧
      t = { s with plans := t.plans, cores := t.cores })

/-- R198, R293, R314 to R316, R340, R345, R388: a crew exits with its weight on the way to the sink, the sink adds it, a plan whose weight is back is
complete, and a named crew starts with names from the free list, but on no core that a move waits for (R312). Choices of the model that it rests on: logs 51, 60. -/
def Obligations.CrewEvents : Prop :=
  (∀ (s : State) (k : Nat) (c : Crew) (p : Plan), findT s.crews k = some c → mayExit s k c = true → findT s.plans c.plan = some p →
    (∀ g ∈ c.groups, (s.grp g).regs.lmask = 0) → (∀ x, ∀ f ∈ (s.ctx x).late, f.grp ∉ c.groups) →
    (∀ i ∈ (s.core c.core).eng.waiting, i.crew ≠ k) → getT 0 (s.core c.core).eng.discarded k = 0 →
    (∀ q ∈ p.pipes, ∀ r ∈ q.refs, (q.slot r).state ≠ .reserved k ∧ (q.slot r).state ≠ .taken k) →
    ∃ t q, exec (.crewExit k) s = .next t ∧ findT t.crews k = none ∧ (∀ g ∈ c.groups, (t.grp g).live = false) ∧
      findT t.plans c.plan = some q ∧ q.inflight = p.inflight ++ [(c.weight, 0)] ∧ q.nexc = p.nexc + (if 0 < c.reports then 1 else 0) ∧
      ((∀ r ∈ p.pipes, r.remote = false) → q.pipes = p.pipes) ∧ RegsKept s t ∧ ((s.core c.core).save = none → t.mem = s.mem) ∧
      (∀ n, (t.core n).lm = (s.core n).lm) ∧
      ((∀ e ∈ s.crews, e.1 ≠ k → ¬ (e.2.plan = c.plan ∧ e.2.stage = c.stage)) →
        ∀ j q, p.pipes[j]? = some q → q.prod = c.stage → q.link = false → PipeWoken s t c.plan j false)) ∧
  (∀ (s : State) (k : Nat) (c : Crew), findT s.crews k = some c → mayExit s k c = false → exec (.crewExit k) s = .next s) ∧
  (∀ (s : State) (plan w d : Nat) (p : Plan) (rest : List (Nat × Nat)), findT s.plans plan = some p → p.inflight = (w, d) :: rest →
    let p' := { p with sink := p.sink + w, disc := p.disc + d, inflight := rest };
    (p.sink + w ≠ p.tw → exec (.sinkArrival plan) s = .next { s with plans := setT s.plans plan p' }) ∧
    (p.sink + w = p.tw → writesOut s plan = true → exec (.sinkArrival plan) s = .next s) ∧
    (p.sink + w = p.tw → writesOut s plan = false →
      ∃ t, exec (.sinkArrival plan) s = .next t ∧ findT t.plans plan = none ∧ (∀ k, k ≠ plan → findT t.plans k = findT s.plans k) ∧
        (p.queue = none → t.mem = s.mem ∧ t.msix = s.msix ∧ ((∀ e ∈ s.groups, e.2.place.slice = none) → t.groups = s.groups)) ∧
        ∀ q, p.queue = some q → (s.ctx p.ctx).teardown = false → StatusWritten s t p.ctx p.stat q fun bs =>
          StatusIs bs (if p.disc + d = 0 then 1 else 2) p.tag (p.disc + d) p.revNo p.nexc p.nchf p.tdown p.forced p.dlk)) ∧
  (∀ (s : State) (k : Nat) (c : Crew), findT s.crews k = some c → c.waitName = true → c.saved = false → movePending s c.core = false → c.groups.Nodup →
    (freeList s).Nodup → c.groups.length ≤ (freeList s).length → s.denNext ≤ 1048576 →
    ∃ t, exec (.namedCrewStart k) s = .next t ∧ findT t.crews k = some { c with waitName := false } ∧
      (∀ j g, c.groups[j]? = some g →
        let i := (freeList s).getD j 0
        let gen := (s.denEntry i).gen
        (t.grp g).status = .waiting ∧ (t.grp g).place.name = BitVec.ofNat 8 s.pkg.pkg ++ BitVec.ofNat 24 i ++ gen ∧
        t.denEntry i = { gen := gen, state := .resident, ctx := (s.grp g).place.ctx, stage := (s.grp g).place.stage, grp := g }) ∧
      freeList t = (freeList s).drop c.groups.length ∧ (∀ g, g ∉ c.groups → t.grp g = s.grp g) ∧ RegsKept s t ∧
      t = { s with groups := t.groups, crews := t.crews, den := t.den, denNext := t.denNext, denFree := t.denFree }) ∧
  (∀ (s : State) (k : Nat) (c : Crew), findT s.crews k = some c → s.denNext ≤ 1048576 →
    (freeList s).length < c.groups.length ∨ (∃ e ∈ s.plans, ∃ m, e.2.move = some m ∧ c.core ∈ m.cores) → exec (.namedCrewStart k) s = .next s)

/-- R311 to R313, R315: once each period the balancer classifies the stages and counts the samples in which two adjacent ones were donor and receiver; with no move
pending it picks, of the pairs that have been so long enough and can give, the one with the highest occupancy over hi, ties to the lowest receiver and then the lowest
donor. When no donor crew remains on the moved cores, the new rectangles are published for a time at least a microsecond later; from that time the revision is one
higher on every core of the plan, and the receiver's crews start on the moved cores, each with the 2^20 units it borrows from the sink. Choices of the model that it rests on:
the time is exactly a microsecond later, and a sample waits for the occupancies of pipes whose counters another package holds (log 98). -/
def Obligations.BalancerEvents : Prop :=
  ∀ (s : State) (plan : Nat) (p : Plan), findT s.plans plan = some p →
    (p.bper ≠ 0 → p.nextSample ≤ s.now → (∀ q ∈ p.pipes, q.sampling = false) → p.asking = true ∨ (∀ q ∈ p.pipes, q.remote = true → q.peer = none) →
      ∃ t l m, exec (.balancerSample plan) s = .next t ∧ StreaksAre p l ∧
        findT t.plans plan = some { p with nextSample := p.nextSample + 1000 * p.bper, asking := false, streak := l, move := m } ∧
        (∀ k, k ≠ plan → findT t.plans k = findT s.plans k) ∧
        (p.forced = true ∨ p.move.isSome = true → m = p.move) ∧
        (p.forced = false → p.move = none → (∀ q ∈ p.pipes, 0 < q.hi) →
          (m = none → ∀ d r, ¬ MovePair p l d r) ∧
          ∀ v, m = some v → MovePair p l v.donor v.recv ∧ (∀ c, c ∈ v.cores ↔ OnEdge (p.stage v.donor) (p.stage v.recv) c) ∧
            ∀ d r o h o' h', MovePair p l d r → Fullest p v.recv o h → Fullest p r o' h' →
              o' * h < o * h' ∨ o' * h = o * h' ∧ (v.recv < r ∨ v.recv = r ∧ v.donor ≤ d))) ∧
    (p.bper ≠ 0 → p.nextSample ≤ s.now → p.asking = false → (∃ q ∈ p.pipes, q.remote = true ∧ q.peer ≠ none) →
      ∃ t q, exec (.balancerSample plan) s = .next t ∧ findT t.plans plan = some q ∧ q.asking = true ∧ q.nextSample = p.nextSample ∧ q.move = p.move ∧
        (∀ j r, p.pipes[j]? = some r → t.pipe plan j = some (if r.remote = true ∧ r.peer ≠ none then { r with sampling := true } else r)) ∧
        t.groups = s.groups ∧ t.mem = s.mem) ∧
    (p.bper = 0 ∨ s.now < p.nextSample ∨ p.asking = true ∧ (∃ q ∈ p.pipes, q.sampling = true) → exec (.balancerSample plan) s = .next s) ∧
    (∀ m, p.move = some m → p.nextRev = none →
      (donorStays s m = true → exec (.planRevisionPublish plan) s = .next s) ∧
      (donorStays s m = false → ∃ t at' stages, exec (.planRevisionPublish plan) s = .next t ∧ s.now + 1000 ≤ at' ∧
        t = { s with plans := setT s.plans plan { p with nextRev := some (at', stages) } } ∧ at' = s.now + 1000 ∧ stages.length = p.stages.length ∧
        (∀ i, i ≠ m.donor → i ≠ m.recv → stages[i]? = p.stages[i]?) ∧
        ∀ d r, p.stages[m.donor]? = some d → p.stages[m.recv]? = some r → m.donor ≠ m.recv → CanGive d r → d.x + d.w ≤ 16 → r.x + r.w ≤ 16 →
          (∀ c, c ∈ m.cores ↔ OnEdge d r c) →
          ∃ d' r', stages[m.donor]? = some d' ∧ stages[m.recv]? = some r' ∧ d' = { d with x := d'.x, y := d'.y, w := d'.w, h := d'.h } ∧
            r' = { r with x := r'.x, y := r'.y, w := r'.w, h := r'.h } ∧ (∀ c, InStage d' c ↔ InStage d c ∧ c ∉ m.cores) ∧
            ∀ c, InStage r' c ↔ InStage r c ∨ c ∈ m.cores)) ∧
    (∀ m at' stages, p.move = some m → p.nextRev = some (at', stages) →
      (s.now < at' ∨ donorStays s m = true → exec (.planRevisionApply plan) s = .next s) ∧
      (at' ≤ s.now → donorStays s m = false → m.cores.Nodup → ∃ t q, exec (.planRevisionApply plan) s = .next t ∧ findT t.plans plan = some q ∧
        q.stages = stages ∧ q.revNo = p.revNo + 1 ∧ q.nextRev = none ∧ q.move = none ∧ ((∀ r ∈ p.pipes, r.remote = false) → q.pipes = p.pipes) ∧
        (∀ c ∈ m.cores, (t.core c).plan = some plan ∧ (t.core c).stage = m.recv ∧
          ∀ n, n < (q.stage m.recv).ncrew → CrewStarted t plan q m.recv c n 1048576) ∧
        q.sink = p.sink - Int.ofNat (1048576 * (m.cores.length * (q.stage m.recv).ncrew)) ∧
        (∀ c, (s.core c).plan = some plan → (t.core c).revision = q.revNo.toNat) ∧ t.dlvs = s.dlvs))

/-- R317, R318, R320: a probe goes out and comes home, a pipe grows or a deadlock is declared, and a forced drain that has run for 200 µs ends the
crews that are left. Choices of the model that it rests on: logs 52, 53. -/
def Obligations.DeadlockAndDrainEvents : Prop :=
  ∀ (s : State) (plan j : Nat) (p : Plan) (q : Pipe), findT s.plans plan = some p → s.pipe plan j = some q →
    (∀ w visited, p.forced = false → q.remote = false → q.since + 1000 * p.pper ≤ s.now → q.probed + 1000 * p.pper ≤ s.now → w ∈ suspendedOn s plan j → w.2 + 1000 * p.pper ≤ s.now →
      (let front := ((suspendedOn s plan j).map fun w => waitedStage p (j, w.1)).eraseDups
       probeWalk s plan j p (p.pipes.length + front.length + 1) front [j] false = some (visited, true)) →
      ∃ t, exec (.shadowProbe plan j) s = .next t ∧ PipeAfter s t plan j
          { q with probe := some (visited.map fun i => (i, (p.pipes.getD i {}).ops)), probed := s.now } ∧ t = { s with plans := t.plans }) ∧
    (∀ seen, q.probe = some seen →
      let still := p.forced = false ∧ ∀ e ∈ seen, (p.pipes.getD e.1 {}).ops = e.2
      (¬ still → ∃ t, exec (.deadlockDeclare plan j) s = .next t ∧ PipeAfter s t plan j { q with probe := none } ∧ t = { s with plans := t.plans }) ∧
      (∀ g, still → growPipe s plan (seen.map Prod.fst) = some g → (p.pipes.getD g {}).opened < (p.pipes.getD g {}).ringCap →
        ∃ t r, exec (.deadlockDeclare plan j) s = .next t ∧ t.pipe plan g = some r ∧ r.opened = (p.pipes.getD g {}).opened + 1 ∧
          PipeWoken s t plan g true ∧ RegsKept s t ∧ t.mem = s.mem) ∧
      (∀ o v, still → (∀ g, growPipe s plan (seen.map Prod.fst) = some g → (p.pipes.getD g {}).ringCap ≤ (p.pipes.getD g {}).opened) →
        p.parent.getD plan = o → findT s.plans o = some v →
        ∃ t v', exec (.deadlockDeclare plan j) s = .next t ∧ findT t.plans o = some v' ∧ v'.dlk = true ∧
          (∀ n, p.parent = none → p.queue = some n → (s.ctx p.ctx).teardown = false → StatusWritten s t p.ctx p.stat n fun bs =>
            StatusIs bs 0x10 p.tag p.disc p.revNo p.nexc p.nchf p.tdown p.forced true))) ∧
    (p.forced = true → p.forcedAt + 200000 ≤ s.now →
      ∃ t, exec (.forcedDrainTimeout plan) s = .next t ∧
        ∀ e ∈ s.crews, e.2.plan = plan → e.2.saved = false → findT t.crews e.1 = none ∧ ∀ g ∈ (s.crew e.1).groups, (t.grp g).live = false) ∧
    (p.forced = false ∨ s.now < p.forcedAt + 200000 → exec (.forcedDrainTimeout plan) s = .next s)

/-! ### Events of the launch front end -/

/-- R341, R342, R348, R474, R475, R478: writes of the queue registers, of mcmd and of the window's base, and the ageing of a candidate; a tail write
waits behind a write through the window that its function has posted before (R477). Choices of the model that it rests on: logs 10, 59. -/
def Obligations.QueueEvents : Prop :=
  ∀ (s : State) (fn page : Nat),
    (∀ q, queueAt s fn page = some q →
      let x := s.queue q
      (∀ v, s.posted = [] → 2 ^ x.lsize < (v - x.qhead).toNat →
        exec (.qtailWrite fn page v) s = .next { s with queues := setT s.queues q { x with errs := (x.errs + 1) % 2 ^ 64 } }) ∧
      (∀ v, s.posted = [] → (v - x.qhead).toNat ≤ 2 ^ x.lsize → exec (.qtailWrite fn page v) s =
        .next { s with queues := setT s.queues q { x with qtail := v, since := if x.qhead = x.qtail then s.now else x.since } }) ∧
      (∀ v y c e es, s.posted = [y] → y.fn = fn → y.tail = none → y.pieces = e :: es → (s.func fn).ctx = some c → (s.ctx c).live = true →
        windowHeld s c e = true → exec (.qtailWrite fn page v) s =
          .next { s with posted := [y, { id := s.serial, fn := fn, tail := some (page, v) }], serial := s.serial + 1 }) ∧
      (∀ v, fn ≠ 0 ∨ x.en = true → exec (.qcfgWrite fn page v) s = .next s) ∧
      (∀ v, fn = 0 → x.en = false →
        let y : Queue := { x with
          age := (v.extractLsb' 48 16).toNat, ctx := (v.extractLsb' 42 6).toNat, level := (v.extractLsb' 39 3).toNat, en := v.getLsbD 38
          lsize := max 2 (min 16 (v.extractLsb' 0 5).toNat), since := s.now, aged := 0 }
        exec (.qcfgWrite fn page v) s = .next { s with queues := setT s.queues q y }) ∧
      (∀ v, exec (.registerWrite fn (.qbase page) v) s =
        .next (if fn = 0 then { s with queues := setT s.queues q { x with qbase := v.extractLsb' 0 64 } } else s))) ∧
    (queueAt s fn page = none → (∀ v, exec (.qtailWrite fn page v) s = .next s) ∧ (∀ v, exec (.qcfgWrite fn page v) s = .next s) ∧
      ∀ v, exec (.registerWrite fn (.qbase page) v) s = .next s) ∧
    (∀ c, (s.func fn).ctx = some c → (s.ctx c).live = false → queueAt s fn page = none) ∧
    (∀ c, (s.func 0).ctx = some c → (s.ctx c).live = true → page < 64 → queueAt s 0 page = some page) ∧
    (fn < 64 → ∀ v, exec (.registerWrite fn .mcmd v) s = .next { s with funcs := setT s.funcs fn { s.func fn with mcmd := v } } ∧
      ∃ w, exec (.registerWrite fn .wbase v) s = .next { s with funcs := setT s.funcs fn { s.func fn with wbase := w } } ∧
        ∀ i, i < 64 → w.getLsbD i = (decide (19 ≤ i) && v.getLsbD i)) ∧
    (∀ q, let x := s.queue q
      (x.en = true ∧ x.cand.isSome = true ∧ x.age ≠ 0 ∧ x.since + 1000 * x.age * (x.aged + 1) ≤ s.now →
        exec (.ageTick q) s = .next { s with queues := setT s.queues q { x with aged := x.aged + 1 } }) ∧
      (x.en = false ∨ x.cand = none ∨ x.age = 0 → exec (.ageTick q) s = .next s))

/-- R242, R319, R320, R341 to R346: packets at the head of a queue. A launch becomes a candidate or fails with a status; a drain starts and
is answered; an invalidation drops translations and ends once no access holds an old one. Choices of the model that it rests on: logs 40, 55, and 58 for the order of
the checks by which a launch with several faults fails. -/
def Obligations.PacketEvents : Prop :=
  ∀ (s : State) (q p : Nat),
    let x := s.queue q
    (headOf s q = .unreadable → ∃ t, exec (.launchPacket q) s = .next t ∧ t = { s with queues := t.queues, msix := s.msix ++ [queueOwner s q] } ∧
      t.queue q = { x with en := false, errs := (x.errs + 1) % 2 ^ 64 }) ∧
    (headOf s q = .packet p → field p 0 8 ≠ 2 → field p 0 8 ≠ 3 →
      (field p 448 64 % 32 ≠ 0 → ∃ t, exec (.launchPacket q) s = .next t ∧ t = { s with queues := t.queues } ∧
        t.queue q = { x with qhead := x.qhead + 1, cand := none, since := s.now, aged := 0, errs := (x.errs + 1) % 2 ^ 64 }) ∧
      (field p 448 64 % 32 = 0 → field p 0 8 ≠ 1 ∨ BadLaunch p → ∃ t, exec (.launchPacket q) s = .next t ∧ Answers s t q p 0x20) ∧
      (∀ o, field p 448 64 % 32 = 0 → field p 0 8 = 1 → ¬ BadLaunch p →
        ((s.ctx x.ctx).objects.find? fun o => o.1 == field p 384 64) = some o →
        (∀ e, planEntry s x.ctx (field p 384 64) o.2.1 (field p 332 20) = .error e → ∃ t, exec (.launchPacket q) s = .next t ∧ Answers s t q p e) ∧
        (∀ a, planEntry s x.ctx (field p 384 64) o.2.1 (field p 332 20) = .ok a →
          let l := launchOf s q p o.2.1 a o.2.2
          (∀ e, readPlan s l x.level = .error e → ∃ t, exec (.launchPacket q) s = .next t ∧ Answers s t q p e) ∧
          (∀ pl, readPlan s l x.level = .ok pl →
            exec (.launchPacket q) s = .next { s with queues := setT s.queues q { x with cand := some l } })))) ∧
    (headOf s q = .packet p → field p 0 8 = 2 → field p 448 64 % 32 = 0 →
      (field p 321 31 = 0 ∧ field p 704 320 = 0 ∧ field p 8 312 = 0 ∧ field p 512 192 = 0 ∧ field p 384 64 = 0 →
        ∃ t, exec (.drainPacket q) s = .next t ∧ Retired s t q ∧
          (field p 320 1 = 0 ∨ (∀ c, (s.ctx c).images = []) → StatusWritten s t x.ctx (field p 448 64) q
            (fun bs => StatusIs bs 3 (BitVec.ofNat 32 (field p 352 32)) 0 0 0 0 false false false)) ∧
          ∀ k pl, findT s.plans k = some pl → pl.ctx = x.ctx → pl.tag = BitVec.ofNat 32 (field p 352 32) →
            (field p 320 1 = 1 → ∃ pl', findT t.plans k = some pl' ∧ pl'.forced = true) ∧
            (field p 320 1 = 0 → ∀ j r, pl.pipes[j]? = some r → (r.link = true → r.lside = false) →
              (∀ o ∈ pl.pipes, o.cons = r.prod → o.link = true ∧ o.lside = false) → ∃ r', t.pipe k j = some r' ∧ r'.closedP = true)) ∧
      (field p 384 64 ≠ 0 ∨ field p 321 31 ≠ 0 ∨ field p 512 192 ≠ 0 ∨ field p 304 16 ≠ 0 →
        ∃ t, exec (.drainPacket q) s = .next t ∧ Answers s t q p 0x20)) ∧
    (headOf s q = .packet p → field p 0 8 = 3 → field p 448 64 % 32 = 0 →
      (field p 320 32 ≠ 0 ∧ field p 384 64 % 524288 = 0 ∧ field p 704 320 = 0 ∧ field p 8 312 = 0 ∧ field p 512 192 = 0 ∧ field p 352 32 = 0 →
        let lo := field p 384 64
        let len := 524288 * field p 320 32
        let spared := fun (e : Xlat) => !(e.ctx == x.ctx && decide (e.va < lo + len) && decide (lo < e.va + e.size));
        ∃ t, exec (.invalidatePacket q) s = .next t ∧
          t = { s with cores := t.cores, stlb := t.stlb, wcache := t.wcache, invals := t.invals, serial := s.serial + 1 } ∧
          findT t.invals s.serial = some { ctx := x.ctx, va := lo, len := len, queue := some q, stat := field p 448 64, tag := 0 } ∧
          (∀ c, t.core c = { s.core c with
            tlb := (s.core c).tlb.filter spared
            xfail := (s.core c).xfail.filter fun e => !(e.1 == x.ctx && (decide (lo ≤ 524288 * e.2.1) && decide (524288 * e.2.1 < lo + len))) }) ∧
          (∀ d, getT [] t.stlb d = (getT [] s.stlb d).filter spared) ∧
          ∀ d, ∀ e ∈ getT [] t.wcache d, e ∈ getT [] s.wcache d ∧
            (e.ctx = x.ctx → lo + len ≤ e.va / 2 ^ e.lo * 2 ^ e.lo ∨ e.va / 2 ^ e.lo * 2 ^ e.lo + 2 ^ e.lo ≤ lo)) ∧
      (field p 320 32 = 0 ∨ field p 384 64 % 524288 ≠ 0 ∨ field p 512 192 ≠ 0 ∨ field p 352 32 ≠ 0 →
        ∃ t, exec (.invalidatePacket q) s = .next t ∧ Answers s t q p 0x20)) ∧
    (∀ k v, findT s.invals k = some v →
      (staleAccess s v = true → exec (.invalidationComplete k) s = .next s) ∧
      (staleAccess s v = false → ∃ t, exec (.invalidationComplete k) s = .next t ∧ findT t.invals k = none ∧
        ∀ n, v.queue = some n → Retired s t n ∧
          StatusWritten s t (s.queue n).ctx v.stat n fun bs => StatusIs bs 4 v.tag 0 0 0 0 false false false))

/-- R305, R314, R345, R348 to R350: a selection with one candidate, a host launch. With its cores free and its pipes placed, the plan begins: its crews
start on its cores with their weights, and the packet is retired; without places it fails. Where one core holds crews of lower priority, they are
saved and the core is held. Choices of the model that it rests on: logs 29, 58, 61. -/
def Obligations.LaunchSelection : Prop :=
  ∀ (s : State) (places : List PipePlace), (∀ e ∈ s.plans, e.2.move = none) → (∀ e ∈ s.cores, e.2.launches = []) →
    (candidatesOf s = [] → exec (.launchSelect places) s = .next s) ∧
    ∀ c, candidatesOf s = [c] → c.id < 64 → c.parent = none →
      (∀ p, mayDispatchTo s c = true → readPlan s c.launch c.pri = .ok p →
        (placePipes p.ctx p.pipes places s = none → ∃ t, exec (.launchSelect places) s = .next t ∧ Retired s t c.id ∧ t.plans = s.plans ∧
          StatusWritten s t (s.queue c.id).ctx c.launch.stat c.id fun bs => StatusIs bs 0x26 c.launch.tag 0 0 0 0 false false false) ∧
        (∀ pipes rest u, placePipes p.ctx p.pipes places s = some (pipes, rest, u) →
          ∃ t q, exec (.launchSelect places) s = .next t ∧ findT t.plans s.serial = some q ∧ q.stages = p.stages ∧ q.pipes = pipes ∧ q.tw = p.tw ∧
            q.sink = 0 ∧ q.disc = 0 ∧ q.revNo = 0 ∧ q.tag = c.launch.tag ∧ q.queue = some c.id ∧ q.ctx = p.ctx ∧ Retired s t c.id ∧
            (p.stages.Pairwise (fun a b => a.meets b = false) → (∀ st ∈ p.stages, st.x + st.w ≤ 16) →
              (∀ m i core n, (placedCrews p)[m]? = some (i, core, n) →
                CrewStarted t s.serial p i core n (startWeight p m) ∧ (t.core core).plan = some s.serial ∧ (t.core core).stage = i)))) ∧
      (∀ k va, c.cores = [k] → mayDispatchTo s c = false → mayPreempt s c k = true → (s.core k).save = none → (s.core k).heldFor = none →
        poolPlace (s.ctx (s.core k).ctx) (fullSize s k) = some va →
        ∃ t v, exec (.launchSelect places) s = .next t ∧ (t.core k).save = some v ∧ v.since = s.now ∧ v.full = false ∧ v.move = false ∧
          (t.core k).heldFor = some c.id)

/-! ### Events of saves, names and deliveries -/

/-- R349, R415, R416, R419, R420: the hint deadline stops the groups that have not parked, a save that is ready puts the crews of its core into an image,
and an image is restored with its groups at the lowest slots. Choices of the model that it rests on: logs 54, 66. -/
def Obligations.SaveAndRestore : Prop :=
  ∀ (s : State) (core : Nat),
    let c := s.core core
    (∀ v, c.save = some v → v.move = false → v.full = false → v.since + v.limit ≤ s.now → atRest s core = false →
      NoChunks s → ∃ t, exec (.hintDeadline core) s = .next t ∧ (t.core core).save = some { v with full := true } ∧ RegsKept s t ∧ t.mem = s.mem ∧
        ∀ k ∈ coreGroups s core, stoppable (s.grp k) = true →
          let g := s.grp k
          let between := (g.status = .waiting ∨ g.status = .issuing ∧ g.clause = none) ∧ g.entry = .header;
          (t.grp k).status = .suspended .stopped ∧ (¬ between → (t.grp k).pc = g.pc) ∧
            ∀ x, between → locate s g = .ok (x, true) → (t.grp k).pc = x.first) ∧
    (∀ v, c.save = some v → v.full = false → v.move = true ∨ s.now < v.since + v.limit → exec (.hintDeadline core) s = .next s) ∧
    (∀ v im, c.save = some v → ((s.ctx c.ctx).images.find? fun m => m.id == v.image) = some im →
      (saveReady s core = false → exec (.saveComplete core) s = .next s) ∧
      (saveReady s core = true → NoChunks s → (∀ p, findT s.plans im.plan = some p → p.forced = false) →
        ∃ t im', exec (.saveComplete core) s = .next t ∧ (t.core core).save = none ∧ (t.core core).plan = none ∧ (t.core core).mat = {} ∧
          (t.core core).eng = {} ∧ im' ∈ (t.ctx c.ctx).images ∧ im'.id = im.id ∧ im'.va = im.va ∧ im'.done = true ∧ im'.time = s.now ∧
          im'.crews = (residents s core).map Prod.fst ∧
          (∀ e ∈ residents s core, ∃ cr, findT t.crews e.1 = some cr ∧ cr.saved = true ∧ cr.weight = (s.crew e.1).weight) ∧
          ∀ k ∈ coreGroups s core, (s.crew (s.grp k).place.crew).waitName = false → (t.grp k).status = .saved ∧ (t.grp k).image.isSome = true)) ∧
    (∀ ctx im p, ((allImages s).find? fun e => e.2.id == im.id) = some (ctx, im) → findT s.plans im.plan = some p →
      (im.into = none ∧ restoresTo s im core = false ∨ (∃ o, im.into = some o ∧ o ≠ core) → exec (.restore im.id core) s = .next s) ∧
      (im.into = none → restoresTo s im core = true →
        ∃ t, exec (.restore im.id core) s = .next t ∧ t = { s with ctxs := t.ctxs, den := t.den } ∧ { im with into := some core } ∈ (t.ctx ctx).images ∧
          ∀ k ∈ im.groups, ∀ e, (s.grp k).image.isSome = true → findT s.den (nameIndex (s.grp k).place.name) = some e → e.grp = k → e.state ≠ .free →
            (t.denEntry (nameIndex (s.grp k).place.name)).state = .moving) ∧
      (im.into = some core → (s.core (partner core)).mat.queue = [] → im.groups.Nodup → (∀ e ∈ s.plans, e.2.move = none) →
        (∀ c, (s.ctx c).teardown = false) →
        ∃ t, exec (.restore im.id core) s = .next t ∧ (∀ k ∈ im.crews, ∀ cr, findT s.crews k = some cr →
            ∃ cr', findT t.crews k = some cr' ∧ cr'.saved = false ∧ cr'.core = core ∧ cr'.weight = cr.weight) ∧
          t.mem = s.mem ∧ (t.core core).plan = some im.plan ∧ (t.core core).stage = im.stage ∧
          (∀ m ∈ (t.ctx ctx).images, m.id ≠ im.id) ∧
          ∀ n k va, (im.groups.filter fun g => (s.grp g).image.isSome)[n]? = some k → (s.grp k).image = some va →
            RestoredFrom s t k va ∧ (t.grp k).place.core = core ∧
            (t.grp k).place.lane = n / (p.stage im.stage).perLane ∧ (t.grp k).place.slot = n % (p.stage im.stage).perLane))

/-- R360, R361, R389, R391 to R395: a delivery at its Den is dropped, sent back, forwarded or written to an image; a forwarded one lands; one sent back is sent
again; and its sender is told. None lands while the group's STG has made a part of its stores (R396). Choices of the model that it rests on: logs 49, 72, 81, 84,
85. -/
def Obligations.DeliveryEvents : Prop :=
  ∀ (s : State) (k : Nat) (d : Delivery), findT s.dlvs k = some d →
    let i := nameIndex d.name
    let e := s.denEntry i
    let fits := hasReg (s.grp e.grp).place.shape d.vt.toNat = true ∧ tagOf (s.grp e.grp).place.shape d.vt = d.tag
    (d.stage = .toDen → FirstOfLink s k d →
      (staleName s d.name = true → ∃ t, exec (.deliveryArrive k) s = .next t ∧ DenOnly s t ∧ t.den = s.den ∧
        findT t.dlvs k = some { d with stage := .answered 1 } ∧ getT 0 t.pcnt 0x10000 = (getT 0 s.pcnt 0x10000 + 1) % 2 ^ 64) ∧
      (staleName s d.name = false → ¬ fits → ∃ t, exec (.deliveryArrive k) s = .next t ∧ DenOnly s t ∧ t.den = s.den ∧
        findT t.dlvs k = some { d with stage := .answered 2 } ∧ getT 0 t.pcnt 0x10001 = (getT 0 s.pcnt 0x10001 + 1) % 2 ^ 64) ∧
      (staleName s d.name = false → fits → e.state = .moving → d.spkg = s.pkg.pkg → ∃ t, exec (.deliveryArrive k) s = .next t ∧ DenOnly s t ∧
        t.den = s.den ∧ findT t.dlvs k = some { d with stage := .refused s.now } ∧ getT 0 t.pcnt 0x10002 = (getT 0 s.pcnt 0x10002 + 1) % 2 ^ 64 ∧
        ∃ r ∈ t.refused, r.1 = i ∧ r.2.1 = d.sender * 256 + d.spkg ∧ r.2.2 = d.back) ∧
      (staleName s d.name = false → fits → e.state = .resident ∨ e.state = .saved → s.refused = [] → 255 ≤ e.fwd →
        exec (.deliveryArrive k) s = .next s) ∧
      (staleName s d.name = false → fits → e.state = .resident → s.refused = [] → e.fwd < 255 → ∃ t, exec (.deliveryArrive k) s = .next t ∧ DenOnly s t ∧
        findT t.dlvs k = some { d with stage := .forwarded s.fresh } ∧ t.denEntry i = { e with fwd := e.fwd + 1 } ∧
        ∀ j, j ≠ i → t.denEntry j = s.denEntry j) ∧
      (staleName s d.name = false → fits → e.state = .saved → s.refused = [] → e.fwd < 255 → Undisturbed s → d.words.length ≤ 32 →
        ∃ t, exec (.deliveryArrive k) s = .next t ∧ Landed s t e.grp d.vt d.words ∧ findT t.dlvs k = some { d with stage := .answered 0 })) ∧
    (∀ n, d.stage = .forwarded n → (∀ o ∈ s.dlvs, ∀ m, o.2.name = d.name → o.2.stage = .forwarded m → n ≤ m) →
      (e.gen = nameGen d.name → (s.grp e.grp).regs.stored ≠ 0 → exec (.deliveryLand k) s = .next s) ∧
      (e.gen = nameGen d.name → (s.grp e.grp).regs.stored = 0 → Undisturbed s → d.words.length ≤ 32 →
        ∃ t, exec (.deliveryLand k) s = .next t ∧ Landed s t e.grp d.vt d.words ∧ findT t.dlvs k = some { d with stage := .answered 0 } ∧
          (t.denEntry i).fwd = e.fwd - 1) ∧
      (e.gen ≠ nameGen d.name → ∃ t, exec (.deliveryLand k) s = .next t ∧ t = { s with dlvs := t.dlvs } ∧
        findT t.dlvs k = some { d with stage := .answered 0 })) ∧
    (∀ since, d.stage = .refused since → (∀ o ∈ s.dlvs, o.1 < k → sameLink o.2 d = true → ∀ x, o.2.stage ≠ .refused x) →
      (s.now < since + 500 → exec (.deliveryResend k) s = .next s) ∧
      (since + 500 ≤ s.now → namePkg d.name = s.pkg.pkg →
        exec (.deliveryResend k) s = .next { s with dlvs := setT s.dlvs k { d with stage := .toDen } }) ∧
      (since + 500 ≤ s.now → namePkg d.name ≠ s.pkg.pkg → ∃ t, exec (.deliveryResend k) s = .next t ∧
        findT t.dlvs k = some { d with stage := .away } ∧ t.groups = s.groups ∧
        Sent s t (namePkg d.name) 0x08 (.regput d.name d.vt.toNat (tagCode d.tag) d.words k d.sender))) ∧
    (∀ o, d.stage = .answered o →
      (d.spkg = s.pkg.pkg → (s.grp d.sender).image = none → ∃ t, exec (.deliveryAck k) s = .next t ∧ findT t.dlvs k = none ∧
        (t.grp d.sender).dlv = (s.grp d.sender).dlv - 1 ∧ t.mem = s.mem ∧ (∀ j, j ≠ d.sender → t.grp j = s.grp j) ∧
        (t.grp d.sender).regs = (if o = 0 ∨ (s.grp d.sender).live = false ∨ (s.grp d.sender).status = .ended then (s.grp d.sender).regs
          else { (s.grp d.sender).regs with flg := (s.grp d.sender).regs.flg ||| 256 }) ∧
        (o = 1 ∨ o = 2 → getT 0 t.ctr (ctrKey d.sctx d.score (0x202 + o)) = (getT 0 s.ctr (ctrKey d.sctx d.score (0x202 + o)) + 1) % 2 ^ 64)) ∧
      (d.spkg ≠ s.pkg.pkg → ∃ t, exec (.deliveryAck k) s = .next t ∧ findT t.dlvs k = none ∧ t.groups = s.groups ∧
        Sent s t d.spkg 0x09 (.denAck d.back o)))

/-- R388, R399, R400: a name is released once its group's deliveries are acknowledged, its watchers poisoned, one that is moving once it has moved; and the watchdog poisons holds that have
stood too long. Choices of the model that it rests on: log 45. -/
def Obligations.ReleasesAndWatchdog : Prop :=
  ∀ s : State,
    (∀ i e cause, findT s.den i = some e → e.ending = some cause →
      ((s.grp e.grp).dlv ≠ 0 → exec (.nameRelease i) s = .next s) ∧
      ((s.grp e.grp).dlv = 0 → (∀ w ∈ e.watchers, watcherMoving s w = false ∧ w.pkg = s.pkg.pkg ∧ (s.grp w.grp).image = none) →
        ∃ t, exec (.nameRelease i) s = .next t ∧ t.denEntry i = { gen := e.gen + 1 } ∧ t.denFree = s.denFree ++ [i] ∧
          (∀ w ∈ e.watchers, Poisoned s t w.grp w.reg cause) ∧ (∀ k, (∀ w ∈ e.watchers, w.grp ≠ k) → t.grp k = s.grp k) ∧
          RegsKept s t ∧ t.mem = s.mem) ∧
      ((s.grp e.grp).dlv = 0 → (∃ w ∈ e.watchers, watcherMoving s w = true) →
        (∀ w ∈ e.watchers, watcherMoving s w = false → w.pkg = s.pkg.pkg ∧ (s.grp w.grp).image = none) →
        ∃ t, exec (.nameRelease i) s = .next t ∧ t.denEntry i = { e with watchers := e.watchers.filter (watcherMoving s) } ∧ t.denFree = s.denFree ∧
          (∀ w ∈ e.watchers, watcherMoving s w = false → Poisoned s t w.grp w.reg cause) ∧ RegsKept s t ∧ t.mem = s.mem)) ∧
    (GroupsRise s → (∀ e ∈ s.groups, e.2.image = none ∧ ∀ h ∈ e.2.holds, h.1 < 128) → ∃ t, exec .holdWatchdog s = .next t ∧ RegsKept s t ∧ t.mem = s.mem ∧
      ∀ k r,
        let g := s.grp k
        let h := g.holdOf r
        (g.live = true → h.limit ≠ 0 → h.held = true → h.watched = false → h.since + h.limit ≤ s.now → Poisoned s t k r 3) ∧
        (g.live = false ∨ (∀ e ∈ g.holds, e.2.limit = 0) → t.grp k = g))

/-! ### Events of recipes, the fabric and the host window -/

/-- R425, R426, R429, R432 to R435, R438: a recomputation starts its slice with the target's address, size and argument, and the addresses and sizes of its sources;
its end seals the tile again, or runs the slice a second time; its failure leaves the tile FAILED and squashes the chunks that wait; a slice whose tile is no longer
being recomputed only ends. Every slice that has run is counted (R374). Choices of the model that it rests on: logs 17, 44. -/
def Obligations.Recomputation : Prop :=
  ∀ (s : State) (core level : Nat),
    (∀ ctx r e, findT (s.ctx ctx).recipes r = some e →
      (e.state ≠ .dropped ∨ (core, level) ∉ e.wants ∨ sliceOn s core level ≠ none → exec (.recomputeStart ctx r core level) s = .next s) ∧
      (e.state = .dropped → (core, level) ∈ e.wants → level < 4 → sliceOn s core level = none → e.src.length ≤ 4 →
        ∃ t, exec (.recomputeStart ctx r core level) s = .next t ∧
          findT (t.ctx ctx).recipes r = some { e with state := .recomputing, wants := [], again := false, byp := false } ∧
          (∀ k, k ≠ s.serial → t.grp k = s.grp k) ∧ t.serial = s.serial + 1 ∧
          let g := t.grp s.serial
          g.live = true ∧ g.place.core = core ∧ g.place.lane = 252 + level ∧ g.place.ctx = ctx ∧
          (∃ sl, g.place.slice = some sl ∧ sl.rcp = r ∧ sl.level = level ∧ sl.va = e.tgt.va ∧ sl.size = e.tgt.size) ∧
          (∀ sh entry, sliceHeader t ctx e.slice = .ok (sh, entry) → g.status = .waiting ∧ g.pc = BitVec.ofNat 48 entry ∧ g.place.shape = sh ∧
            (∀ n, n < 32 → g.elem 0 n = BitVec.ofNat 32 e.tgt.va ∧ g.elem 1 n = BitVec.ofNat 32 (e.tgt.va / 2 ^ 32 % 2 ^ 32) ∧
              g.elem 2 n = BitVec.ofNat 32 e.tgt.size ∧ g.elem 3 n = e.arg) ∧
            ∀ k x n, e.src[k]? = some x → n < 32 → g.elem (BitVec.ofNat 7 (4 + 3 * k)) n = BitVec.ofNat 32 x.va ∧
              g.elem (BitVec.ofNat 7 (5 + 3 * k)) n = BitVec.ofNat 32 (x.va / 2 ^ 32 % 2 ^ 32) ∧ g.elem (BitVec.ofNat 7 (6 + 3 * k)) n = BitVec.ofNat 32 x.size) ∧
          (∀ cls cause, sliceHeader t ctx e.slice = .error (cls, cause) →
            g.status = .ended ∧ ∃ f, g.pend = some f ∧ f.cls = cls ∧ f.cause = cause))) ∧
    (∀ k g sl e, sliceOn s core level = some (k, g) → g.place.slice = some sl → g.status = .ended → k < s.serial →
      findT (s.ctx g.place.ctx).recipes sl.rcp = some e →
      let ctx := g.place.ctx
      let lines := vaLines s ctx e.tgt.va e.tgt.size
      let counted := fun (t : State) => getT 0 t.ctr (ctrKey ctx core 0x205) = (getT 0 s.ctr (ctrKey ctx core 0x205) + 1) % 2 ^ 64
      (g.pend = none → e.state = .recomputing → e.again = false → (s.ctx ctx).quota = 0 →
        ∃ t e', exec (.recomputeComplete core level) s = .next t ∧ findT (t.ctx ctx).recipes sl.rcp = some e' ∧ (t.grp k).live = false ∧
          e'.rcnt = min (e.rcnt + 1) (2 ^ 32 - 1) ∧ e'.stime = (s.ctx ctx).stime + 1 ∧ (t.ctx ctx).stime = (s.ctx ctx).stime + 1 ∧
          e'.users = e.waits ∧ e'.waits = [] ∧ (e.byp = true → e'.state = .dropped) ∧
          (e'.state = .sealed ∧ (∀ l ∈ lines, (findT t.l2 l).isSome = true) ∨ e'.state = .dropped ∧ ∀ l ∈ lines, findT t.l2 l = none) ∧
          counted t ∧ RegsKept s t ∧ t.mem = s.mem) ∧
      (g.pend = none → e.state = .recomputing → e.again = true →
        ∃ t, exec (.recomputeComplete core level) s = .next t ∧ (t.grp k).live = false ∧ (t.grp s.serial).live = true ∧ counted t ∧
          findT (t.ctx ctx).recipes sl.rcp =
            some { e with state := .recomputing, wants := [], again := false, byp := false, rcnt := min (e.rcnt + 1) (2 ^ 32 - 1) }) ∧
      (e.state ≠ .recomputing →
        ∃ t, exec (if g.pend = none then .recomputeComplete core level else .recomputeFail core level) s = .next t ∧ (t.grp k).live = false ∧
          counted t ∧ t.ctxs = s.ctxs ∧ t.mem = s.mem ∧ RegsKept s t) ∧
      (∀ f, g.pend = some f → e.state = .recomputing → exec (.recomputeComplete core level) s = .next s ∧
        ∃ t, exec (.recomputeFail core level) s = .next t ∧ (t.grp k).live = false ∧ counted t ∧
          findT (t.ctx ctx).recipes sl.rcp = some { e with
            state := .failed, fault := (f.cls, f.cause), finfo := BitVec.ofNat 32 (f.pc.toNat - (e.slice + 64)), wants := [], again := false, waits := []
            users := [], kept := [] } ∧
          ∀ w ∈ tileChunks s ctx e.tgt, w.2 ≠ 0 → ∀ c ∈ (t.grp w.1).chunks, c.no < w.2))

/-- R463, R465 to R469, R472, R485, R486: what a port does with a packet: it drops a header it cannot correct and a reserved kind, passes on what is for another
package or keeps it until its hop has a count, acknowledges a second copy without effect, denies a foreign tenant, keeps what must wait for an earlier packet (R284, R366,
R395, R398), and applies the rest (R179, R191, R365, R391, R451); the buffer is free again once the packet has left it. Choices of the model that it rests on: logs
8, 27, 36, 46; that a packet whose kind has an order waits for one before it that has not come: log 97. -/
def Obligations.FabricPackets : Prop :=
  ∀ (s : State) (port : Nat) (p : Packet), port < 30 → (s.port port).up = true →
    let x := s.port port
    let seq := BitVec.ofNat 32 p.seq
    let freed := s.freed ++ [(port, p.vc)]
    let h := nextHop s p
    let passes := p.hdrErr = 0 ∧ badKind p = false ∧ bodyKind p.body = p.kind ∧ inPod s p.src = true ∧ inPod s p.dst = true
    let new := (s.source p.src).applied seq = false ∧ (seq - (s.source p.src).low).toNat ≤ 64
    (2 ≤ p.hdrErr → ∃ t, exec (.fabricPacketReceive port p) s = .next t ∧ HeaderNoted s t port true ∧
      t = { s with ports := t.ports, pcnt := t.pcnt, errLog := t.errLog, freed := freed }) ∧
    (p.hdrErr = 0 → badKind p = true → exec (.fabricPacketReceive port p) s =
      .next { s with ports := setT s.ports port { x with badkind := (x.badkind + 1) % 2 ^ 64 }, freed := freed }) ∧
    (p.hdrErr = 1 → badKind p = true → ∃ t, exec (.fabricPacketReceive port p) s = .next t ∧ HeaderNoted s t port false ∧
      (t.port port).badkind = (x.badkind + 1) % 2 ^ 64 ∧ t = { s with ports := t.ports, pcnt := t.pcnt, errLog := t.errLog, freed := freed }) ∧
    (passes → p.dst ≠ s.pkg.pkg →
      (hopOpen s h = true → (∀ e ∈ s.transit, nextHop s e.2 ≠ h) →
        ∃ t, exec (.fabricPacketReceive port p) s = .next t ∧ t.outbox = s.outbox ++ [(h.1, { p with vc := h.2 })] ∧
          (t.port h.1).buf h.2 = (s.port h.1).buf h.2 - 1 ∧ t = { s with outbox := t.outbox, ports := t.ports, freed := freed }) ∧
      (hopOpen s h = false ∨ (∃ e ∈ s.transit, nextHop s e.2 = h) →
        exec (.fabricPacketReceive port p) s = .next { s with transit := s.transit ++ [(some (port, p.vc), p)] })) ∧
    (passes → p.dst = s.pkg.pkg → p.kind ≠ 6 →
      ((s.source p.src).applied seq = true → ∃ t, exec (.fabricPacketReceive port p) s = .next t ∧ Settled s t p (.ack p.seq) ∧
        getT 0 t.pcnt 0 = (getT 0 s.pcnt 0 + 1) % 2 ^ 64 ∧
        t = { s with pcnt := t.pcnt, outbox := t.outbox, transit := t.transit, ports := t.ports, parked := t.parked, freed := freed }) ∧
      (new → mustWait s p = false → (s.ctx p.ctx).live = false ∨ (s.ctx p.ctx).tenant ≠ some p.tenant →
        ∃ t, exec (.fabricPacketReceive port p) s = .next t ∧ Settled s t p (.denial p.seq) ∧
          getT 0 t.tenants p.tenant = (getT 0 s.tenants p.tenant + 1) % 2 ^ 64 ∧
          (p.kind ≠ 5 → t = { s with
            tenants := t.tenants, sources := t.sources, outbox := t.outbox, transit := t.transit, ports := t.ports, parked := t.parked, freed := freed })) ∧
      (new → mustWait s p = true → (∀ q ∈ s.parked, ¬ (q.src = p.src ∧ q.seq = p.seq)) →
        exec (.fabricPacketReceive port p) s = .next { s with parked := s.parked ++ [p], freed := freed })) ∧
    (Arrives s port p →
      (∀ grp load thr va size e, p.body = .rld grp load thr va size → RemotePage s p.ctx va false e → s.badSec = [] →
        ∃ t, exec (.fabricPacketReceive port p) s = .next t ∧ Settled s t p (.ack p.seq) ∧
          Sent s t p.src 5 (.response grp load thr va (readBytes s.mem (e.phys va) size) false) ∧ t.mem = s.mem ∧ t.groups = s.groups) ∧
      (∀ va bs grp pc thrs e, p.body = .rst va bs grp pc thrs → RemotePage s p.ctx va true e → NoChunks s → NoneArrived s →
        ∃ t, exec (.fabricPacketReceive port p) s = .next t ∧ Settled s t p (.ack p.seq) ∧
          t.mem = writeBytes s.mem (e.phys va) (keptBytes s (e.phys va) bs) ∧ RegsKept s t) ∧
      (∀ va op v fmt grp pc thrs e, p.body = .rred va op v fmt grp pc thrs → RemotePage s p.ctx va true e → (p.src, p.seq) ∉ s.reds →
        (halvesOf op = none → NoneArrived s → ∃ t, exec (.fabricPacketReceive port p) s = .next t ∧ Settled s t p (.ack p.seq) ∧ RegsKept s t ∧
          t.mem = writeBytes s.mem (e.phys va) (keptBytes s (e.phys va)
            (leBytes op.bytes (applyOp op fmt (readLE s.mem (e.phys va) op.bytes) v.toNat 0)))) ∧
        (halvesOf op ≠ none → (∀ q ∈ s.parked, ¬ (q.src = p.src ∧ q.seq = p.seq)) →
          ∃ t f, exec (.fabricPacketReceive port p) s = .next t ∧ t.flights = s.flights ++ [f, { f with half := 1 }] ∧ f.half = 0 ∧
            f.op = .red op v fmt ∧ f.pa = e.phys va ∧ f.arrived = some s.serial ∧ f.orig = some (p.src, p.seq) ∧ t.reds = s.reds ++ [(p.src, p.seq)] ∧
            t.parked = s.parked ++ [p] ∧ t.mem = s.mem ∧ t.groups = s.groups ∧ t.sources = s.sources)) ∧
      (∀ va op v fmt grp pc thrs, p.body = .rred va op v fmt grp pc thrs → (p.src, p.seq) ∈ s.reds →
        (∀ f ∈ s.flights, f.orig ≠ some (p.src, p.seq)) →
        ∃ t, exec (.fabricPacketReceive port p) s = .next t ∧ Settled s t p (.ack p.seq) ∧ t.reds = s.reds.erase (p.src, p.seq) ∧ t.mem = s.mem ∧
          t.groups = s.groups) ∧
      (∀ grp load thr va op v w fmt pc e, p.body = .ratom grp load thr va op v w fmt pc → RemotePage s p.ctx va true e → NoChunks s →
        NoneArrived s → s.badSec = [] →
        let old := readLE s.mem (e.phys va) op.bytes;
        ∃ t, exec (.fabricPacketReceive port p) s = .next t ∧ Settled s t p (.ack p.seq) ∧ RegsKept s t ∧
          t.mem = writeBytes s.mem (e.phys va) (keptBytes s (e.phys va) (leBytes op.bytes (applyOp op fmt old v.toNat w.toNat))) ∧
          Sent s t p.src 5 (.response grp load thr va (leBytes op.bytes old) false)) ∧
      (∀ name vt tag ws k grp, p.body = .regput name vt tag ws k grp →
        ∃ t, exec (.fabricPacketReceive port p) s = .next t ∧ Settled s t p (.ack p.seq) ∧ t.groups = s.groups ∧ t.mem = s.mem ∧
          ∃ d, findT t.dlvs s.serial = some d ∧ d.name = name ∧ d.vt.toNat = vt % 128 ∧ d.words = ws ∧ d.sender = grp ∧ d.spkg = p.src ∧ d.back = k ∧
            d.sctx = p.ctx ∧ d.ictx = p.ictx ∧ d.stage = .toDen))

/-- R54, R462 to R465, R471, R472: the end-to-end timer resends a packet eight times and then gives it up, one of a linked pipe without limit; an acknowledgement frees
its copy; traffic moves to a detour and back, and what is unacknowledged goes again first; a port trains. Choices of the model that it rests on: logs 13, 47, 48, and 38
for the packets of kinds 0x11 and 0x12, which are resent without limit as a linked-pipe request is. -/
def Obligations.FabricSenders : Prop :=
  ∀ (s : State) (dst seq : Nat), ((s.target dst).copies.map Copy.id).Nodup →
    (∀ c, sentCopy s dst seq = some c →
      (s.now < c.sent + 20000 → exec (.e2eTimeout dst seq) s = .next s) ∧
      (c.sent + 20000 ≤ s.now → c.resends < 8 ∨ 16 ≤ c.pkt.kind → ∃ t c', exec (.e2eTimeout dst seq) s = .next t ∧ c' ∈ (t.target dst).copies ∧
        c'.id = c.id ∧ c'.pkt = c.pkt ∧ c'.resends = c.resends + 1 ∧ c'.sent = s.now ∧ getT 0 t.pcnt 1 = (getT 0 s.pcnt 1 + 1) % 2 ^ 64 ∧
        t.groups = s.groups ∧ t.mem = s.mem) ∧
      (∀ va bs grp pc thrs, c.sent + 20000 ≤ s.now → 8 ≤ c.resends → c.pkt.kind < 16 → c.pkt.body = .rst va bs grp pc thrs →
        (s.grp grp).live = true → (s.grp grp).status ≠ .ended → (s.ctx (s.grp grp).place.ctx).late = [] →
        ∃ t, exec (.e2eTimeout dst seq) s = .next t ∧ (∀ x ∈ (t.target dst).copies, x.id ≠ c.id) ∧
          (t.ctx (s.grp grp).place.ctx).late =
            [{ grp := grp, cls := 0x21, cause := 3, addr := va, pc := BitVec.ofNat 48 pc, info := 0, fmask := BitVec.ofNat 32 thrs
               core := (s.grp grp).place.core, lane := (s.grp grp).place.lane }] ∧
          (t.grp grp).rem = (s.grp grp).rem - 1) ∧
      (dst ≠ s.pkg.pkg ∨ (s.source dst).applied (BitVec.ofNat 32 seq) = true → ∃ t, exec (.e2eAck dst seq) s = .next t ∧
        (∀ x ∈ (t.target dst).copies, x.id ≠ c.id) ∧ t.mem = s.mem ∧ RegsKept s t ∧
        (∀ grp, accessOf c.pkt.body = some grp → (t.grp grp).rem = (s.grp grp).rem - 1) ∧ (accessOf c.pkt.body = none → t.groups = s.groups))) ∧
    (sentCopy s dst seq = none → exec (.e2eTimeout dst seq) s = .next s ∧ exec (.e2eAck dst seq) s = .next s) ∧
    (inPod s dst = true → dst ≠ s.pkg.pkg →
      (∀ c, wantsDetour s dst = true → detourColumn s dst = some c → (s.target dst).detour ≠ some c → ∃ t, exec (.routeDetour dst) s = .next t ∧
        (t.target dst).detour = some c ∧ (t.port (minimalHop s dst).1).detour = ((s.port (minimalHop s dst).1).detour + 1) % 2 ^ 64 ∧
        (let port := portBetween 0 (colOf s.pkg.pkg) c
         (∀ x ∈ (s.target dst).copies, x.numbered = true ∧ x.waiting = false ∧ (x.taken = true ∨ needsReservation x.pkt.kind = false)) → (s.port port).up = true →
          (s.target dst).copies.length ≤ (s.port port).buf2 →
          t.outbox = s.outbox ++ (s.target dst).copies.map fun x => (port, { x.pkt with vc := 2 })) ∧
        t.groups = s.groups ∧ t.mem = s.mem) ∧
      (wantsDetour s dst = false → (s.target dst).detour ≠ none → ∃ t, exec (.routeDetour dst) s = .next t ∧ (t.target dst).detour = none ∧
        t.groups = s.groups ∧ t.mem = s.mem) ∧
      (wantsDetour s dst = false ∧ (s.target dst).detour = none ∨
          wantsDetour s dst = true ∧ (detourColumn s dst = none ∨ detourColumn s dst = (s.target dst).detour) →
        exec (.routeDetour dst) s = .next s)) ∧
    (∀ port, (port < 15 ∧ port + 1 < s.pkg.cols ∨ 15 ≤ port ∧ port < 30 ∧ port - 14 < s.pkg.rows) →
      (∃ t, exec (.linkTrain port true) s = .next t ∧ (t.port port).up = true ∧ (∀ k, k ≠ port → (t.port k).up = (s.port k).up) ∧
        t.groups = s.groups ∧ t.mem = s.mem) ∧
      (∃ t, exec (.linkTrain port false) s = .next t ∧ (t.port port).up = false ∧ (∀ k, k ≠ port → t.port k = s.port k) ∧
        getT 0 t.pcnt 0x10003 = (getT 0 s.pcnt 0x10003 + 1) % 2 ^ 64 ∧ t = { s with ports := t.ports, pcnt := t.pcnt }))

/-- Eight bytes that a host reads at an offset of BAR 0 or BAR 2 of a function, as a number (R475, R478). -/
def Sys2Proof.Claims.barWord (s : State) (fn bar off : Nat) : Nat := leNat ((List.range 8).map fun i => barByte s fn bar (off + i))

/-- R14, R474 to R478: a host access of one aligned 32-byte sector through the window, which waits for what stands in its way (R426, R433), and what the host reads of a
queue's page and of a mailbox. Choices of the model that it rests on: logs 59, 99. -/
def Obligations.HostWindow : Prop :=
  ∀ (s : State) (fn off : Nat),
    (∀ ctx, (s.func fn).ctx = some ctx → (s.ctx ctx).live = true →
      let a := ((s.func fn).wbase.toNat + off) % 2 ^ 64
      (∀ bs, bs ≠ [] → bs.length ≤ 32 - a % 32 → off + bs.length ≤ 2 ^ 36 → s.posted = [] → NoChunks s →
        (∀ x, walk s ctx a = .ok x → x.write = true → (tileState s ctx a).refusesWrites = false → NoneArrived s →
          ∃ t, exec (.hostWindowWrite fn off bs) s = .next t ∧ t.mem = writeBytes s.mem (x.phys a) (keptBytes s (x.phys a) bs) ∧ RegsKept s t ∧
            t.funcs = s.funcs ∧ t.posted = []) ∧
        ((∀ x, walk s ctx a = .ok x → x.write = false ∨ (tileState s ctx a).refusesWrites = true) →
          exec (.hostWindowWrite fn off bs) s =
            .next { s with funcs := setT s.funcs fn { s.func fn with winErr := ((s.func fn).winErr + 1) % 2 ^ 64 }, serial := s.serial + 1 })) ∧
      (∀ bs, bs ≠ [] → bs.length ≤ 32 - a % 32 → off + bs.length ≤ 2 ^ 36 → s.posted = [] → windowHeld s ctx (a, bs) = true →
        exec (.hostWindowWrite fn off bs) s = .next { s with posted := [{ id := s.serial, fn := fn, pieces := [(a, bs)] }], serial := s.serial + 1 }) ∧
      (∀ len, 0 < len → len ≤ 32 - a % 32 → off + len ≤ 2 ^ 36 → s.reads = [] → (∀ y ∈ s.posted, y.fn ≠ fn) →
        (∀ x, walk s ctx a = .ok x → tileAt s ctx a = none → s.badSec = [] →
          ∃ t, exec (.hostWindowRead fn off len) s = .next t ∧ t.answers = s.answers ++ [(fn, false, readBytes s.mem (x.phys a) len)] ∧
            t.reads = [] ∧ t.mem = s.mem ∧ t.groups = s.groups) ∧
        (∀ c, walk s ctx a = .error c → ∃ t, exec (.hostWindowRead fn off len) s = .next t ∧
          t.answers = s.answers ++ [(fn, true, List.replicate len 0xFF)] ∧ (t.func fn).winErr = ((s.func fn).winErr + 1) % 2 ^ 64 ∧ t.mem = s.mem) ∧
        (∀ x c r e, walk s ctx a = .ok x → tileAt s ctx a = some (c, r, e) → findT (s.ctx c).recipes r = some e → e.state = .dropped →
          TileUser.window s.serial ∉ e.users →
          ∃ t e', exec (.hostWindowRead fn off len) s = .next t ∧ t.answers = s.answers ∧ t.reads = [{ id := s.serial, fn := fn, va := a, len := len }] ∧
            findT (t.ctx c).recipes r = some e' ∧ (e.ocore, 0) ∈ e'.wants ∧ TileUser.window s.serial ∈ e'.waits ∧ t.mem = s.mem ∧
            t.groups = s.groups))) ∧
    ((s.func fn).ctx = none → ∀ bs len, exec (.hostWindowWrite fn off bs) s = .next s ∧
      exec (.hostWindowRead fn off len) s = .next { s with answers := s.answers ++ [(fn, false, List.replicate len 0)] }) ∧
    barWord s fn 2 0x88 = (s.func fn).code.toNat * 2 ^ 16 + (s.func fn).result.toNat * 2 ^ 8 + (if (s.func fn).busy then 1 else 0) ∧
    barWord s fn 2 0x100 = (s.func fn).wbase.toNat ∧
    (∀ page q, queueAt s fn page = some q →
      let x := s.queue q
      barWord s fn 0 (4096 * page) = x.qbase.toNat ∧ barWord s fn 0 (4096 * page + 16) = x.qhead.toNat * 2 ^ 32 + x.qtail.toNat) ∧
    (queueAt s fn (off / 4096) = none → barByte s fn 0 off = 0)

/-! ### Mailbox commands and the package's own events -/

/-- R362, R405, R423, R466, R474, R478, R479, R481, R482: the commands that create a context, write its control block and quota, and bind it to a peer or a tenant;
who may give them, and what turns them down. Choices of the model that it rests on: logs 69, 71; that function f is bound to context f, and that a virtual function gets
0x02 for another context than its own before anything else: log 99. -/
def Obligations.ContextCommands : Prop :=
  ∀ (s : State) (fn ctx : Nat),
    (∀ root frames, Posted s fn 1 →
      let m := (s.func fn).mcmd.toNat
      let c := field m 16 8
      let f := field m 24 8
      (s.pkg.life ≠ .deployed ∨ s.pkg.pending ≠ none → TurnedDown (.createContext fn root frames) s fn 1 3) ∧
      (s.pkg.life = .deployed → s.pkg.pending = none →
        (fn ≠ 0 → (s.func fn).ctx ≠ some c → TurnedDown (.createContext fn root frames) s fn 1 2) ∧
        (fn ≠ 0 → (s.func fn).ctx = some c → TurnedDown (.createContext fn root frames) s fn 1 3) ∧
        (fn = 0 → 63 < c ∨ (s.ctx c).live = true ∨ 63 < f ∨ (s.func f).ctx ≠ none ∨ f ≠ c → TurnedDown (.createContext fn root frames) s fn 1 3) ∧
        (fn = 0 → c ≤ 63 → (s.ctx c).live = false → f = c → (s.func f).ctx = none →
          ∃ t, exec (.createContext fn root frames) s = .next t ∧ Answered s t fn 1 0 0 ∧
            t.ctx c = { live := true, fn := f, root := root, frames := frames } ∧ (t.func f).ctx = some c ∧ (∀ k, k ≠ c → t.ctx k = s.ctx k) ∧
            (∀ k core ctr, core < 256 → ctr < 65536 →
              getT 0 t.ctr (ctrKey k core ctr) = if k = c then 0 else getT 0 s.ctr (ctrKey k core ctr)) ∧
            t = { s with ctxs := t.ctxs, funcs := t.funcs, msix := t.msix, ctr := t.ctr }))) ∧
    (∀ b, Posted s fn 3 →
      (fn ≠ 0 → (s.func fn).ctx ≠ some ctx → TurnedDown (.writeCcb fn ctx b) s fn 3 2) ∧
      (fn = 0 ∨ (s.func fn).ctx = some ctx →
        ((s.ctx ctx).live = false → TurnedDown (.writeCcb fn ctx b) s fn 3 1) ∧
        ((s.ctx ctx).live = true → CtxChanged (.writeCcb fn ctx b) s fn 3 ctx fun x => CcbIs x.ccb b ∧ x = { s.ctx ctx with ccb := x.ccb }))) ∧
    (∀ q, Posted s fn 4 →
      (fn ≠ 0 → (s.func fn).ctx ≠ some ctx → TurnedDown (.setQuota fn ctx q) s fn 4 2) ∧
      (fn = 0 ∨ (s.func fn).ctx = some ctx →
        ((s.ctx ctx).live = false ∨ 65535 < q → TurnedDown (.setQuota fn ctx q) s fn 4 1) ∧
        ((s.ctx ctx).live = true → q ≤ 65535 → CtxChanged (.setQuota fn ctx q) s fn 4 ctx fun x => x = { s.ctx ctx with quota := q }))) ∧
    (∀ pkg peer wins, Posted s fn 5 →
      (fn ≠ 0 → (s.func fn).ctx ≠ some ctx → TurnedDown (.bindPeer fn ctx pkg peer wins) s fn 5 2) ∧
      (fn ≠ 0 → (s.func fn).ctx = some ctx → TurnedDown (.bindPeer fn ctx pkg peer wins) s fn 5 3) ∧
      (fn = 0 → (s.ctx ctx).live = false ∨ inPod s pkg = false ∨ 63 < peer ∨ (∃ w ∈ wins, 15 < w.1 ∨ 2 ^ 32 < w.2.len) →
        TurnedDown (.bindPeer fn ctx pkg peer wins) s fn 5 3) ∧
      (fn = 0 → (s.ctx ctx).live = true → inPod s pkg = true → peer ≤ 63 → (∀ w ∈ wins, w.1 ≤ 15 ∧ w.2.len ≤ 2 ^ 32) →
        CtxChanged (.bindPeer fn ctx pkg peer wins) s fn 5 ctx fun x => x = { s.ctx ctx with peers := x.peers } ∧
          ((pkg, peer), wins) ∈ x.peers ∧ (∀ e ∈ x.peers, e.1.1 = pkg → e = ((pkg, peer), wins)) ∧
          ∀ e, e.1.1 ≠ pkg → (e ∈ x.peers ↔ e ∈ (s.ctx ctx).peers))) ∧
    (∀ n, Posted s fn 6 →
      (fn ≠ 0 → (s.func fn).ctx ≠ some ctx → TurnedDown (.bindTenant fn ctx n) s fn 6 2) ∧
      (fn ≠ 0 → (s.func fn).ctx = some ctx → TurnedDown (.bindTenant fn ctx n) s fn 6 3) ∧
      (fn = 0 → (s.ctx ctx).live = false ∨ 65535 < n → TurnedDown (.bindTenant fn ctx n) s fn 6 3) ∧
      (fn = 0 → (s.ctx ctx).live = true → n ≤ 65535 →
        CtxChanged (.bindTenant fn ctx n) s fn 6 ctx fun x => x = { s.ctx ctx with tenant := some n })) ∧
    (∀ code, Posted s fn code → code = 0 ∨ 9 ≤ code → TurnedDown (.badCommand fn) s fn code 1) ∧
    ((s.func fn).busy = true → exec (.badCommand fn) s = .next s ∧ exec (.readCounter fn) s = .next s ∧
      (∀ b, exec (.writeCcb fn ctx b) s = .next s) ∧ (∀ q, exec (.setQuota fn ctx q) s = .next s) ∧
      (∀ root frames, exec (.createContext fn root frames) s = .next s) ∧ ∀ n, exec (.bindTenant fn ctx n) s = .next s)

/-- R479, R493: what function 0 reads of each class of counters, what another function may read, and what names no counter. Choices of the model that it rests on: logs 57, 71. -/
def Obligations.CounterReads : Prop :=
  ∀ (s : State) (fn cls sum unit ctr ctx : Nat), Posted s fn 7 → CounterAsked (s.func fn).mcmd.toNat cls sum unit ctr ctx →
    let reads := fun (v : Nat) => ∃ t, exec (.readCounter fn) s = .next t ∧ Answered s t fn 7 0 v ∧ t = { s with funcs := t.funcs, msix := t.msix }
    let count := fun (core : Nat) => if ctr = 0x200 then s.now else getT 0 s.ctr (ctrKey ctx core ctr)
    let mine := fun (c : Nat) => fn = 0 ∨ (s.func fn).ctx = some c
    let denied := TurnedDown (.readCounter fn) s fn 7 2
    let bad := TurnedDown (.readCounter fn) s fn 7 1
    (cls = 0 → sum = 0 → ctr ≤ 0x206 → unit ≤ 255 → ctx ≤ 63 → (mine ctx → reads (count unit)) ∧ (¬ mine ctx → denied)) ∧
    (cls = 0 → sum = 1 → ctr ≤ 0x206 → ctr ≠ 0x200 → ctx ≤ 63 → mine ctx →
      reads ((((List.range 256).filter fun c => !(s.core c).fenced).map count).sum)) ∧
    (cls = 1 → sum = 0 → unit ≤ 29 → let p := s.port unit
      (ctr = 0 → reads p.hdrfix) ∧ (ctr = 1 → reads p.hdrdrop) ∧ (ctr = 2 → reads p.badkind) ∧ (ctr = 3 → reads p.linkreplay) ∧
      (ctr = 4 → reads p.detour)) ∧
    (cls = 2 → sum = 0 → unit = 0 →
      (ctr ≤ 6 → ctr ≠ 4 → reads (getT 0 s.pcnt ctr)) ∧ (ctr = 4 → reads ((s.bypass.map Prod.snd).sum % 2 ^ 64)) ∧
      (0x104 ≤ ctr → ctr ≤ 0x107 → reads 0) ∧
      (0x100 ≤ ctr → ctr ≤ 0x111 → ¬ (0x104 ≤ ctr ∧ ctr ≤ 0x107) → reads (getT 0 s.pcnt ctr))) ∧
    (cls = 3 → sum = 0 → ctr = 0 → (fn = 0 → reads (getT 0 s.tenants unit)) ∧
      (∀ c, fn ≠ 0 → (s.func fn).ctx = some c → (s.ctx c).tenant = some unit → reads (getT 0 s.tenants unit)) ∧
      (fn ≠ 0 → (∀ c, (s.func fn).ctx = some c → (s.ctx c).tenant ≠ some unit) → denied)) ∧
    (cls = 4 → sum = 0 → unit ≤ 63 → (mine unit → (ctr = 0 → reads (s.ctx unit).staterr) ∧ (ctr = 1 → reads (s.ctx unit).rpterr)) ∧
      (¬ mine unit → ctr ≤ 1 → denied)) ∧
    (cls = 5 → sum = 0 → unit ≤ 63 → ctr = 0 → (fn = 0 ∨ fn = unit → reads (s.func unit).winErr) ∧ (fn ≠ 0 → fn ≠ unit → denied)) ∧
    (cls = 6 → sum = 0 → unit ≤ 63 → ctr = 0 → (fn = 0 → reads (s.queue unit).errs) ∧
      (∀ q, fn ≠ 0 → queueAt s fn unit = some q → reads (s.queue q).errs) ∧ (fn ≠ 0 → queueAt s fn unit = none → denied)) ∧
    (7 ≤ cls ∨ cls ≠ 0 ∧ sum = 1 ∨ cls = 0 ∧ (0x206 < ctr ∨ 63 < ctx ∨ sum = 0 ∧ 255 < unit) ∨ cls = 1 ∧ (4 < ctr ∨ 29 < unit) ∨
      cls = 2 ∧ (unit ≠ 0 ∨ 6 < ctr ∧ ctr < 0x100 ∨ 0x111 < ctr) ∨ cls = 3 ∧ ctr ≠ 0 ∨ cls = 4 ∧ (1 < ctr ∨ 63 < unit) ∨
      5 ≤ cls ∧ (ctr ≠ 0 ∨ 63 < unit) → bad)

/-- R320, R422, R478, R479, R481, R482: a context is torn down: its queues are disabled and its plans drained by force; once the drains are over it is gone,
its frames clear. Firmware is installed for the next reset, and a token moves the life cycle; the device keys are sealed with the first, and the owner key is erased on
leaving RETURNED. Choices of the model that it rests on: logs 14, 56, 71, 87; which key stands for the owner's: log 99. -/
def Obligations.TeardownAndLifecycle : Prop :=
  ∀ (s : State) (fn : Nat),
    (∀ ctx, Posted s fn 2 → (s.func fn).task = none →
      (fn ≠ 0 → (s.func fn).ctx ≠ some ctx → TurnedDown (.teardown fn ctx) s fn 2 2) ∧
      (fn = 0 ∨ (s.func fn).ctx = some ctx → (s.ctx ctx).teardown = false →
        ((s.ctx ctx).live = false → TurnedDown (.teardown fn ctx) s fn 2 3) ∧
        ((s.ctx ctx).live = true → ∃ t, exec (.teardown fn ctx) s = .next t ∧ (t.func fn).busy = true ∧ (t.func fn).task = some ctx ∧ (t.ctx ctx).teardown = true ∧
          (t.ctx ctx).live = true ∧ (∀ q, (s.queue q).ctx = ctx → (t.queue q).en = false ∧ (t.queue q).cand = none) ∧
          ∀ k p, findT s.plans k = some p → p.ctx = ctx → ∃ p', findT t.plans k = some p' ∧ p'.forced = true ∧ p'.tdown = true))) ∧
    (∀ ctx, (s.func fn).task = some ctx → (s.ctx ctx).live = true → s.pkg.lynx = true →
      (tornDown s ctx = false → exec (.teardown fn ctx) s = .next s) ∧
      (tornDown s ctx = true → ∃ t, exec (.teardown fn ctx) s = .next t ∧ (t.ctx ctx).live = false ∧ (t.func (s.ctx ctx).fn).ctx = none ∧
        (t.func fn).busy = false ∧ (t.func fn).task = none ∧ (t.func fn).result = 0 ∧
        (∀ f ∈ (s.ctx ctx).frames, ∀ a, f.1 ≤ a → a < f.1 + f.2 → readByte t.mem a = 0) ∧
        (∀ c, ctx ∈ (s.core c).used → ∀ a,
          (s.core c).plan = none ∨ (s.core c).ctx = ctx ∨ (s.core c).inited.getLsbD (a / 4096) = false → readByte (t.core c).lm a = 0) ∧
        (∀ c, ∀ x ∈ (t.core c).tlb, x.ctx = ctx → 2 ^ 57 ≤ x.va ∨ x.va + x.size = 0))) ∧
    (∀ version signed, Posted s fn 8 →
      (fn ≠ 0 → TurnedDown (.updateFirmware fn version signed) s fn 8 3) ∧
      (fn = 0 → signed = false ∨ version < s.pkg.version → TurnedDown (.updateFirmware fn version signed) s fn 8 3) ∧
      (fn = 0 → signed = true → s.pkg.version ≤ version → ∃ t, exec (.updateFirmware fn version signed) s = .next t ∧ Answered s t fn 8 0 0 ∧
        t = { s with pkg := { s.pkg with image := some version }, funcs := t.funcs, msix := t.msix })) ∧
    (∀ key, Posted s fn 8 → s.pkg.pending = none → (s.func fn).task = none →
      let next : Option Life := match s.pkg.life with
        | .manufacture => if key = 0 then some .provisioned else none
        | .provisioned => if key = s.pkg.owner then some .deployed else none
        | .deployed => if key = s.pkg.owner then some .returned else none
        | .returned => if key = 0 then some .provisioned else none
      (fn ≠ 0 ∨ next = none → TurnedDown (.lifecycleToken fn key) s fn 8 3) ∧
      (∀ l, fn = 0 → next = some l → (∀ e ∈ s.ctxs, e.2.live = false) → ∃ t, exec (.lifecycleToken fn key) s = .next t ∧
        Answered s t fn 8 0 0 ∧ (s.pkg.life = .manufacture → t.pkg.keysSealed = true) ∧ (s.pkg.life ≠ .manufacture → t.pkg.keysSealed = s.pkg.keysSealed) ∧
        (s.pkg.life = .returned → t.pkg.owner ≠ s.pkg.owner) ∧ (s.pkg.life ≠ .returned → t.pkg.owner = s.pkg.owner) ∧
        t = { s with pkg := { s.pkg with pending := some l, wipe := true, keysSealed := t.pkg.keysSealed, owner := t.pkg.owner }, funcs := t.funcs, msix := t.msix }) ∧
      (∀ l c x, fn = 0 → next = some l → s.ctxs = [(c, x)] → x.live = true → x.teardown = false →
        ∃ t, exec (.lifecycleToken fn key) s = .next t ∧ (t.ctx c).teardown = true ∧ (t.func fn).busy = true ∧ t.pkg = s.pkg))

/-- R481, R483, R486 to R492: samples, clock steps, a trip, a restart of Lynx, bring-up, the feed and the wipe. Bring-up opens the mailboxes after the links have had their
training (R492): power-good comes twice. Choices of the model that it rests on: logs 1, 4, 62, 93. -/
def Obligations.PackageEvents : Prop :=
  ∀ s : State,
    let p := s.pkg
    (∀ tj mw, p.up = true → p.lynx = true → (∀ t, p.sampled = some t → t + 1000000 ≤ s.now) →
      let up := fun (ok : Bool) (n : Nat) => if ok then min 4 (n + 1) else n
      let hot := tj ≥ 100 ∧ p.step = 4
      (tj < 105 → ¬ (hot ∧ ∃ t, p.hot = some t ∧ t + 10000000 ≤ s.now) → ∃ q, exec (.thermalSample tj mw) s = .next { s with pkg := q } ∧ q.tjmax = tj % 256 ∧ q.tdem = up (decide (95 ≤ tj)) p.tdem ∧
        q.pdem = up (decide (3600000 < mw)) p.pdem ∧ q.therm = (if 0 < q.tdem then 1 else 0) + (if 0 < q.pdem then 2 else 0) ∧
        q.sampled = some s.now ∧ q.step = p.step ∧ q.hot = (if 100 ≤ tj ∧ p.step = 4 then some (p.hot.getD s.now) else none) ∧
        q.cool = (if tj < 90 then some (p.cool.getD s.now) else none) ∧ q.calm = (if mw < 3400000 then some (p.calm.getD s.now) else none)) ∧
      (105 ≤ tj ∨ hot ∧ (∃ t, p.hot = some t ∧ t + 10000000 ≤ s.now) → ∃ t, exec (.thermalSample tj mw) s = .next t ∧ WasReset s t ∧
        t.pkg.trip = some s.now ∧ getT 0 t.pcnt 6 = (getT 0 s.pcnt 6 + 1) % 2 ^ 64)) ∧
    (∀ tj mw, p.up = true → p.lynx = false → 105 ≤ tj → ∃ t, exec (.thermalSample tj mw) s = .next t ∧ WasReset s t ∧ t.pkg.trip = some s.now ∧
      getT 0 t.pcnt 6 = (getT 0 s.pcnt 6 + 1) % 2 ^ 64) ∧
    (∀ t, p.lynx = true → p.sampled = some t → s.now < t + 1000000 → ∀ tj mw, exec (.thermalSample tj mw) s = .next s) ∧
    (∃ q, exec .stepFall s = .next { s with pkg := q } ∧
      (∀ t, p.cool = some t → t + 10000000 ≤ s.now → q.tdem = p.tdem - 1 ∧ q.cool = some s.now) ∧
      ((∀ t, p.cool = some t → s.now < t + 10000000) → q.tdem = p.tdem ∧ q.cool = p.cool) ∧
      (∀ t, p.calm = some t → t + 10000000 ≤ s.now → q.pdem = p.pdem - 1 ∧ q.calm = some s.now) ∧
      ((∀ t, p.calm = some t → s.now < t + 10000000) → q.pdem = p.pdem ∧ q.calm = p.calm) ∧ q.step = p.step) ∧
    (p.up = true →
      let want := if p.lynx then max p.tdem p.pdem else 2
      (want = p.step → exec .clockStepChange s = .next s) ∧
      (want ≠ p.step → exec .clockStepChange s = .next { s with now := s.now + 2000, pkg := { p with step := want } })) ∧
    (p.up = true → p.meas = true →
      (p.lynx = true → ∃ t, exec .lynxRestart s = .next t ∧ t.pkg = { p with lynx := false } ∧ (∀ e ∈ t.funcs, e.2.busy = true) ∧
        t = { s with funcs := t.funcs, pkg := t.pkg }) ∧
      (p.lynx = false → ∃ t, exec .lynxRestart s = .next t ∧ t.pkg = { p with lynx := true } ∧ (∀ f, f < 64 → (t.func f).busy = (s.func f).task.isSome) ∧
        t = { s with funcs := t.funcs, pkg := t.pkg })) ∧
    (∀ ok id failed, p.up = false → p.held = false → p.linking = false → ∃ t, exec (.powerGood ok id failed) s = .next t ∧ Wiped t ∧
      t.pkg.up = false ∧ t.pkg.linking = true ∧ t.pkg.wipe = false ∧ t.pkg.meas = ok ∧ t.pkg.pkg = id % 256 ∧
      t.pkg.life = p.pending.getD p.life ∧ t.pkg.pending = none ∧
      (∀ c, c < 256 → ((t.core c).fenced = true ↔ c ∈ failed ∨ (s.core c).marked = true ∨ (s.core c).fenced = true)) ∧
      t.pkg.ncore = ((List.range 256).filter fun c => !(t.core c).fenced).length ∧ t.funcs = s.funcs) ∧
    (∀ ok id failed, p.up = false → p.held = false → p.linking = true → ∃ t, exec (.powerGood ok id failed) s = .next t ∧
      t = { s with funcs := t.funcs, pkg := { p with up := true, linking := false, lynx := p.meas } } ∧
      (t.func 0).busy = false ∧ (p.meas = true → ∀ f, f < 64 → (t.func f).busy = false) ∧
      (p.meas = false → ∀ f, f ≠ 0 → (t.func f).busy = (s.func f).busy)) ∧
    (p.up = true ∨ p.held = true → ∀ ok id failed, exec (.powerGood ok id failed) s = .next s) ∧
    (∃ t, exec (.voltageOutOfRange true) s = .next t ∧ WasReset s t ∧ t.pkg.held = true) ∧
    (exec (.voltageOutOfRange false) s = .next { s with pkg := { p with held := false } }) ∧
    (p.up = true → p.wipe = true → ∃ t, exec .wipeComplete s = .next t ∧ Wiped t ∧ t.pkg = { p with wipe := false, life := p.pending.getD p.life, pending := none }) ∧
    (p.wipe = false → exec .wipeComplete s = .next s)

/-! ### Statements in several parts -/

/-- R58, R98, R112, R114: the integer instructions write what the tables of the spec give, on words that are computed as the tables say. -/
def Obligations.IntegerResults : Prop := Sys2Proof.Claims.ArithmeticResults ∧ Sys2Proof.Claims.LogicResults ∧ Sys2Proof.Claims.ElementResults ∧ Sys2Proof.Claims.ShiftAndFieldBits

/-- R98, R106, R117, R119, R120, R135, R136, R185, R355, R359, R374: moves, and what a group reads of its own state. Choices of the model that it rests on: logs 1, 65, 73. -/
def Obligations.MovesAndOwnState : Prop := Sys2Proof.Claims.MoveResults ∧ Sys2Proof.Claims.OwnStateReads ∧ Sys2Proof.Claims.GroupNames

/-- R140 to R142, R145, R147 to R150, R152, R154, R155: the floating-point instructions. Choices of the model that it rests on: log 64. -/
def Obligations.FloatingPointResults : Prop := Sys2Proof.Claims.FloatResults ∧ Sys2Proof.Claims.PackedAndConvertedResults ∧ Sys2Proof.Claims.FloatCompareResults

/-- R98, R104, R115, R116, R118, R119, R121: LEA, the reductions and scans over a group, and the predicate instructions. Choices of the model that it rests on: log 73. -/
def Obligations.AddressesReductionsPredicates : Prop := Sys2Proof.Claims.LeaResults ∧ Sys2Proof.Claims.ReductionResults ∧ Sys2Proof.Claims.PredicateResults

/-- R83, R146, R151: rounding, and the operands that have results of their own. -/
def Obligations.RoundingAndSpecialOperands : Prop := Sys2Proof.Claims.RoundingModes ∧ Sys2Proof.Claims.SpecialOperands ∧ Sys2Proof.Claims.SpecialArguments

/-- R57, R77, R79, R81, R107 to R109, R134 to R136, R371, R373: NOP, YIELD, PHINT, SLEEP, and the writes of control registers. Choices of the model that it rests on: log 31. -/
def Obligations.HintsAndControlRegisters : Prop := Sys2Proof.Claims.NopAndYield ∧ Sys2Proof.Claims.HintsAndSleep ∧ Sys2Proof.Claims.ControlRegisterWrites

/-- R367, R369, R370, R406, R407: how a trap or a fault is taken, and the record it leaves. Choices of the model that it rests on: logs 21, 23. -/
def Obligations.TrapsAndFaultsTaken : Prop := Sys2Proof.Claims.TrapEntry ∧ Sys2Proof.Claims.FaultEntry ∧ Sys2Proof.Claims.TrapRecordLayout

/-- R245, R246, R250, R251, R254, R261: the matrix instructions enter commands, and what is checked first. -/
def Obligations.MatrixCommandsEntered : Prop := Sys2Proof.Claims.MatrixCommands ∧ Sys2Proof.Claims.MatrixChecks

/-- R161 to R164, R166, R168, R169, R171, R173, R174: LDG, LDK, LDL. Choices of the model that it rests on: logs 11, 19. -/
def Obligations.Loads : Prop := Sys2Proof.Claims.GlobalLoads ∧ Sys2Proof.Claims.PoolLoads ∧ Sys2Proof.Claims.LocalLoads

/-- R161, R166, R169, R171, R173: STG and STL. Choices of the model that it rests on: logs 11, 12, 19, 81. -/
def Obligations.Stores : Prop := Sys2Proof.Claims.GlobalStores ∧ Sys2Proof.Claims.LocalStores

/-- R65, R98, R127, R128, R130, R131, R138: BRA, LOOP, BRD, CALL and what they push. -/
def Obligations.Branches : Prop := Sys2Proof.Claims.BranchesAndLoops ∧ Sys2Proof.Claims.DivergentBranchesAndCalls

/-- R125, R126, R129, R132, R133: JOIN, RET, EXIT. A choice of the model that it rests on, for a partial RET without a CALL entry: log 90. -/
def Obligations.JoinsReturnsAndExits : Prop := Sys2Proof.Claims.JoinsAndReturns ∧ Sys2Proof.Claims.Exits

/-- R122, R123, R368: RETT, and the stack in local memory. -/
def Obligations.TrapReturnsAndStackSpills : Prop := Sys2Proof.Claims.TrapReturn ∧ Sys2Proof.Claims.SpillAndRefill

/-- R285 to R287, R292, R313, R322: PRSV and CTAK. Choices of the model that it rests on: logs 30, 31. -/
def Obligations.SlotTokens : Prop := Sys2Proof.Claims.SlotsReserved ∧ Sys2Proof.Claims.SlotsTaken

/-- R175 to R179: ATOMG, ATOML, RED. Choices of the model that it rests on: log 19 for ATOML under a uniform mark, and log 11 for the queues of the banks. -/
def Obligations.AtomicsAndReductions : Prop := Sys2Proof.Claims.Atomics ∧ Sys2Proof.Claims.Reductions

/-- R160, R220: memory and every local memory keep their canonical form through every step. -/
def Obligations.MemoryFormsKept : Prop := Sys2Proof.Claims.MemoryKept ∧ Sys2Proof.Claims.LocalMemoryKept

/-- R274, R275, R277 to R279: the barrier instructions. Choices of the model that it rests on: logs 20, 31. -/
def Obligations.Barriers : Prop := Sys2Proof.Claims.BarrierUpdates ∧ Sys2Proof.Claims.BarrierReads
end

