-- ==== Sys2Proof/Laws/Encode.lean ====
section
/-! SUPPORT. The fields of an encoded word: what each extraction reads from a packed format, and that each code is read back as its modifier. -/
namespace Sys2Proof
theorem field_lo {v w start len : Nat} (x : BitVec v) (y : BitVec w) (h : start + len ≤ w) :
    (x ++ y).extractLsb' start len = y.extractLsb' start len := BitVec.extractLsb'_append_eq_of_add_le h
theorem field_hi {v w start len : Nat} (x : BitVec v) (y : BitVec w) (h : w ≤ start) :
    (x ++ y).extractLsb' start len = x.extractLsb' (start - w) len := BitVec.extractLsb'_append_eq_of_le h
theorem flag_lo {v w i : Nat} (x : BitVec v) (y : BitVec w) (h : i < w) : (x ++ y).getLsbD i = y.getLsbD i := by
  rw [BitVec.getLsbD_append]; simp [h]
theorem flag_hi {v w i : Nat} (x : BitVec v) (y : BitVec w) (h : w ≤ i) : (x ++ y).getLsbD i = x.getLsbD (i - w) := by
  rw [BitVec.getLsbD_append]; simp [Nat.not_lt.mpr h]
@[simp] theorem bit_at (b : Bool) : (bit b).getLsbD 0 = b := by cases b <;> rfl
@[simp] theorem predOf_predField (p : Pred) : predOf (predField p) = p := by
  unfold predOf predField; rw [field_lo _ _ (by decide)]; exact BitVec.extractLsb'_eq_self
@[simp] theorem Rnd.ofBits_bits (x : Rnd) : Rnd.ofBits x.bits = some x := by cases x <;> rfl
@[simp] theorem Cond.ofBits_bits (x : Cond) : Cond.ofBits x.bits = some x := by cases x <;> rfl
@[simp] theorem Comb.ofBits_bits (x : Comb) : Comb.ofBits x.bits = some x := by cases x <;> rfl
@[simp] theorem FCond.ofBits_bits (x : FCond) : FCond.ofBits x.bits = some x := by cases x <;> rfl
@[simp] theorem VoteMode.ofBits_bits (x : VoteMode) : VoteMode.ofBits x.bits = some x := by cases x <;> rfl
@[simp] theorem ShflMode.ofBits_bits (x : ShflMode) : ShflMode.ofBits x.bits = some x := by cases x <;> rfl
@[simp] theorem RedgOp.ofBits_bits (x : RedgOp) : RedgOp.ofBits x.bits = some x := by cases x <;> rfl
@[simp] theorem Elem.ofBits_bits (x : Elem) : Elem.ofBits x.bits = some x := by cases x <;> rfl
@[simp] theorem HType.ofBits_bits (x : HType) : HType.ofBits x.bits = some x := by cases x <;> rfl
@[simp] theorem Size.ofBits_bits (x : Size) : Size.ofBits x.bits = some x := by cases x <;> rfl
@[simp] theorem AOp.ofBits_bits (x : AOp) : AOp.ofBits x.bits = some x := by cases x <;> rfl
@[simp] theorem Scope.ofBits_bits (x : Scope) : Scope.ofBits x.bits = some x := by cases x <;> rfl
@[simp] theorem PMode.ofBits_bits (x : PMode) : PMode.ofBits x.bits = some x := by cases x <;> rfl
@[simp] theorem Sreg.ofBits_bits (x : Sreg) : Sreg.ofBits x.bits = some x := by cases x <;> rfl
@[simp] theorem Creg.ofBits_bits (x : Creg) : Creg.ofBits x.bits = some x := by cases x <;> rfl
@[simp] theorem WCreg.ofBits_bits (x : WCreg) : WCreg.ofBits x.bits = some x := by cases x <;> rfl
@[simp] theorem CsrOp.ofBits_bits (x : CsrOp) : CsrOp.ofBits x.bits = some x := by cases x <;> rfl
@[simp] theorem Wn.ofBits_bits (x : Wn) : Wn.ofBits x.bits = some x := by cases x <;> rfl

@[simp] theorem packA_cls (op : BitVec 9) (g : Guard) (d s1 s2 s3 : Reg) (mod : BitVec 23) : (packA op g d s1 s2 s3 mod).extractLsb' 61 3 = op.extractLsb' 6 3 := by
  simp (disch := omega) only [packA, field_hi, Nat.reduceSub]
@[simp] theorem packA_op (op : BitVec 9) (g : Guard) (d s1 s2 s3 : Reg) (mod : BitVec 23) : (packA op g d s1 s2 s3 mod).extractLsb' 55 6 = op.extractLsb' 0 6 := by
  simp (disch := omega) only [packA, field_hi, Nat.reduceSub]
@[simp] theorem packA_opcode (op : BitVec 9) (g : Guard) (d s1 s2 s3 : Reg) (mod : BitVec 23) : (packA op g d s1 s2 s3 mod).extractLsb' 55 9 = op := by
  simp (disch := omega) only [packA, field_hi, BitVec.extractLsb'_eq_self, Nat.reduceSub]
@[simp] theorem packA_guard (op : BitVec 9) (g : Guard) (d s1 s2 s3 : Reg) (mod : BitVec 23) : guardOf (packA op g d s1 s2 s3 mod) = g := by
  simp (disch := omega) only [guardOf, packA, field_lo, field_hi, flag_lo, flag_hi, BitVec.extractLsb'_eq_self, bit_at, Nat.reduceSub]
@[simp] theorem packA_fd (op : BitVec 9) (g : Guard) (d s1 s2 s3 : Reg) (mod : BitVec 23) : fd (packA op g d s1 s2 s3 mod) = d := by
  simp (disch := omega) only [fd, packA, field_lo, field_hi, BitVec.extractLsb'_eq_self, Nat.reduceSub]
@[simp] theorem packA_f1 (op : BitVec 9) (g : Guard) (d s1 s2 s3 : Reg) (mod : BitVec 23) : f1 (packA op g d s1 s2 s3 mod) = s1 := by
  simp (disch := omega) only [f1, packA, field_lo, field_hi, BitVec.extractLsb'_eq_self, Nat.reduceSub]
@[simp] theorem packA_f2 (op : BitVec 9) (g : Guard) (d s1 s2 s3 : Reg) (mod : BitVec 23) : f2 (packA op g d s1 s2 s3 mod) = s2 := by
  simp (disch := omega) only [f2, packA, field_lo, field_hi, BitVec.extractLsb'_eq_self, Nat.reduceSub]
@[simp] theorem packA_f3 (op : BitVec 9) (g : Guard) (d s1 s2 s3 : Reg) (mod : BitVec 23) : f3 (packA op g d s1 s2 s3 mod) = s3 := by
  simp (disch := omega) only [f3, packA, field_lo, field_hi, BitVec.extractLsb'_eq_self, Nat.reduceSub]
@[simp] theorem packA_mod (op : BitVec 9) (g : Guard) (d s1 s2 s3 : Reg) (mod : BitVec 23) {k n : Nat} (h : k + n ≤ 23) : (packA op g d s1 s2 s3 mod).extractLsb' k n = mod.extractLsb' k n := by
  simp (disch := omega) only [packA, field_lo]
@[simp] theorem packA_flag (op : BitVec 9) (g : Guard) (d s1 s2 s3 : Reg) (mod : BitVec 23) {k : Nat} (h : k < 23) : (packA op g d s1 s2 s3 mod).getLsbD k = mod.getLsbD k := by
  simp (disch := omega) only [packA, flag_lo]
@[simp] theorem packI_cls (op : BitVec 9) (g : Guard) (d s1 : Reg) (mod : BitVec 5) (imm : Word) : (packI op g d s1 mod imm).extractLsb' 61 3 = op.extractLsb' 6 3 := by
  simp (disch := omega) only [packI, field_hi, Nat.reduceSub]
@[simp] theorem packI_op (op : BitVec 9) (g : Guard) (d s1 : Reg) (mod : BitVec 5) (imm : Word) : (packI op g d s1 mod imm).extractLsb' 55 6 = op.extractLsb' 0 6 := by
  simp (disch := omega) only [packI, field_hi, Nat.reduceSub]
@[simp] theorem packI_opcode (op : BitVec 9) (g : Guard) (d s1 : Reg) (mod : BitVec 5) (imm : Word) : (packI op g d s1 mod imm).extractLsb' 55 9 = op := by
  simp (disch := omega) only [packI, field_hi, BitVec.extractLsb'_eq_self, Nat.reduceSub]
@[simp] theorem packI_guard (op : BitVec 9) (g : Guard) (d s1 : Reg) (mod : BitVec 5) (imm : Word) : guardOf (packI op g d s1 mod imm) = g := by
  simp (disch := omega) only [guardOf, packI, field_lo, field_hi, flag_lo, flag_hi, BitVec.extractLsb'_eq_self, bit_at, Nat.reduceSub]
@[simp] theorem packI_fd (op : BitVec 9) (g : Guard) (d s1 : Reg) (mod : BitVec 5) (imm : Word) : fd (packI op g d s1 mod imm) = d := by
  simp (disch := omega) only [fd, packI, field_lo, field_hi, BitVec.extractLsb'_eq_self, Nat.reduceSub]
@[simp] theorem packI_f1 (op : BitVec 9) (g : Guard) (d s1 : Reg) (mod : BitVec 5) (imm : Word) : f1 (packI op g d s1 mod imm) = s1 := by
  simp (disch := omega) only [f1, packI, field_lo, field_hi, BitVec.extractLsb'_eq_self, Nat.reduceSub]
@[simp] theorem packI_low (op : BitVec 9) (g : Guard) (d s1 : Reg) (mod : BitVec 5) (imm : Word) : (packI op g d s1 mod imm).extractLsb' 0 32 = imm := by
  simp (disch := omega) only [packI, field_lo, BitVec.extractLsb'_eq_self]
@[simp] theorem packI_mod (op : BitVec 9) (g : Guard) (d s1 : Reg) (mod : BitVec 5) (imm : Word) {k n : Nat} (h1 : 32 ≤ k) (h2 : k + n ≤ 37) : (packI op g d s1 mod imm).extractLsb' k n = mod.extractLsb' (k - 32) n := by
  simp (disch := omega) only [packI, field_lo, field_hi]
@[simp] theorem packI_flag (op : BitVec 9) (g : Guard) (d s1 : Reg) (mod : BitVec 5) (imm : Word) {k : Nat} (h1 : 32 ≤ k) (h2 : k < 37) : (packI op g d s1 mod imm).getLsbD k = mod.getLsbD (k - 32) := by
  simp (disch := omega) only [packI, flag_lo, flag_hi]
@[simp] theorem packM_cls (op : BitVec 9) (g : Guard) (d base s2 : Reg) (mod : BitVec 6) (off : BitVec 24) : (packM op g d base s2 mod off).extractLsb' 61 3 = op.extractLsb' 6 3 := by
  simp (disch := omega) only [packM, field_hi, Nat.reduceSub]
@[simp] theorem packM_op (op : BitVec 9) (g : Guard) (d base s2 : Reg) (mod : BitVec 6) (off : BitVec 24) : (packM op g d base s2 mod off).extractLsb' 55 6 = op.extractLsb' 0 6 := by
  simp (disch := omega) only [packM, field_hi, Nat.reduceSub]
@[simp] theorem packM_opcode (op : BitVec 9) (g : Guard) (d base s2 : Reg) (mod : BitVec 6) (off : BitVec 24) : (packM op g d base s2 mod off).extractLsb' 55 9 = op := by
  simp (disch := omega) only [packM, field_hi, BitVec.extractLsb'_eq_self, Nat.reduceSub]
@[simp] theorem packM_guard (op : BitVec 9) (g : Guard) (d base s2 : Reg) (mod : BitVec 6) (off : BitVec 24) : guardOf (packM op g d base s2 mod off) = g := by
  simp (disch := omega) only [guardOf, packM, field_lo, field_hi, flag_lo, flag_hi, BitVec.extractLsb'_eq_self, bit_at, Nat.reduceSub]
@[simp] theorem packM_fd (op : BitVec 9) (g : Guard) (d base s2 : Reg) (mod : BitVec 6) (off : BitVec 24) : fd (packM op g d base s2 mod off) = d := by
  simp (disch := omega) only [fd, packM, field_lo, field_hi, BitVec.extractLsb'_eq_self, Nat.reduceSub]
@[simp] theorem packM_f1 (op : BitVec 9) (g : Guard) (d base s2 : Reg) (mod : BitVec 6) (off : BitVec 24) : f1 (packM op g d base s2 mod off) = base := by
  simp (disch := omega) only [f1, packM, field_lo, field_hi, BitVec.extractLsb'_eq_self, Nat.reduceSub]
@[simp] theorem packM_f2 (op : BitVec 9) (g : Guard) (d base s2 : Reg) (mod : BitVec 6) (off : BitVec 24) : f2 (packM op g d base s2 mod off) = s2 := by
  simp (disch := omega) only [f2, packM, field_lo, field_hi, BitVec.extractLsb'_eq_self, Nat.reduceSub]
@[simp] theorem packM_low (op : BitVec 9) (g : Guard) (d base s2 : Reg) (mod : BitVec 6) (off : BitVec 24) : (packM op g d base s2 mod off).extractLsb' 0 24 = off := by
  simp (disch := omega) only [packM, field_lo, BitVec.extractLsb'_eq_self]
@[simp] theorem packM_mod (op : BitVec 9) (g : Guard) (d base s2 : Reg) (mod : BitVec 6) (off : BitVec 24) {k n : Nat} (h1 : 24 ≤ k) (h2 : k + n ≤ 30) : (packM op g d base s2 mod off).extractLsb' k n = mod.extractLsb' (k - 24) n := by
  simp (disch := omega) only [packM, field_lo, field_hi]
@[simp] theorem packM_flag (op : BitVec 9) (g : Guard) (d base s2 : Reg) (mod : BitVec 6) (off : BitVec 24) {k : Nat} (h1 : 24 ≤ k) (h2 : k < 30) : (packM op g d base s2 mod off).getLsbD k = mod.getLsbD (k - 24) := by
  simp (disch := omega) only [packM, flag_lo, flag_hi]
@[simp] theorem packE_cls (op : BitVec 9) (g : Guard) (d h s2 : Reg) (mod : BitVec 10) (idx : BitVec 20) : (packE op g d h s2 mod idx).extractLsb' 61 3 = op.extractLsb' 6 3 := by
  simp (disch := omega) only [packE, field_hi, Nat.reduceSub]
@[simp] theorem packE_op (op : BitVec 9) (g : Guard) (d h s2 : Reg) (mod : BitVec 10) (idx : BitVec 20) : (packE op g d h s2 mod idx).extractLsb' 55 6 = op.extractLsb' 0 6 := by
  simp (disch := omega) only [packE, field_hi, Nat.reduceSub]
@[simp] theorem packE_opcode (op : BitVec 9) (g : Guard) (d h s2 : Reg) (mod : BitVec 10) (idx : BitVec 20) : (packE op g d h s2 mod idx).extractLsb' 55 9 = op := by
  simp (disch := omega) only [packE, field_hi, BitVec.extractLsb'_eq_self, Nat.reduceSub]
@[simp] theorem packE_guard (op : BitVec 9) (g : Guard) (d h s2 : Reg) (mod : BitVec 10) (idx : BitVec 20) : guardOf (packE op g d h s2 mod idx) = g := by
  simp (disch := omega) only [guardOf, packE, field_lo, field_hi, flag_lo, flag_hi, BitVec.extractLsb'_eq_self, bit_at, Nat.reduceSub]
@[simp] theorem packE_fd (op : BitVec 9) (g : Guard) (d h s2 : Reg) (mod : BitVec 10) (idx : BitVec 20) : fd (packE op g d h s2 mod idx) = d := by
  simp (disch := omega) only [fd, packE, field_lo, field_hi, BitVec.extractLsb'_eq_self, Nat.reduceSub]
@[simp] theorem packE_f1 (op : BitVec 9) (g : Guard) (d h s2 : Reg) (mod : BitVec 10) (idx : BitVec 20) : f1 (packE op g d h s2 mod idx) = h := by
  simp (disch := omega) only [f1, packE, field_lo, field_hi, BitVec.extractLsb'_eq_self, Nat.reduceSub]
@[simp] theorem packE_f2 (op : BitVec 9) (g : Guard) (d h s2 : Reg) (mod : BitVec 10) (idx : BitVec 20) : f2 (packE op g d h s2 mod idx) = s2 := by
  simp (disch := omega) only [f2, packE, field_lo, field_hi, BitVec.extractLsb'_eq_self, Nat.reduceSub]
@[simp] theorem packE_low (op : BitVec 9) (g : Guard) (d h s2 : Reg) (mod : BitVec 10) (idx : BitVec 20) : (packE op g d h s2 mod idx).extractLsb' 0 20 = idx := by
  simp (disch := omega) only [packE, field_lo, BitVec.extractLsb'_eq_self]
@[simp] theorem packE_mod (op : BitVec 9) (g : Guard) (d h s2 : Reg) (mod : BitVec 10) (idx : BitVec 20) {k n : Nat} (h1 : 20 ≤ k) (h2 : k + n ≤ 30) : (packE op g d h s2 mod idx).extractLsb' k n = mod.extractLsb' (k - 20) n := by
  simp (disch := omega) only [packE, field_lo, field_hi]
@[simp] theorem packE_flag (op : BitVec 9) (g : Guard) (d h s2 : Reg) (mod : BitVec 10) (idx : BitVec 20) {k : Nat} (h1 : 20 ≤ k) (h2 : k < 30) : (packE op g d h s2 mod idx).getLsbD k = mod.getLsbD (k - 20) := by
  simp (disch := omega) only [packE, flag_lo, flag_hi]
@[simp] theorem optReg_isSome (o : Option Reg) : optReg o.isSome (o.getD 0#7) = o := by cases o <;> rfl

end Sys2Proof
end

