-- ==== Sys2Proof/Laws/Tab.lean ====
section
/-! SUPPORT. The laws of tables and memories: reading after writing, and the canonical form of a memory. -/
namespace Sys2Proof.Machine

/-! ### Tables -/

@[simp] theorem getT_nil {α : Type} (d : α) (k : Nat) : getT d [] k = d := rfl

theorem getT_setT {α : Type} (d : α) (t : Tab α) (k j : Nat) (v : α) :
    getT d (setT t k v) j = if j = k then v else getT d t j := by
  induction t with
  | nil => simp [setT, getT]
  | cons e t ih =>
    obtain ⟨e, x⟩ := e
    simp only [setT]
    by_cases h1 : k = e
    · subst h1; simp only [if_true, getT]; split <;> rfl
    · by_cases h2 : k < e
      · simp [h1, h2, getT]
      · simp only [h1, h2, if_false, getT, ih]
        by_cases h3 : j = e
        · simp [h3, Ne.symm h1]
        · simp [h3]

@[simp] theorem getT_setT_self {α : Type} (d : α) (t : Tab α) (k : Nat) (v : α) : getT d (setT t k v) k = v := by simp [getT_setT]

theorem getT_setT_ne {α : Type} (d : α) (t : Tab α) {k j : Nat} (v : α) (h : j ≠ k) : getT d (setT t k v) j = getT d t j := by
  simp [getT_setT, h]

theorem setT_setT {α : Type} (t : Tab α) (k : Nat) (v w : α) : setT (setT t k v) k w = setT t k w := by
  induction t with
  | nil => simp [setT]
  | cons e t ih =>
    obtain ⟨e, x⟩ := e
    simp only [setT]
    by_cases h1 : k = e
    · subst h1; simp [setT]
    · by_cases h2 : k < e <;> simp [h1, h2, setT, ih]

theorem findT_setT {α : Type} (t : Tab α) (k j : Nat) (v : α) :
    findT (setT t k v) j = if j = k then some v else findT t j := by
  induction t with
  | nil => simp [setT, findT]
  | cons e t ih =>
    obtain ⟨e, x⟩ := e
    simp only [setT]
    by_cases h1 : k = e
    · subst h1; simp only [if_true, findT]; split <;> rfl
    · by_cases h2 : k < e
      · simp [h1, h2, findT]
      · simp only [h1, h2, if_false, findT, ih]
        by_cases h3 : j = e
        · simp [h3, Ne.symm h1]
        · simp [h3]

@[simp] theorem findT_setT_self {α : Type} (t : Tab α) (k : Nat) (v : α) : findT (setT t k v) k = some v := by simp [findT_setT]

theorem findT_delT {α : Type} (t : Tab α) (k j : Nat) : findT (delT t k) j = if j = k then none else findT t j := by
  induction t with
  | nil => simp [delT, findT]
  | cons e t ih =>
    obtain ⟨e, x⟩ := e
    simp only [delT]
    by_cases h1 : k = e
    · subst h1; simp only [if_true, ih, findT]; split <;> simp_all
    · simp only [h1, if_false, findT, ih]
      by_cases h3 : j = e
      · simp [h3, Ne.symm h1]
      · simp [h3]

@[simp] theorem findT_delT_self {α : Type} (t : Tab α) (k : Nat) : findT (delT t k) k = none := by simp [findT_delT]

theorem findT_mapT {α β : Type} (f : Nat → α → β) (t : Tab α) (k : Nat) : findT (mapT f t) k = (findT t k).map (f k) := by
  induction t with
  | nil => rfl
  | cons e t ih =>
    obtain ⟨e, x⟩ := e
    simp only [mapT, findT]
    split
    · rename_i h; simp [h]
    · exact ih

theorem getT_of_findT {α : Type} (d : α) (t : Tab α) (k : Nat) : getT d t k = (findT t k).getD d := by
  induction t with
  | nil => rfl
  | cons e t ih =>
    obtain ⟨e, x⟩ := e
    simp only [getT, findT]
    split <;> simp [ih]

theorem getT_mapT {α β : Type} (f : Nat → α → β) (d : α) (t : Tab α) (k : Nat) :
    getT (f k d) (mapT f t) k = f k (getT d t k) := by
  simp only [getT_of_findT, findT_mapT]
  cases findT t k <;> rfl

/-- Every entry of a table after a write is the new one or an old one. -/
theorem mem_setT {α : Type} {t : Tab α} {k : Nat} {v : α} {e : Nat × α} (h : e ∈ setT t k v) : e = (k, v) ∨ e ∈ t := by
  induction t with
  | nil => simp [setT] at h; exact .inl h
  | cons x t ih =>
    obtain ⟨x, y⟩ := x
    simp only [setT] at h
    split at h
    · rcases List.mem_cons.mp h with h | h
      · exact .inl h
      · exact .inr (List.mem_cons_of_mem _ h)
    · split at h
      · rcases List.mem_cons.mp h with h | h
        · exact .inl h
        · exact .inr h
      · rcases List.mem_cons.mp h with h | h
        · exact .inr (h ▸ List.mem_cons_self)
        · rcases ih h with h | h
          · exact .inl h
          · exact .inr (List.mem_cons_of_mem _ h)

theorem mem_delT {α : Type} {t : Tab α} {k : Nat} {e : Nat × α} (h : e ∈ delT t k) : e ∈ t := by
  induction t with
  | nil => exact h
  | cons x t ih =>
    obtain ⟨x, y⟩ := x
    simp only [delT] at h
    split at h
    · exact List.mem_cons_of_mem _ (ih h)
    · rcases List.mem_cons.mp h with h | h
      · exact h ▸ List.mem_cons_self
      · exact List.mem_cons_of_mem _ (ih h)

theorem mem_mapT {α β : Type} {f : Nat → α → β} {t : Tab α} {e : Nat × β} (h : e ∈ mapT f t) : ∃ x, (e.1, x) ∈ t ∧ e.2 = f e.1 x := by
  induction t with
  | nil => cases h
  | cons y t ih =>
    obtain ⟨y, z⟩ := y
    rcases List.mem_cons.mp h with h | h
    · exact ⟨z, by simp [h], by simp [h]⟩
    · obtain ⟨x, hx, he⟩ := ih h
      exact ⟨x, List.mem_cons_of_mem _ hx, he⟩

/-- What `getT` reads is the default or an entry of the table. -/
theorem getT_mem {α : Type} (d : α) (t : Tab α) (k : Nat) : getT d t k = d ∨ (k, getT d t k) ∈ t := by
  induction t with
  | nil => exact .inl rfl
  | cons e t ih =>
    obtain ⟨e, x⟩ := e
    simp only [getT]
    split
    · rename_i h; exact .inr (by simp [h])
    · rcases ih with h | h
      · exact .inl h
      · exact .inr (List.mem_cons_of_mem _ h)

/-! ### Memories -/

@[simp] theorem wf_nil : Memory.wf [] = true := rfl

theorem wfFrom_cons (lo a : Nat) (b : Byte) (m : Memory) :
    Memory.wfFrom lo ((a, b) :: m) = true ↔ lo ≤ a ∧ b ≠ 0 ∧ Memory.wfFrom (a + 1) m = true := by
  simp [Memory.wfFrom, and_assoc]

theorem wfFrom_mono {m : Memory} {lo lo' : Nat} (h : lo' ≤ lo) (w : Memory.wfFrom lo m = true) : Memory.wfFrom lo' m = true := by
  cases m with
  | nil => rfl
  | cons e m =>
    rw [wfFrom_cons] at w ⊢
    exact ⟨Nat.le_trans h w.1, w.2⟩

/-- Below the first listed address every byte reads as zero. -/
theorem readByte_below {m : Memory} {lo c : Nat} (w : Memory.wfFrom lo m = true) (h : c < lo) : readByte m c = 0 := by
  induction m generalizing lo with
  | nil => rfl
  | cons e m ih =>
    rw [wfFrom_cons] at w
    rw [readByte, if_neg (by omega)]
    exact ih w.2.2 (by omega)

theorem wfFrom_writeByte {m : Memory} {lo a : Nat} {b : Byte} (h : lo ≤ a) (w : Memory.wfFrom lo m = true) :
    Memory.wfFrom lo (writeByte m a b) = true := by
  induction m generalizing lo with
  | nil =>
    simp only [writeByte]
    split
    · rfl
    · rename_i hb; exact (wfFrom_cons ..).2 ⟨h, hb, rfl⟩
  | cons e m ih =>
    have w' := (wfFrom_cons ..).1 w
    obtain ⟨w1, w2, w3⟩ := w'
    simp only [writeByte]
    split
    · rename_i he
      split
      · exact wfFrom_mono (by omega) w3
      · rename_i hb; exact (wfFrom_cons ..).2 ⟨h, hb, by rw [he]; exact w3⟩
    · split
      · split
        · exact w
        · rename_i h2 hb
          exact (wfFrom_cons ..).2 ⟨h, hb, (wfFrom_cons ..).2 ⟨h2, w2, w3⟩⟩
      · exact (wfFrom_cons ..).2 ⟨w1, w2, ih (by omega) w3⟩

/-- A byte written keeps the canonical form. -/
theorem writeByte_wf {m : Memory} (a : Nat) (b : Byte) (w : m.wf = true) : (writeByte m a b).wf = true := wfFrom_writeByte (Nat.zero_le a) w

/-- Bytes written keep the canonical form. -/
theorem writeBytes_wf {m : Memory} (a : Nat) (bs : List Byte) (w : m.wf = true) : (writeBytes m a bs).wf = true := by
  induction bs generalizing m a with
  | nil => exact w
  | cons b bs ih => exact ih _ (writeByte_wf a b w)

/-- A number written keeps the canonical form. -/
theorem writeLE_wf {m : Memory} (a n x : Nat) (w : m.wf = true) : (writeLE m a n x).wf = true := writeBytes_wf a _ w

theorem wfFrom_filter {m : Memory} {lo : Nat} (p : Host.Cell → Bool) (w : Memory.wfFrom lo m = true) : Memory.wfFrom lo (m.filter p) = true := by
  induction m generalizing lo with
  | nil => rfl
  | cons e m ih =>
    obtain ⟨w1, w2, w3⟩ := (wfFrom_cons ..).1 w
    simp only [List.filter]
    split
    · exact (wfFrom_cons ..).2 ⟨w1, w2, ih w3⟩
    · exact wfFrom_mono (by omega) (ih w3)

/-- Entries removed keep the canonical form. -/
theorem filter_wf {m : Memory} (p : Host.Cell → Bool) (w : m.wf = true) : Memory.wf (m.filter p) = true := wfFrom_filter p w

theorem readByte_writeByte_from {m : Memory} {lo a : Nat} (w : Memory.wfFrom lo m = true) (b : Byte) (c : Nat) :
    readByte (writeByte m a b) c = if c = a then b else readByte m c := by
  induction m generalizing lo with
  | nil =>
    simp only [writeByte]
    split
    · rename_i h; simp [readByte, h]
    · rfl
  | cons e m ih =>
    obtain ⟨w1, w2, w3⟩ := (wfFrom_cons ..).1 w
    have low := fun (h : c ≤ e.1) => readByte_below w3 (Nat.lt_succ_of_le h)
    simp only [writeByte]
    split
    · rename_i he
      split
      · rename_i h0
        by_cases hc : c = a
        · rw [if_pos hc, h0]; exact low (by omega)
        · rw [if_neg hc, readByte, if_neg (by omega)]
      · by_cases hc : c = a
        · rw [if_pos hc, readByte, if_pos hc]
        · rw [if_neg hc, readByte, if_neg hc, readByte, if_neg (by omega)]
    · rename_i he
      split
      · rename_i hl
        split
        · rename_i h0
          by_cases hc : c = a
          · rw [if_pos hc, h0, readByte, if_neg (by omega)]; exact low (by omega)
          · rw [if_neg hc]
        · by_cases hc : c = a
          · rw [if_pos hc, readByte, if_pos hc]
          · rw [if_neg hc, readByte, if_neg hc]
      · rw [readByte, readByte, ih w3]
        by_cases hc : c = a
        · rw [if_pos hc, if_pos hc, if_neg (by omega)]
        · rw [if_neg hc, if_neg hc]

/-- A byte reads as it was last written, and a write leaves every other byte alone. -/
theorem readByte_writeByte {m : Memory} (w : m.wf = true) (a : Nat) (b : Byte) (c : Nat) :
    readByte (writeByte m a b) c = if c = a then b else readByte m c := readByte_writeByte_from w b c

/-- Bytes written leave every byte outside their range alone. -/
theorem readByte_writeBytes_out {m : Memory} (w : m.wf = true) (a : Nat) (bs : List Byte) {c : Nat} (h : c < a ∨ a + bs.length ≤ c) :
    readByte (writeBytes m a bs) c = readByte m c := by
  induction bs generalizing m a with
  | nil => rfl
  | cons b bs ih =>
    simp only [List.length_cons] at h
    rw [writeBytes, ih (writeByte_wf a b w) (a + 1) (by omega), readByte_writeByte w, if_neg (by omega)]

/-- Bytes written are read back. -/
theorem readByte_writeBytes_in {m : Memory} (w : m.wf = true) (a : Nat) (bs : List Byte) {i : Nat} (h : i < bs.length) :
    readByte (writeBytes m a bs) (a + i) = bs[i] := by
  induction bs generalizing m a i with
  | nil => cases h
  | cons b bs ih =>
    cases i with
    | zero =>
      rw [writeBytes, readByte_writeBytes_out (writeByte_wf a b w) (a + 1) bs (by omega), readByte_writeByte w]
      simp
    | succ i =>
      have := ih (writeByte_wf a b w) (a + 1) (i := i) (by simpa using h)
      rw [writeBytes, show a + (i + 1) = a + 1 + i by omega, this]
      rfl

end Sys2Proof.Machine
end

