-- ==== Sys2Proof/Laws/State.lean ====
section
/-! SUPPORT. The laws of the state's accessors and updates: what each update leaves, field by field, and what an accessor reads after it. -/
namespace Sys2Proof.Machine

/-! ### What an update leaves -/

@[simp] theorem State.setGrp_now (s : State) (k : Nat) (g : Group) : (s.setGrp k g).now = s.now := rfl
@[simp] theorem State.setGrp_phase (s : State) (k : Nat) (g : Group) : (s.setGrp k g).phase = s.phase := rfl
@[simp] theorem State.setGrp_agenda (s : State) (k : Nat) (g : Group) : (s.setGrp k g).agenda = s.agenda := rfl
@[simp] theorem State.setGrp_cur (s : State) (k : Nat) (g : Group) : (s.setGrp k g).cur = s.cur := rfl
@[simp] theorem State.setGrp_turn (s : State) (k : Nat) (g : Group) : (s.setGrp k g).turn = s.turn := rfl
@[simp] theorem State.setGrp_fresh (s : State) (k : Nat) (g : Group) : (s.setGrp k g).fresh = s.fresh := rfl
@[simp] theorem State.setGrp_serial (s : State) (k : Nat) (g : Group) : (s.setGrp k g).serial = s.serial := rfl
@[simp] theorem State.setGrp_mem (s : State) (k : Nat) (g : Group) : (s.setGrp k g).mem = s.mem := rfl
@[simp] theorem State.setGrp_badSec (s : State) (k : Nat) (g : Group) : (s.setGrp k g).badSec = s.badSec := rfl
@[simp] theorem State.setGrp_cores (s : State) (k : Nat) (g : Group) : (s.setGrp k g).cores = s.cores := rfl
@[simp] theorem State.setGrp_crews (s : State) (k : Nat) (g : Group) : (s.setGrp k g).crews = s.crews := rfl
@[simp] theorem State.setGrp_plans (s : State) (k : Nat) (g : Group) : (s.setGrp k g).plans = s.plans := rfl
@[simp] theorem State.setGrp_ctxs (s : State) (k : Nat) (g : Group) : (s.setGrp k g).ctxs = s.ctxs := rfl
@[simp] theorem State.setGrp_ctr (s : State) (k : Nat) (g : Group) : (s.setGrp k g).ctr = s.ctr := rfl
@[simp] theorem State.setGrp_stlb (s : State) (k : Nat) (g : Group) : (s.setGrp k g).stlb = s.stlb := rfl
@[simp] theorem State.setGrp_walks (s : State) (k : Nat) (g : Group) : (s.setGrp k g).walks = s.walks := rfl
@[simp] theorem State.setGrp_missq (s : State) (k : Nat) (g : Group) : (s.setGrp k g).missq = s.missq := rfl
@[simp] theorem State.setGrp_wcache (s : State) (k : Nat) (g : Group) : (s.setGrp k g).wcache = s.wcache := rfl
@[simp] theorem State.setGrp_l2 (s : State) (k : Nat) (g : Group) : (s.setGrp k g).l2 = s.l2 := rfl
@[simp] theorem State.setGrp_dir (s : State) (k : Nat) (g : Group) : (s.setGrp k g).dir = s.dir := rfl
@[simp] theorem State.setGrp_bypass (s : State) (k : Nat) (g : Group) : (s.setGrp k g).bypass = s.bypass := rfl
@[simp] theorem State.setGrp_watches (s : State) (k : Nat) (g : Group) : (s.setGrp k g).watches = s.watches := rfl
@[simp] theorem State.setGrp_flights (s : State) (k : Nat) (g : Group) : (s.setGrp k g).flights = s.flights := rfl
@[simp] theorem State.setGrp_grants (s : State) (k : Nat) (g : Group) : (s.setGrp k g).grants = s.grants := rfl
@[simp] theorem State.setGrp_beacon (s : State) (k : Nat) (g : Group) : (s.setGrp k g).beacon = s.beacon := rfl
@[simp] theorem State.setGrp_resvs (s : State) (k : Nat) (g : Group) : (s.setGrp k g).resvs = s.resvs := rfl
@[simp] theorem State.setGrp_den (s : State) (k : Nat) (g : Group) : (s.setGrp k g).den = s.den := rfl
@[simp] theorem State.setGrp_denFree (s : State) (k : Nat) (g : Group) : (s.setGrp k g).denFree = s.denFree := rfl
@[simp] theorem State.setGrp_denNext (s : State) (k : Nat) (g : Group) : (s.setGrp k g).denNext = s.denNext := rfl
@[simp] theorem State.setGrp_refused (s : State) (k : Nat) (g : Group) : (s.setGrp k g).refused = s.refused := rfl
@[simp] theorem State.setGrp_dlvs (s : State) (k : Nat) (g : Group) : (s.setGrp k g).dlvs = s.dlvs := rfl
@[simp] theorem State.setGrp_queues (s : State) (k : Nat) (g : Group) : (s.setGrp k g).queues = s.queues := rfl
@[simp] theorem State.setGrp_invals (s : State) (k : Nat) (g : Group) : (s.setGrp k g).invals = s.invals := rfl
@[simp] theorem State.setGrp_funcs (s : State) (k : Nat) (g : Group) : (s.setGrp k g).funcs = s.funcs := rfl
@[simp] theorem State.setGrp_msix (s : State) (k : Nat) (g : Group) : (s.setGrp k g).msix = s.msix := rfl
@[simp] theorem State.setGrp_answers (s : State) (k : Nat) (g : Group) : (s.setGrp k g).answers = s.answers := rfl
@[simp] theorem State.setGrp_hub (s : State) (k : Nat) (g : Group) : (s.setGrp k g).hub = s.hub := rfl
@[simp] theorem State.setGrp_posted (s : State) (k : Nat) (g : Group) : (s.setGrp k g).posted = s.posted := rfl
@[simp] theorem State.setGrp_reads (s : State) (k : Nat) (g : Group) : (s.setGrp k g).reads = s.reads := rfl
@[simp] theorem State.setGrp_ports (s : State) (k : Nat) (g : Group) : (s.setGrp k g).ports = s.ports := rfl
@[simp] theorem State.setGrp_targets (s : State) (k : Nat) (g : Group) : (s.setGrp k g).targets = s.targets := rfl
@[simp] theorem State.setGrp_sources (s : State) (k : Nat) (g : Group) : (s.setGrp k g).sources = s.sources := rfl
@[simp] theorem State.setGrp_outbox (s : State) (k : Nat) (g : Group) : (s.setGrp k g).outbox = s.outbox := rfl
@[simp] theorem State.setGrp_parked (s : State) (k : Nat) (g : Group) : (s.setGrp k g).parked = s.parked := rfl
@[simp] theorem State.setGrp_transit (s : State) (k : Nat) (g : Group) : (s.setGrp k g).transit = s.transit := rfl
@[simp] theorem State.setGrp_freed (s : State) (k : Nat) (g : Group) : (s.setGrp k g).freed = s.freed := rfl
@[simp] theorem State.setGrp_linksDown (s : State) (k : Nat) (g : Group) : (s.setGrp k g).linksDown = s.linksDown := rfl
@[simp] theorem State.setGrp_slotWrites (s : State) (k : Nat) (g : Group) : (s.setGrp k g).slotWrites = s.slotWrites := rfl
@[simp] theorem State.setGrp_reds (s : State) (k : Nat) (g : Group) : (s.setGrp k g).reds = s.reds := rfl
@[simp] theorem State.setGrp_tenants (s : State) (k : Nat) (g : Group) : (s.setGrp k g).tenants = s.tenants := rfl
@[simp] theorem State.setGrp_pcnt (s : State) (k : Nat) (g : Group) : (s.setGrp k g).pcnt = s.pcnt := rfl
@[simp] theorem State.setGrp_errLog (s : State) (k : Nat) (g : Group) : (s.setGrp k g).errLog = s.errLog := rfl
@[simp] theorem State.setGrp_pkg (s : State) (k : Nat) (g : Group) : (s.setGrp k g).pkg = s.pkg := rfl

@[simp] theorem State.setMe_now (s : State) (g : Group) : (s.setMe g).now = s.now := rfl
@[simp] theorem State.setMe_phase (s : State) (g : Group) : (s.setMe g).phase = s.phase := rfl
@[simp] theorem State.setMe_agenda (s : State) (g : Group) : (s.setMe g).agenda = s.agenda := rfl
@[simp] theorem State.setMe_cur (s : State) (g : Group) : (s.setMe g).cur = s.cur := rfl
@[simp] theorem State.setMe_turn (s : State) (g : Group) : (s.setMe g).turn = s.turn := rfl
@[simp] theorem State.setMe_fresh (s : State) (g : Group) : (s.setMe g).fresh = s.fresh := rfl
@[simp] theorem State.setMe_serial (s : State) (g : Group) : (s.setMe g).serial = s.serial := rfl
@[simp] theorem State.setMe_mem (s : State) (g : Group) : (s.setMe g).mem = s.mem := rfl
@[simp] theorem State.setMe_badSec (s : State) (g : Group) : (s.setMe g).badSec = s.badSec := rfl
@[simp] theorem State.setMe_cores (s : State) (g : Group) : (s.setMe g).cores = s.cores := rfl
@[simp] theorem State.setMe_crews (s : State) (g : Group) : (s.setMe g).crews = s.crews := rfl
@[simp] theorem State.setMe_plans (s : State) (g : Group) : (s.setMe g).plans = s.plans := rfl
@[simp] theorem State.setMe_ctxs (s : State) (g : Group) : (s.setMe g).ctxs = s.ctxs := rfl
@[simp] theorem State.setMe_ctr (s : State) (g : Group) : (s.setMe g).ctr = s.ctr := rfl
@[simp] theorem State.setMe_stlb (s : State) (g : Group) : (s.setMe g).stlb = s.stlb := rfl
@[simp] theorem State.setMe_walks (s : State) (g : Group) : (s.setMe g).walks = s.walks := rfl
@[simp] theorem State.setMe_missq (s : State) (g : Group) : (s.setMe g).missq = s.missq := rfl
@[simp] theorem State.setMe_wcache (s : State) (g : Group) : (s.setMe g).wcache = s.wcache := rfl
@[simp] theorem State.setMe_l2 (s : State) (g : Group) : (s.setMe g).l2 = s.l2 := rfl
@[simp] theorem State.setMe_dir (s : State) (g : Group) : (s.setMe g).dir = s.dir := rfl
@[simp] theorem State.setMe_bypass (s : State) (g : Group) : (s.setMe g).bypass = s.bypass := rfl
@[simp] theorem State.setMe_watches (s : State) (g : Group) : (s.setMe g).watches = s.watches := rfl
@[simp] theorem State.setMe_flights (s : State) (g : Group) : (s.setMe g).flights = s.flights := rfl
@[simp] theorem State.setMe_grants (s : State) (g : Group) : (s.setMe g).grants = s.grants := rfl
@[simp] theorem State.setMe_beacon (s : State) (g : Group) : (s.setMe g).beacon = s.beacon := rfl
@[simp] theorem State.setMe_resvs (s : State) (g : Group) : (s.setMe g).resvs = s.resvs := rfl
@[simp] theorem State.setMe_den (s : State) (g : Group) : (s.setMe g).den = s.den := rfl
@[simp] theorem State.setMe_denFree (s : State) (g : Group) : (s.setMe g).denFree = s.denFree := rfl
@[simp] theorem State.setMe_denNext (s : State) (g : Group) : (s.setMe g).denNext = s.denNext := rfl
@[simp] theorem State.setMe_refused (s : State) (g : Group) : (s.setMe g).refused = s.refused := rfl
@[simp] theorem State.setMe_dlvs (s : State) (g : Group) : (s.setMe g).dlvs = s.dlvs := rfl
@[simp] theorem State.setMe_queues (s : State) (g : Group) : (s.setMe g).queues = s.queues := rfl
@[simp] theorem State.setMe_invals (s : State) (g : Group) : (s.setMe g).invals = s.invals := rfl
@[simp] theorem State.setMe_funcs (s : State) (g : Group) : (s.setMe g).funcs = s.funcs := rfl
@[simp] theorem State.setMe_msix (s : State) (g : Group) : (s.setMe g).msix = s.msix := rfl
@[simp] theorem State.setMe_answers (s : State) (g : Group) : (s.setMe g).answers = s.answers := rfl
@[simp] theorem State.setMe_hub (s : State) (g : Group) : (s.setMe g).hub = s.hub := rfl
@[simp] theorem State.setMe_posted (s : State) (g : Group) : (s.setMe g).posted = s.posted := rfl
@[simp] theorem State.setMe_reads (s : State) (g : Group) : (s.setMe g).reads = s.reads := rfl
@[simp] theorem State.setMe_ports (s : State) (g : Group) : (s.setMe g).ports = s.ports := rfl
@[simp] theorem State.setMe_targets (s : State) (g : Group) : (s.setMe g).targets = s.targets := rfl
@[simp] theorem State.setMe_sources (s : State) (g : Group) : (s.setMe g).sources = s.sources := rfl
@[simp] theorem State.setMe_outbox (s : State) (g : Group) : (s.setMe g).outbox = s.outbox := rfl
@[simp] theorem State.setMe_parked (s : State) (g : Group) : (s.setMe g).parked = s.parked := rfl
@[simp] theorem State.setMe_transit (s : State) (g : Group) : (s.setMe g).transit = s.transit := rfl
@[simp] theorem State.setMe_freed (s : State) (g : Group) : (s.setMe g).freed = s.freed := rfl
@[simp] theorem State.setMe_linksDown (s : State) (g : Group) : (s.setMe g).linksDown = s.linksDown := rfl
@[simp] theorem State.setMe_slotWrites (s : State) (g : Group) : (s.setMe g).slotWrites = s.slotWrites := rfl
@[simp] theorem State.setMe_reds (s : State) (g : Group) : (s.setMe g).reds = s.reds := rfl
@[simp] theorem State.setMe_tenants (s : State) (g : Group) : (s.setMe g).tenants = s.tenants := rfl
@[simp] theorem State.setMe_pcnt (s : State) (g : Group) : (s.setMe g).pcnt = s.pcnt := rfl
@[simp] theorem State.setMe_errLog (s : State) (g : Group) : (s.setMe g).errLog = s.errLog := rfl
@[simp] theorem State.setMe_pkg (s : State) (g : Group) : (s.setMe g).pkg = s.pkg := rfl

@[simp] theorem State.setCore_now (s : State) (k : Nat) (c : Core) : (s.setCore k c).now = s.now := rfl
@[simp] theorem State.setCore_phase (s : State) (k : Nat) (c : Core) : (s.setCore k c).phase = s.phase := rfl
@[simp] theorem State.setCore_agenda (s : State) (k : Nat) (c : Core) : (s.setCore k c).agenda = s.agenda := rfl
@[simp] theorem State.setCore_cur (s : State) (k : Nat) (c : Core) : (s.setCore k c).cur = s.cur := rfl
@[simp] theorem State.setCore_turn (s : State) (k : Nat) (c : Core) : (s.setCore k c).turn = s.turn := rfl
@[simp] theorem State.setCore_fresh (s : State) (k : Nat) (c : Core) : (s.setCore k c).fresh = s.fresh := rfl
@[simp] theorem State.setCore_serial (s : State) (k : Nat) (c : Core) : (s.setCore k c).serial = s.serial := rfl
@[simp] theorem State.setCore_mem (s : State) (k : Nat) (c : Core) : (s.setCore k c).mem = s.mem := rfl
@[simp] theorem State.setCore_badSec (s : State) (k : Nat) (c : Core) : (s.setCore k c).badSec = s.badSec := rfl
@[simp] theorem State.setCore_groups (s : State) (k : Nat) (c : Core) : (s.setCore k c).groups = s.groups := rfl
@[simp] theorem State.setCore_crews (s : State) (k : Nat) (c : Core) : (s.setCore k c).crews = s.crews := rfl
@[simp] theorem State.setCore_plans (s : State) (k : Nat) (c : Core) : (s.setCore k c).plans = s.plans := rfl
@[simp] theorem State.setCore_ctxs (s : State) (k : Nat) (c : Core) : (s.setCore k c).ctxs = s.ctxs := rfl
@[simp] theorem State.setCore_ctr (s : State) (k : Nat) (c : Core) : (s.setCore k c).ctr = s.ctr := rfl
@[simp] theorem State.setCore_stlb (s : State) (k : Nat) (c : Core) : (s.setCore k c).stlb = s.stlb := rfl
@[simp] theorem State.setCore_walks (s : State) (k : Nat) (c : Core) : (s.setCore k c).walks = s.walks := rfl
@[simp] theorem State.setCore_missq (s : State) (k : Nat) (c : Core) : (s.setCore k c).missq = s.missq := rfl
@[simp] theorem State.setCore_wcache (s : State) (k : Nat) (c : Core) : (s.setCore k c).wcache = s.wcache := rfl
@[simp] theorem State.setCore_l2 (s : State) (k : Nat) (c : Core) : (s.setCore k c).l2 = s.l2 := rfl
@[simp] theorem State.setCore_dir (s : State) (k : Nat) (c : Core) : (s.setCore k c).dir = s.dir := rfl
@[simp] theorem State.setCore_bypass (s : State) (k : Nat) (c : Core) : (s.setCore k c).bypass = s.bypass := rfl
@[simp] theorem State.setCore_watches (s : State) (k : Nat) (c : Core) : (s.setCore k c).watches = s.watches := rfl
@[simp] theorem State.setCore_flights (s : State) (k : Nat) (c : Core) : (s.setCore k c).flights = s.flights := rfl
@[simp] theorem State.setCore_grants (s : State) (k : Nat) (c : Core) : (s.setCore k c).grants = s.grants := rfl
@[simp] theorem State.setCore_beacon (s : State) (k : Nat) (c : Core) : (s.setCore k c).beacon = s.beacon := rfl
@[simp] theorem State.setCore_resvs (s : State) (k : Nat) (c : Core) : (s.setCore k c).resvs = s.resvs := rfl
@[simp] theorem State.setCore_den (s : State) (k : Nat) (c : Core) : (s.setCore k c).den = s.den := rfl
@[simp] theorem State.setCore_denFree (s : State) (k : Nat) (c : Core) : (s.setCore k c).denFree = s.denFree := rfl
@[simp] theorem State.setCore_denNext (s : State) (k : Nat) (c : Core) : (s.setCore k c).denNext = s.denNext := rfl
@[simp] theorem State.setCore_refused (s : State) (k : Nat) (c : Core) : (s.setCore k c).refused = s.refused := rfl
@[simp] theorem State.setCore_dlvs (s : State) (k : Nat) (c : Core) : (s.setCore k c).dlvs = s.dlvs := rfl
@[simp] theorem State.setCore_queues (s : State) (k : Nat) (c : Core) : (s.setCore k c).queues = s.queues := rfl
@[simp] theorem State.setCore_invals (s : State) (k : Nat) (c : Core) : (s.setCore k c).invals = s.invals := rfl
@[simp] theorem State.setCore_funcs (s : State) (k : Nat) (c : Core) : (s.setCore k c).funcs = s.funcs := rfl
@[simp] theorem State.setCore_msix (s : State) (k : Nat) (c : Core) : (s.setCore k c).msix = s.msix := rfl
@[simp] theorem State.setCore_answers (s : State) (k : Nat) (c : Core) : (s.setCore k c).answers = s.answers := rfl
@[simp] theorem State.setCore_hub (s : State) (k : Nat) (c : Core) : (s.setCore k c).hub = s.hub := rfl
@[simp] theorem State.setCore_posted (s : State) (k : Nat) (c : Core) : (s.setCore k c).posted = s.posted := rfl
@[simp] theorem State.setCore_reads (s : State) (k : Nat) (c : Core) : (s.setCore k c).reads = s.reads := rfl
@[simp] theorem State.setCore_ports (s : State) (k : Nat) (c : Core) : (s.setCore k c).ports = s.ports := rfl
@[simp] theorem State.setCore_targets (s : State) (k : Nat) (c : Core) : (s.setCore k c).targets = s.targets := rfl
@[simp] theorem State.setCore_sources (s : State) (k : Nat) (c : Core) : (s.setCore k c).sources = s.sources := rfl
@[simp] theorem State.setCore_outbox (s : State) (k : Nat) (c : Core) : (s.setCore k c).outbox = s.outbox := rfl
@[simp] theorem State.setCore_parked (s : State) (k : Nat) (c : Core) : (s.setCore k c).parked = s.parked := rfl
@[simp] theorem State.setCore_transit (s : State) (k : Nat) (c : Core) : (s.setCore k c).transit = s.transit := rfl
@[simp] theorem State.setCore_freed (s : State) (k : Nat) (c : Core) : (s.setCore k c).freed = s.freed := rfl
@[simp] theorem State.setCore_linksDown (s : State) (k : Nat) (c : Core) : (s.setCore k c).linksDown = s.linksDown := rfl
@[simp] theorem State.setCore_slotWrites (s : State) (k : Nat) (c : Core) : (s.setCore k c).slotWrites = s.slotWrites := rfl
@[simp] theorem State.setCore_reds (s : State) (k : Nat) (c : Core) : (s.setCore k c).reds = s.reds := rfl
@[simp] theorem State.setCore_tenants (s : State) (k : Nat) (c : Core) : (s.setCore k c).tenants = s.tenants := rfl
@[simp] theorem State.setCore_pcnt (s : State) (k : Nat) (c : Core) : (s.setCore k c).pcnt = s.pcnt := rfl
@[simp] theorem State.setCore_errLog (s : State) (k : Nat) (c : Core) : (s.setCore k c).errLog = s.errLog := rfl
@[simp] theorem State.setCore_pkg (s : State) (k : Nat) (c : Core) : (s.setCore k c).pkg = s.pkg := rfl

@[simp] theorem State.setCtx_now (s : State) (k : Nat) (c : Context) : (s.setCtx k c).now = s.now := rfl
@[simp] theorem State.setCtx_phase (s : State) (k : Nat) (c : Context) : (s.setCtx k c).phase = s.phase := rfl
@[simp] theorem State.setCtx_agenda (s : State) (k : Nat) (c : Context) : (s.setCtx k c).agenda = s.agenda := rfl
@[simp] theorem State.setCtx_cur (s : State) (k : Nat) (c : Context) : (s.setCtx k c).cur = s.cur := rfl
@[simp] theorem State.setCtx_turn (s : State) (k : Nat) (c : Context) : (s.setCtx k c).turn = s.turn := rfl
@[simp] theorem State.setCtx_fresh (s : State) (k : Nat) (c : Context) : (s.setCtx k c).fresh = s.fresh := rfl
@[simp] theorem State.setCtx_serial (s : State) (k : Nat) (c : Context) : (s.setCtx k c).serial = s.serial := rfl
@[simp] theorem State.setCtx_mem (s : State) (k : Nat) (c : Context) : (s.setCtx k c).mem = s.mem := rfl
@[simp] theorem State.setCtx_badSec (s : State) (k : Nat) (c : Context) : (s.setCtx k c).badSec = s.badSec := rfl
@[simp] theorem State.setCtx_groups (s : State) (k : Nat) (c : Context) : (s.setCtx k c).groups = s.groups := rfl
@[simp] theorem State.setCtx_cores (s : State) (k : Nat) (c : Context) : (s.setCtx k c).cores = s.cores := rfl
@[simp] theorem State.setCtx_crews (s : State) (k : Nat) (c : Context) : (s.setCtx k c).crews = s.crews := rfl
@[simp] theorem State.setCtx_plans (s : State) (k : Nat) (c : Context) : (s.setCtx k c).plans = s.plans := rfl
@[simp] theorem State.setCtx_ctr (s : State) (k : Nat) (c : Context) : (s.setCtx k c).ctr = s.ctr := rfl
@[simp] theorem State.setCtx_stlb (s : State) (k : Nat) (c : Context) : (s.setCtx k c).stlb = s.stlb := rfl
@[simp] theorem State.setCtx_walks (s : State) (k : Nat) (c : Context) : (s.setCtx k c).walks = s.walks := rfl
@[simp] theorem State.setCtx_missq (s : State) (k : Nat) (c : Context) : (s.setCtx k c).missq = s.missq := rfl
@[simp] theorem State.setCtx_wcache (s : State) (k : Nat) (c : Context) : (s.setCtx k c).wcache = s.wcache := rfl
@[simp] theorem State.setCtx_l2 (s : State) (k : Nat) (c : Context) : (s.setCtx k c).l2 = s.l2 := rfl
@[simp] theorem State.setCtx_dir (s : State) (k : Nat) (c : Context) : (s.setCtx k c).dir = s.dir := rfl
@[simp] theorem State.setCtx_bypass (s : State) (k : Nat) (c : Context) : (s.setCtx k c).bypass = s.bypass := rfl
@[simp] theorem State.setCtx_watches (s : State) (k : Nat) (c : Context) : (s.setCtx k c).watches = s.watches := rfl
@[simp] theorem State.setCtx_flights (s : State) (k : Nat) (c : Context) : (s.setCtx k c).flights = s.flights := rfl
@[simp] theorem State.setCtx_grants (s : State) (k : Nat) (c : Context) : (s.setCtx k c).grants = s.grants := rfl
@[simp] theorem State.setCtx_beacon (s : State) (k : Nat) (c : Context) : (s.setCtx k c).beacon = s.beacon := rfl
@[simp] theorem State.setCtx_resvs (s : State) (k : Nat) (c : Context) : (s.setCtx k c).resvs = s.resvs := rfl
@[simp] theorem State.setCtx_den (s : State) (k : Nat) (c : Context) : (s.setCtx k c).den = s.den := rfl
@[simp] theorem State.setCtx_denFree (s : State) (k : Nat) (c : Context) : (s.setCtx k c).denFree = s.denFree := rfl
@[simp] theorem State.setCtx_denNext (s : State) (k : Nat) (c : Context) : (s.setCtx k c).denNext = s.denNext := rfl
@[simp] theorem State.setCtx_refused (s : State) (k : Nat) (c : Context) : (s.setCtx k c).refused = s.refused := rfl
@[simp] theorem State.setCtx_dlvs (s : State) (k : Nat) (c : Context) : (s.setCtx k c).dlvs = s.dlvs := rfl
@[simp] theorem State.setCtx_queues (s : State) (k : Nat) (c : Context) : (s.setCtx k c).queues = s.queues := rfl
@[simp] theorem State.setCtx_invals (s : State) (k : Nat) (c : Context) : (s.setCtx k c).invals = s.invals := rfl
@[simp] theorem State.setCtx_funcs (s : State) (k : Nat) (c : Context) : (s.setCtx k c).funcs = s.funcs := rfl
@[simp] theorem State.setCtx_msix (s : State) (k : Nat) (c : Context) : (s.setCtx k c).msix = s.msix := rfl
@[simp] theorem State.setCtx_answers (s : State) (k : Nat) (c : Context) : (s.setCtx k c).answers = s.answers := rfl
@[simp] theorem State.setCtx_hub (s : State) (k : Nat) (c : Context) : (s.setCtx k c).hub = s.hub := rfl
@[simp] theorem State.setCtx_posted (s : State) (k : Nat) (c : Context) : (s.setCtx k c).posted = s.posted := rfl
@[simp] theorem State.setCtx_reads (s : State) (k : Nat) (c : Context) : (s.setCtx k c).reads = s.reads := rfl
@[simp] theorem State.setCtx_ports (s : State) (k : Nat) (c : Context) : (s.setCtx k c).ports = s.ports := rfl
@[simp] theorem State.setCtx_targets (s : State) (k : Nat) (c : Context) : (s.setCtx k c).targets = s.targets := rfl
@[simp] theorem State.setCtx_sources (s : State) (k : Nat) (c : Context) : (s.setCtx k c).sources = s.sources := rfl
@[simp] theorem State.setCtx_outbox (s : State) (k : Nat) (c : Context) : (s.setCtx k c).outbox = s.outbox := rfl
@[simp] theorem State.setCtx_parked (s : State) (k : Nat) (c : Context) : (s.setCtx k c).parked = s.parked := rfl
@[simp] theorem State.setCtx_transit (s : State) (k : Nat) (c : Context) : (s.setCtx k c).transit = s.transit := rfl
@[simp] theorem State.setCtx_freed (s : State) (k : Nat) (c : Context) : (s.setCtx k c).freed = s.freed := rfl
@[simp] theorem State.setCtx_linksDown (s : State) (k : Nat) (c : Context) : (s.setCtx k c).linksDown = s.linksDown := rfl
@[simp] theorem State.setCtx_slotWrites (s : State) (k : Nat) (c : Context) : (s.setCtx k c).slotWrites = s.slotWrites := rfl
@[simp] theorem State.setCtx_reds (s : State) (k : Nat) (c : Context) : (s.setCtx k c).reds = s.reds := rfl
@[simp] theorem State.setCtx_tenants (s : State) (k : Nat) (c : Context) : (s.setCtx k c).tenants = s.tenants := rfl
@[simp] theorem State.setCtx_pcnt (s : State) (k : Nat) (c : Context) : (s.setCtx k c).pcnt = s.pcnt := rfl
@[simp] theorem State.setCtx_errLog (s : State) (k : Nat) (c : Context) : (s.setCtx k c).errLog = s.errLog := rfl
@[simp] theorem State.setCtx_pkg (s : State) (k : Nat) (c : Context) : (s.setCtx k c).pkg = s.pkg := rfl

@[simp] theorem State.count_now (s : State) (ctx core code n : Nat) : (s.count ctx core code n).now = s.now := rfl
@[simp] theorem State.count_phase (s : State) (ctx core code n : Nat) : (s.count ctx core code n).phase = s.phase := rfl
@[simp] theorem State.count_agenda (s : State) (ctx core code n : Nat) : (s.count ctx core code n).agenda = s.agenda := rfl
@[simp] theorem State.count_cur (s : State) (ctx core code n : Nat) : (s.count ctx core code n).cur = s.cur := rfl
@[simp] theorem State.count_turn (s : State) (ctx core code n : Nat) : (s.count ctx core code n).turn = s.turn := rfl
@[simp] theorem State.count_fresh (s : State) (ctx core code n : Nat) : (s.count ctx core code n).fresh = s.fresh := rfl
@[simp] theorem State.count_serial (s : State) (ctx core code n : Nat) : (s.count ctx core code n).serial = s.serial := rfl
@[simp] theorem State.count_mem (s : State) (ctx core code n : Nat) : (s.count ctx core code n).mem = s.mem := rfl
@[simp] theorem State.count_badSec (s : State) (ctx core code n : Nat) : (s.count ctx core code n).badSec = s.badSec := rfl
@[simp] theorem State.count_groups (s : State) (ctx core code n : Nat) : (s.count ctx core code n).groups = s.groups := rfl
@[simp] theorem State.count_cores (s : State) (ctx core code n : Nat) : (s.count ctx core code n).cores = s.cores := rfl
@[simp] theorem State.count_crews (s : State) (ctx core code n : Nat) : (s.count ctx core code n).crews = s.crews := rfl
@[simp] theorem State.count_plans (s : State) (ctx core code n : Nat) : (s.count ctx core code n).plans = s.plans := rfl
@[simp] theorem State.count_ctxs (s : State) (ctx core code n : Nat) : (s.count ctx core code n).ctxs = s.ctxs := rfl
@[simp] theorem State.count_stlb (s : State) (ctx core code n : Nat) : (s.count ctx core code n).stlb = s.stlb := rfl
@[simp] theorem State.count_walks (s : State) (ctx core code n : Nat) : (s.count ctx core code n).walks = s.walks := rfl
@[simp] theorem State.count_missq (s : State) (ctx core code n : Nat) : (s.count ctx core code n).missq = s.missq := rfl
@[simp] theorem State.count_wcache (s : State) (ctx core code n : Nat) : (s.count ctx core code n).wcache = s.wcache := rfl
@[simp] theorem State.count_l2 (s : State) (ctx core code n : Nat) : (s.count ctx core code n).l2 = s.l2 := rfl
@[simp] theorem State.count_dir (s : State) (ctx core code n : Nat) : (s.count ctx core code n).dir = s.dir := rfl
@[simp] theorem State.count_bypass (s : State) (ctx core code n : Nat) : (s.count ctx core code n).bypass = s.bypass := rfl
@[simp] theorem State.count_watches (s : State) (ctx core code n : Nat) : (s.count ctx core code n).watches = s.watches := rfl
@[simp] theorem State.count_flights (s : State) (ctx core code n : Nat) : (s.count ctx core code n).flights = s.flights := rfl
@[simp] theorem State.count_grants (s : State) (ctx core code n : Nat) : (s.count ctx core code n).grants = s.grants := rfl
@[simp] theorem State.count_beacon (s : State) (ctx core code n : Nat) : (s.count ctx core code n).beacon = s.beacon := rfl
@[simp] theorem State.count_resvs (s : State) (ctx core code n : Nat) : (s.count ctx core code n).resvs = s.resvs := rfl
@[simp] theorem State.count_den (s : State) (ctx core code n : Nat) : (s.count ctx core code n).den = s.den := rfl
@[simp] theorem State.count_denFree (s : State) (ctx core code n : Nat) : (s.count ctx core code n).denFree = s.denFree := rfl
@[simp] theorem State.count_denNext (s : State) (ctx core code n : Nat) : (s.count ctx core code n).denNext = s.denNext := rfl
@[simp] theorem State.count_refused (s : State) (ctx core code n : Nat) : (s.count ctx core code n).refused = s.refused := rfl
@[simp] theorem State.count_dlvs (s : State) (ctx core code n : Nat) : (s.count ctx core code n).dlvs = s.dlvs := rfl
@[simp] theorem State.count_queues (s : State) (ctx core code n : Nat) : (s.count ctx core code n).queues = s.queues := rfl
@[simp] theorem State.count_invals (s : State) (ctx core code n : Nat) : (s.count ctx core code n).invals = s.invals := rfl
@[simp] theorem State.count_funcs (s : State) (ctx core code n : Nat) : (s.count ctx core code n).funcs = s.funcs := rfl
@[simp] theorem State.count_msix (s : State) (ctx core code n : Nat) : (s.count ctx core code n).msix = s.msix := rfl
@[simp] theorem State.count_answers (s : State) (ctx core code n : Nat) : (s.count ctx core code n).answers = s.answers := rfl
@[simp] theorem State.count_hub (s : State) (ctx core code n : Nat) : (s.count ctx core code n).hub = s.hub := rfl
@[simp] theorem State.count_posted (s : State) (ctx core code n : Nat) : (s.count ctx core code n).posted = s.posted := rfl
@[simp] theorem State.count_reads (s : State) (ctx core code n : Nat) : (s.count ctx core code n).reads = s.reads := rfl
@[simp] theorem State.count_ports (s : State) (ctx core code n : Nat) : (s.count ctx core code n).ports = s.ports := rfl
@[simp] theorem State.count_targets (s : State) (ctx core code n : Nat) : (s.count ctx core code n).targets = s.targets := rfl
@[simp] theorem State.count_sources (s : State) (ctx core code n : Nat) : (s.count ctx core code n).sources = s.sources := rfl
@[simp] theorem State.count_outbox (s : State) (ctx core code n : Nat) : (s.count ctx core code n).outbox = s.outbox := rfl
@[simp] theorem State.count_parked (s : State) (ctx core code n : Nat) : (s.count ctx core code n).parked = s.parked := rfl
@[simp] theorem State.count_transit (s : State) (ctx core code n : Nat) : (s.count ctx core code n).transit = s.transit := rfl
@[simp] theorem State.count_freed (s : State) (ctx core code n : Nat) : (s.count ctx core code n).freed = s.freed := rfl
@[simp] theorem State.count_linksDown (s : State) (ctx core code n : Nat) : (s.count ctx core code n).linksDown = s.linksDown := rfl
@[simp] theorem State.count_slotWrites (s : State) (ctx core code n : Nat) : (s.count ctx core code n).slotWrites = s.slotWrites := rfl
@[simp] theorem State.count_reds (s : State) (ctx core code n : Nat) : (s.count ctx core code n).reds = s.reds := rfl
@[simp] theorem State.count_tenants (s : State) (ctx core code n : Nat) : (s.count ctx core code n).tenants = s.tenants := rfl
@[simp] theorem State.count_pcnt (s : State) (ctx core code n : Nat) : (s.count ctx core code n).pcnt = s.pcnt := rfl
@[simp] theorem State.count_errLog (s : State) (ctx core code n : Nat) : (s.count ctx core code n).errLog = s.errLog := rfl
@[simp] theorem State.count_pkg (s : State) (ctx core code n : Nat) : (s.count ctx core code n).pkg = s.pkg := rfl

@[simp] theorem State.countMe_now (s : State) (code n : Nat) : (s.countMe code n).now = s.now := rfl
@[simp] theorem State.countMe_phase (s : State) (code n : Nat) : (s.countMe code n).phase = s.phase := rfl
@[simp] theorem State.countMe_agenda (s : State) (code n : Nat) : (s.countMe code n).agenda = s.agenda := rfl
@[simp] theorem State.countMe_cur (s : State) (code n : Nat) : (s.countMe code n).cur = s.cur := rfl
@[simp] theorem State.countMe_turn (s : State) (code n : Nat) : (s.countMe code n).turn = s.turn := rfl
@[simp] theorem State.countMe_fresh (s : State) (code n : Nat) : (s.countMe code n).fresh = s.fresh := rfl
@[simp] theorem State.countMe_serial (s : State) (code n : Nat) : (s.countMe code n).serial = s.serial := rfl
@[simp] theorem State.countMe_mem (s : State) (code n : Nat) : (s.countMe code n).mem = s.mem := rfl
@[simp] theorem State.countMe_badSec (s : State) (code n : Nat) : (s.countMe code n).badSec = s.badSec := rfl
@[simp] theorem State.countMe_groups (s : State) (code n : Nat) : (s.countMe code n).groups = s.groups := rfl
@[simp] theorem State.countMe_cores (s : State) (code n : Nat) : (s.countMe code n).cores = s.cores := rfl
@[simp] theorem State.countMe_crews (s : State) (code n : Nat) : (s.countMe code n).crews = s.crews := rfl
@[simp] theorem State.countMe_plans (s : State) (code n : Nat) : (s.countMe code n).plans = s.plans := rfl
@[simp] theorem State.countMe_ctxs (s : State) (code n : Nat) : (s.countMe code n).ctxs = s.ctxs := rfl
@[simp] theorem State.countMe_stlb (s : State) (code n : Nat) : (s.countMe code n).stlb = s.stlb := rfl
@[simp] theorem State.countMe_walks (s : State) (code n : Nat) : (s.countMe code n).walks = s.walks := rfl
@[simp] theorem State.countMe_missq (s : State) (code n : Nat) : (s.countMe code n).missq = s.missq := rfl
@[simp] theorem State.countMe_wcache (s : State) (code n : Nat) : (s.countMe code n).wcache = s.wcache := rfl
@[simp] theorem State.countMe_l2 (s : State) (code n : Nat) : (s.countMe code n).l2 = s.l2 := rfl
@[simp] theorem State.countMe_dir (s : State) (code n : Nat) : (s.countMe code n).dir = s.dir := rfl
@[simp] theorem State.countMe_bypass (s : State) (code n : Nat) : (s.countMe code n).bypass = s.bypass := rfl
@[simp] theorem State.countMe_watches (s : State) (code n : Nat) : (s.countMe code n).watches = s.watches := rfl
@[simp] theorem State.countMe_flights (s : State) (code n : Nat) : (s.countMe code n).flights = s.flights := rfl
@[simp] theorem State.countMe_grants (s : State) (code n : Nat) : (s.countMe code n).grants = s.grants := rfl
@[simp] theorem State.countMe_beacon (s : State) (code n : Nat) : (s.countMe code n).beacon = s.beacon := rfl
@[simp] theorem State.countMe_resvs (s : State) (code n : Nat) : (s.countMe code n).resvs = s.resvs := rfl
@[simp] theorem State.countMe_den (s : State) (code n : Nat) : (s.countMe code n).den = s.den := rfl
@[simp] theorem State.countMe_denFree (s : State) (code n : Nat) : (s.countMe code n).denFree = s.denFree := rfl
@[simp] theorem State.countMe_denNext (s : State) (code n : Nat) : (s.countMe code n).denNext = s.denNext := rfl
@[simp] theorem State.countMe_refused (s : State) (code n : Nat) : (s.countMe code n).refused = s.refused := rfl
@[simp] theorem State.countMe_dlvs (s : State) (code n : Nat) : (s.countMe code n).dlvs = s.dlvs := rfl
@[simp] theorem State.countMe_queues (s : State) (code n : Nat) : (s.countMe code n).queues = s.queues := rfl
@[simp] theorem State.countMe_invals (s : State) (code n : Nat) : (s.countMe code n).invals = s.invals := rfl
@[simp] theorem State.countMe_funcs (s : State) (code n : Nat) : (s.countMe code n).funcs = s.funcs := rfl
@[simp] theorem State.countMe_msix (s : State) (code n : Nat) : (s.countMe code n).msix = s.msix := rfl
@[simp] theorem State.countMe_answers (s : State) (code n : Nat) : (s.countMe code n).answers = s.answers := rfl
@[simp] theorem State.countMe_hub (s : State) (code n : Nat) : (s.countMe code n).hub = s.hub := rfl
@[simp] theorem State.countMe_posted (s : State) (code n : Nat) : (s.countMe code n).posted = s.posted := rfl
@[simp] theorem State.countMe_reads (s : State) (code n : Nat) : (s.countMe code n).reads = s.reads := rfl
@[simp] theorem State.countMe_ports (s : State) (code n : Nat) : (s.countMe code n).ports = s.ports := rfl
@[simp] theorem State.countMe_targets (s : State) (code n : Nat) : (s.countMe code n).targets = s.targets := rfl
@[simp] theorem State.countMe_sources (s : State) (code n : Nat) : (s.countMe code n).sources = s.sources := rfl
@[simp] theorem State.countMe_outbox (s : State) (code n : Nat) : (s.countMe code n).outbox = s.outbox := rfl
@[simp] theorem State.countMe_parked (s : State) (code n : Nat) : (s.countMe code n).parked = s.parked := rfl
@[simp] theorem State.countMe_transit (s : State) (code n : Nat) : (s.countMe code n).transit = s.transit := rfl
@[simp] theorem State.countMe_freed (s : State) (code n : Nat) : (s.countMe code n).freed = s.freed := rfl
@[simp] theorem State.countMe_linksDown (s : State) (code n : Nat) : (s.countMe code n).linksDown = s.linksDown := rfl
@[simp] theorem State.countMe_slotWrites (s : State) (code n : Nat) : (s.countMe code n).slotWrites = s.slotWrites := rfl
@[simp] theorem State.countMe_reds (s : State) (code n : Nat) : (s.countMe code n).reds = s.reds := rfl
@[simp] theorem State.countMe_tenants (s : State) (code n : Nat) : (s.countMe code n).tenants = s.tenants := rfl
@[simp] theorem State.countMe_pcnt (s : State) (code n : Nat) : (s.countMe code n).pcnt = s.pcnt := rfl
@[simp] theorem State.countMe_errLog (s : State) (code n : Nat) : (s.countMe code n).errLog = s.errLog := rfl
@[simp] theorem State.countMe_pkg (s : State) (code n : Nat) : (s.countMe code n).pkg = s.pkg := rfl

/-! ### What an accessor reads -/

@[simp] theorem State.grp_setGrp_self (s : State) (k : Nat) (g : Group) : (s.setGrp k g).grp k = g := getT_setT_self ..

theorem State.grp_setGrp (s : State) (k j : Nat) (g : Group) : (s.setGrp k g).grp j = if j = k then g else s.grp j := getT_setT ..

theorem State.grp_setGrp_ne (s : State) {k j : Nat} (g : Group) (h : j ≠ k) : (s.setGrp k g).grp j = s.grp j := getT_setT_ne _ _ _ h

@[simp] theorem State.setMe_me (s : State) (g : Group) : (s.setMe g).me = g := getT_setT_self ..

theorem State.grp_setMe_ne (s : State) {j : Nat} (g : Group) (h : j ≠ s.cur) : (s.setMe g).grp j = s.grp j := getT_setT_ne _ _ _ h

@[simp] theorem State.setMe_setMe (s : State) (g h : Group) : (s.setMe g).setMe h = s.setMe h := by
  simp only [State.setMe, State.setGrp, setT_setT]

@[simp] theorem State.setGrp_setGrp (s : State) (k : Nat) (g h : Group) : (s.setGrp k g).setGrp k h = s.setGrp k h := by
  simp only [State.setGrp, setT_setT]

@[simp] theorem State.setMe_core (s : State) (g : Group) (c : Nat) : (s.setMe g).core c = s.core c := rfl
@[simp] theorem State.setMe_ctx (s : State) (g : Group) (c : Nat) : (s.setMe g).ctx c = s.ctx c := rfl
@[simp] theorem State.setGrp_core (s : State) (k : Nat) (g : Group) (c : Nat) : (s.setGrp k g).core c = s.core c := rfl
@[simp] theorem State.setGrp_ctx (s : State) (k : Nat) (g : Group) (c : Nat) : (s.setGrp k g).ctx c = s.ctx c := rfl
@[simp] theorem State.countMe_me (s : State) (code n : Nat) : (s.countMe code n).me = s.me := rfl
@[simp] theorem State.countMe_grp (s : State) (code n k : Nat) : (s.countMe code n).grp k = s.grp k := rfl
@[simp] theorem State.countMe_core (s : State) (code n k : Nat) : (s.countMe code n).core k = s.core k := rfl
@[simp] theorem State.countMe_ctx (s : State) (code n k : Nat) : (s.countMe code n).ctx k = s.ctx k := rfl
@[simp] theorem State.count_grp (s : State) (a b c n k : Nat) : (s.count a b c n).grp k = s.grp k := rfl
@[simp] theorem State.count_core (s : State) (a b c n k : Nat) : (s.count a b c n).core k = s.core k := rfl
@[simp] theorem State.count_ctx (s : State) (a b c n k : Nat) : (s.count a b c n).ctx k = s.ctx k := rfl
@[simp] theorem State.count_me (s : State) (a b c n : Nat) : (s.count a b c n).me = s.me := rfl

@[simp] theorem State.core_setCore_self (s : State) (k : Nat) (c : Core) : (s.setCore k c).core k = c := getT_setT_self ..

theorem State.core_setCore (s : State) (k j : Nat) (c : Core) : (s.setCore k c).core j = if j = k then c else s.core j := getT_setT ..

theorem State.core_setCore_ne (s : State) {k j : Nat} (c : Core) (h : j ≠ k) : (s.setCore k c).core j = s.core j := getT_setT_ne _ _ _ h

@[simp] theorem State.setCore_grp (s : State) (k : Nat) (c : Core) (j : Nat) : (s.setCore k c).grp j = s.grp j := rfl
@[simp] theorem State.setCore_me (s : State) (k : Nat) (c : Core) : (s.setCore k c).me = s.me := rfl
@[simp] theorem State.setCore_ctx (s : State) (k : Nat) (c : Core) (j : Nat) : (s.setCore k c).ctx j = s.ctx j := rfl

@[simp] theorem State.ctx_setCtx_self (s : State) (k : Nat) (c : Context) : (s.setCtx k c).ctx k = c := getT_setT_self ..

theorem State.ctx_setCtx (s : State) (k j : Nat) (c : Context) : (s.setCtx k c).ctx j = if j = k then c else s.ctx j := getT_setT ..

@[simp] theorem State.setCtx_grp (s : State) (k : Nat) (c : Context) (j : Nat) : (s.setCtx k c).grp j = s.grp j := rfl
@[simp] theorem State.setCtx_me (s : State) (k : Nat) (c : Context) : (s.setCtx k c).me = s.me := rfl
@[simp] theorem State.setCtx_core (s : State) (k : Nat) (c : Context) (j : Nat) : (s.setCtx k c).core j = s.core j := rfl

end Sys2Proof.Machine
end

