-- ==== Sys2Proof/Laws/Ops.lean ====
section
/-! SUPPORT. The laws of what precedes and follows an instruction: the checks, the end, and the shared shapes of computing instructions. -/
namespace Sys2Proof.Machine

/-! ### Chunks and the group around them -/

theorem closeChunk_cases (g : Group) :
    closeChunk g = g ∨ (∃ c, g.opn = some c ∧ g.clo = none ∧ closeChunk g = { g with clo := some c, opn := none }) ∨
    closeChunk g = { g with closeReq := true } ∨ closeChunk g = { g with opn := none } := by
  unfold closeChunk
  split
  · exact .inl rfl
  · rename_i c h
    split
    · split
      · rename_i h2; exact .inr (.inl ⟨c, h, h2, rfl⟩)
      · exact .inr (.inr (.inl rfl))
    · exact .inr (.inr (.inr rfl))
@[simp] theorem closeChunk_live (g : Group) : (closeChunk g).live = g.live := by
  rcases closeChunk_cases g with h | ⟨c, _, _, h⟩ | h | h <;> rw [h]
@[simp] theorem closeChunk_place (g : Group) : (closeChunk g).place = g.place := by
  rcases closeChunk_cases g with h | ⟨c, _, _, h⟩ | h | h <;> rw [h]
@[simp] theorem closeChunk_regs (g : Group) : (closeChunk g).regs = g.regs := by
  rcases closeChunk_cases g with h | ⟨c, _, _, h⟩ | h | h <;> rw [h]
@[simp] theorem closeChunk_pc (g : Group) : (closeChunk g).pc = g.pc := by
  rcases closeChunk_cases g with h | ⟨c, _, _, h⟩ | h | h <;> rw [h]
@[simp] theorem closeChunk_entry (g : Group) : (closeChunk g).entry = g.entry := by
  rcases closeChunk_cases g with h | ⟨c, _, _, h⟩ | h | h <;> rw [h]
@[simp] theorem closeChunk_clause (g : Group) : (closeChunk g).clause = g.clause := by
  rcases closeChunk_cases g with h | ⟨c, _, _, h⟩ | h | h <;> rw [h]
@[simp] theorem closeChunk_status (g : Group) : (closeChunk g).status = g.status := by
  rcases closeChunk_cases g with h | ⟨c, _, _, h⟩ | h | h <;> rw [h]
@[simp] theorem closeChunk_hold (g : Group) : (closeChunk g).hold = g.hold := by
  rcases closeChunk_cases g with h | ⟨c, _, _, h⟩ | h | h <;> rw [h]
@[simp] theorem closeChunk_w (g : Group) : (closeChunk g).w = g.w := by
  rcases closeChunk_cases g with h | ⟨c, _, _, h⟩ | h | h <;> rw [h]
@[simp] theorem closeChunk_yielded (g : Group) : (closeChunk g).yielded = g.yielded := by
  rcases closeChunk_cases g with h | ⟨c, _, _, h⟩ | h | h <;> rw [h]
@[simp] theorem closeChunk_last (g : Group) : (closeChunk g).last = g.last := by
  rcases closeChunk_cases g with h | ⟨c, _, _, h⟩ | h | h <;> rw [h]
@[simp] theorem closeChunk_holds (g : Group) : (closeChunk g).holds = g.holds := by
  rcases closeChunk_cases g with h | ⟨c, _, _, h⟩ | h | h <;> rw [h]
@[simp] theorem closeChunk_watch (g : Group) : (closeChunk g).watch = g.watch := by
  rcases closeChunk_cases g with h | ⟨c, _, _, h⟩ | h | h <;> rw [h]
@[simp] theorem closeChunk_loads (g : Group) : (closeChunk g).loads = g.loads := by
  rcases closeChunk_cases g with h | ⟨c, _, _, h⟩ | h | h <;> rw [h]
@[simp] theorem closeChunk_stores (g : Group) : (closeChunk g).stores = g.stores := by
  rcases closeChunk_cases g with h | ⟨c, _, _, h⟩ | h | h <;> rw [h]
@[simp] theorem closeChunk_dlv (g : Group) : (closeChunk g).dlv = g.dlv := by
  rcases closeChunk_cases g with h | ⟨c, _, _, h⟩ | h | h <;> rw [h]
@[simp] theorem closeChunk_mcmd (g : Group) : (closeChunk g).mcmd = g.mcmd := by
  rcases closeChunk_cases g with h | ⟨c, _, _, h⟩ | h | h <;> rw [h]
@[simp] theorem closeChunk_rem (g : Group) : (closeChunk g).rem = g.rem := by
  rcases closeChunk_cases g with h | ⟨c, _, _, h⟩ | h | h <;> rw [h]
@[simp] theorem closeChunk_ask (g : Group) : (closeChunk g).ask = g.ask := by
  rcases closeChunk_cases g with h | ⟨c, _, _, h⟩ | h | h <;> rw [h]
@[simp] theorem closeChunk_sending (g : Group) : (closeChunk g).sending = g.sending := by
  rcases closeChunk_cases g with h | ⟨c, _, _, h⟩ | h | h <;> rw [h]
@[simp] theorem closeChunk_cno (g : Group) : (closeChunk g).cno = g.cno := by
  rcases closeChunk_cases g with h | ⟨c, _, _, h⟩ | h | h <;> rw [h]
@[simp] theorem closeChunk_shut (g : Group) : (closeChunk g).shut = g.shut := by
  rcases closeChunk_cases g with h | ⟨c, _, _, h⟩ | h | h <;> rw [h]
@[simp] theorem closeChunk_wakeYield (g : Group) : (closeChunk g).wakeYield = g.wakeYield := by
  rcases closeChunk_cases g with h | ⟨c, _, _, h⟩ | h | h <;> rw [h]
@[simp] theorem closeChunk_wait (g : Group) : (closeChunk g).wait = g.wait := by
  rcases closeChunk_cases g with h | ⟨c, _, _, h⟩ | h | h <;> rw [h]
@[simp] theorem closeChunk_pend (g : Group) : (closeChunk g).pend = g.pend := by
  rcases closeChunk_cases g with h | ⟨c, _, _, h⟩ | h | h <;> rw [h]
@[simp] theorem closeChunk_exiting (g : Group) : (closeChunk g).exiting = g.exiting := by
  rcases closeChunk_cases g with h | ⟨c, _, _, h⟩ | h | h <;> rw [h]
@[simp] theorem closeChunk_entering (g : Group) : (closeChunk g).entering = g.entering := by
  rcases closeChunk_cases g with h | ⟨c, _, _, h⟩ | h | h <;> rw [h]
@[simp] theorem closeChunk_xlate (g : Group) : (closeChunk g).xlate = g.xlate := by
  rcases closeChunk_cases g with h | ⟨c, _, _, h⟩ | h | h <;> rw [h]
@[simp] theorem closeChunk_image (g : Group) : (closeChunk g).image = g.image := by
  rcases closeChunk_cases g with h | ⟨c, _, _, h⟩ | h | h <;> rw [h]
@[simp] theorem closeChunk_nextId (g : Group) : (closeChunk g).nextId = g.nextId := by
  rcases closeChunk_cases g with h | ⟨c, _, _, h⟩ | h | h <;> rw [h]
@[simp] theorem closeChunk_banked (g : Group) : (closeChunk g).banked = g.banked := by
  rcases closeChunk_cases g with h | ⟨c, _, _, h⟩ | h | h <;> rw [h]
@[simp] theorem closeChunk_held (g : Group) : (closeChunk g).held = g.held := by
  rcases closeChunk_cases g with h | ⟨c, _, _, h⟩ | h | h <;> rw [h]
@[simp] theorem closeChunk_idle (g : Group) : (closeChunk g).idle = g.idle := by
  rcases closeChunk_cases g with h | ⟨c, _, _, h⟩ | h | h <;> rw [h]
@[simp] theorem closeChunk_debt (g : Group) : (closeChunk g).debt = g.debt := by
  rcases closeChunk_cases g with h | ⟨c, _, _, h⟩ | h | h <;> rw [h]
@[simp] theorem closeChunk_again (g : Group) : (closeChunk g).again = g.again := by
  rcases closeChunk_cases g with h | ⟨c, _, _, h⟩ | h | h <;> rw [h]
@[simp] theorem openChunk_live (g : Group) : (openChunk g).live = g.live := by
  unfold openChunk; split <;> rfl
@[simp] theorem openChunk_place (g : Group) : (openChunk g).place = g.place := by
  unfold openChunk; split <;> rfl
@[simp] theorem openChunk_regs (g : Group) : (openChunk g).regs = g.regs := by
  unfold openChunk; split <;> rfl
@[simp] theorem openChunk_pc (g : Group) : (openChunk g).pc = g.pc := by
  unfold openChunk; split <;> rfl
@[simp] theorem openChunk_entry (g : Group) : (openChunk g).entry = g.entry := by
  unfold openChunk; split <;> rfl
@[simp] theorem openChunk_clause (g : Group) : (openChunk g).clause = g.clause := by
  unfold openChunk; split <;> rfl
@[simp] theorem openChunk_status (g : Group) : (openChunk g).status = g.status := by
  unfold openChunk; split <;> rfl
@[simp] theorem openChunk_hold (g : Group) : (openChunk g).hold = g.hold := by
  unfold openChunk; split <;> rfl
@[simp] theorem openChunk_w (g : Group) : (openChunk g).w = g.w := by
  unfold openChunk; split <;> rfl
@[simp] theorem openChunk_yielded (g : Group) : (openChunk g).yielded = g.yielded := by
  unfold openChunk; split <;> rfl
@[simp] theorem openChunk_last (g : Group) : (openChunk g).last = g.last := by
  unfold openChunk; split <;> rfl
@[simp] theorem openChunk_holds (g : Group) : (openChunk g).holds = g.holds := by
  unfold openChunk; split <;> rfl
@[simp] theorem openChunk_watch (g : Group) : (openChunk g).watch = g.watch := by
  unfold openChunk; split <;> rfl
@[simp] theorem openChunk_loads (g : Group) : (openChunk g).loads = g.loads := by
  unfold openChunk; split <;> rfl
@[simp] theorem openChunk_stores (g : Group) : (openChunk g).stores = g.stores := by
  unfold openChunk; split <;> rfl
@[simp] theorem openChunk_dlv (g : Group) : (openChunk g).dlv = g.dlv := by
  unfold openChunk; split <;> rfl
@[simp] theorem openChunk_mcmd (g : Group) : (openChunk g).mcmd = g.mcmd := by
  unfold openChunk; split <;> rfl
@[simp] theorem openChunk_rem (g : Group) : (openChunk g).rem = g.rem := by
  unfold openChunk; split <;> rfl
@[simp] theorem openChunk_ask (g : Group) : (openChunk g).ask = g.ask := by
  unfold openChunk; split <;> rfl
@[simp] theorem openChunk_sending (g : Group) : (openChunk g).sending = g.sending := by
  unfold openChunk; split <;> rfl
@[simp] theorem openChunk_clo (g : Group) : (openChunk g).clo = g.clo := by
  unfold openChunk; split <;> rfl
@[simp] theorem openChunk_closeReq (g : Group) : (openChunk g).closeReq = g.closeReq := by
  unfold openChunk; split <;> rfl
@[simp] theorem openChunk_shut (g : Group) : (openChunk g).shut = g.shut := by
  unfold openChunk; split <;> rfl
@[simp] theorem openChunk_wakeYield (g : Group) : (openChunk g).wakeYield = g.wakeYield := by
  unfold openChunk; split <;> rfl
@[simp] theorem openChunk_wait (g : Group) : (openChunk g).wait = g.wait := by
  unfold openChunk; split <;> rfl
@[simp] theorem openChunk_pend (g : Group) : (openChunk g).pend = g.pend := by
  unfold openChunk; split <;> rfl
@[simp] theorem openChunk_exiting (g : Group) : (openChunk g).exiting = g.exiting := by
  unfold openChunk; split <;> rfl
@[simp] theorem openChunk_entering (g : Group) : (openChunk g).entering = g.entering := by
  unfold openChunk; split <;> rfl
@[simp] theorem openChunk_xlate (g : Group) : (openChunk g).xlate = g.xlate := by
  unfold openChunk; split <;> rfl
@[simp] theorem openChunk_image (g : Group) : (openChunk g).image = g.image := by
  unfold openChunk; split <;> rfl
@[simp] theorem openChunk_nextId (g : Group) : (openChunk g).nextId = g.nextId := by
  unfold openChunk; split <;> rfl
@[simp] theorem openChunk_banked (g : Group) : (openChunk g).banked = g.banked := by
  unfold openChunk; split <;> rfl
@[simp] theorem openChunk_held (g : Group) : (openChunk g).held = g.held := by
  unfold openChunk; split <;> rfl
@[simp] theorem openChunk_idle (g : Group) : (openChunk g).idle = g.idle := by
  unfold openChunk; split <;> rfl
@[simp] theorem openChunk_debt (g : Group) : (openChunk g).debt = g.debt := by
  unfold openChunk; split <;> rfl
@[simp] theorem Group.onOpen_live (g : Group) (f : Chunk → Chunk) : (g.onOpen f).live = g.live := rfl
@[simp] theorem Group.onOpen_place (g : Group) (f : Chunk → Chunk) : (g.onOpen f).place = g.place := rfl
@[simp] theorem Group.onOpen_regs (g : Group) (f : Chunk → Chunk) : (g.onOpen f).regs = g.regs := rfl
@[simp] theorem Group.onOpen_pc (g : Group) (f : Chunk → Chunk) : (g.onOpen f).pc = g.pc := rfl
@[simp] theorem Group.onOpen_entry (g : Group) (f : Chunk → Chunk) : (g.onOpen f).entry = g.entry := rfl
@[simp] theorem Group.onOpen_clause (g : Group) (f : Chunk → Chunk) : (g.onOpen f).clause = g.clause := rfl
@[simp] theorem Group.onOpen_status (g : Group) (f : Chunk → Chunk) : (g.onOpen f).status = g.status := rfl
@[simp] theorem Group.onOpen_hold (g : Group) (f : Chunk → Chunk) : (g.onOpen f).hold = g.hold := rfl
@[simp] theorem Group.onOpen_w (g : Group) (f : Chunk → Chunk) : (g.onOpen f).w = g.w := rfl
@[simp] theorem Group.onOpen_yielded (g : Group) (f : Chunk → Chunk) : (g.onOpen f).yielded = g.yielded := rfl
@[simp] theorem Group.onOpen_last (g : Group) (f : Chunk → Chunk) : (g.onOpen f).last = g.last := rfl
@[simp] theorem Group.onOpen_holds (g : Group) (f : Chunk → Chunk) : (g.onOpen f).holds = g.holds := rfl
@[simp] theorem Group.onOpen_watch (g : Group) (f : Chunk → Chunk) : (g.onOpen f).watch = g.watch := rfl
@[simp] theorem Group.onOpen_loads (g : Group) (f : Chunk → Chunk) : (g.onOpen f).loads = g.loads := rfl
@[simp] theorem Group.onOpen_stores (g : Group) (f : Chunk → Chunk) : (g.onOpen f).stores = g.stores := rfl
@[simp] theorem Group.onOpen_dlv (g : Group) (f : Chunk → Chunk) : (g.onOpen f).dlv = g.dlv := rfl
@[simp] theorem Group.onOpen_mcmd (g : Group) (f : Chunk → Chunk) : (g.onOpen f).mcmd = g.mcmd := rfl
@[simp] theorem Group.onOpen_rem (g : Group) (f : Chunk → Chunk) : (g.onOpen f).rem = g.rem := rfl
@[simp] theorem Group.onOpen_ask (g : Group) (f : Chunk → Chunk) : (g.onOpen f).ask = g.ask := rfl
@[simp] theorem Group.onOpen_sending (g : Group) (f : Chunk → Chunk) : (g.onOpen f).sending = g.sending := rfl
@[simp] theorem Group.onOpen_clo (g : Group) (f : Chunk → Chunk) : (g.onOpen f).clo = g.clo := rfl
@[simp] theorem Group.onOpen_closeReq (g : Group) (f : Chunk → Chunk) : (g.onOpen f).closeReq = g.closeReq := rfl
@[simp] theorem Group.onOpen_cno (g : Group) (f : Chunk → Chunk) : (g.onOpen f).cno = g.cno := rfl
@[simp] theorem Group.onOpen_shut (g : Group) (f : Chunk → Chunk) : (g.onOpen f).shut = g.shut := rfl
@[simp] theorem Group.onOpen_wakeYield (g : Group) (f : Chunk → Chunk) : (g.onOpen f).wakeYield = g.wakeYield := rfl
@[simp] theorem Group.onOpen_wait (g : Group) (f : Chunk → Chunk) : (g.onOpen f).wait = g.wait := rfl
@[simp] theorem Group.onOpen_pend (g : Group) (f : Chunk → Chunk) : (g.onOpen f).pend = g.pend := rfl
@[simp] theorem Group.onOpen_exiting (g : Group) (f : Chunk → Chunk) : (g.onOpen f).exiting = g.exiting := rfl
@[simp] theorem Group.onOpen_entering (g : Group) (f : Chunk → Chunk) : (g.onOpen f).entering = g.entering := rfl
@[simp] theorem Group.onOpen_xlate (g : Group) (f : Chunk → Chunk) : (g.onOpen f).xlate = g.xlate := rfl
@[simp] theorem Group.onOpen_image (g : Group) (f : Chunk → Chunk) : (g.onOpen f).image = g.image := rfl
@[simp] theorem Group.onOpen_nextId (g : Group) (f : Chunk → Chunk) : (g.onOpen f).nextId = g.nextId := rfl
@[simp] theorem Group.onOpen_banked (g : Group) (f : Chunk → Chunk) : (g.onOpen f).banked = g.banked := rfl
@[simp] theorem Group.onOpen_held (g : Group) (f : Chunk → Chunk) : (g.onOpen f).held = g.held := rfl
@[simp] theorem Group.onOpen_idle (g : Group) (f : Chunk → Chunk) : (g.onOpen f).idle = g.idle := rfl
@[simp] theorem Group.onOpen_debt (g : Group) (f : Chunk → Chunk) : (g.onOpen f).debt = g.debt := rfl
@[simp] theorem Group.onOpen_again (g : Group) (f : Chunk → Chunk) : (g.onOpen f).again = g.again := rfl
@[simp] theorem issuing_me_live (s : State) : (issuing s).me.live = s.me.live := by
  unfold issuing; split <;> simp
@[simp] theorem issuing_me_place (s : State) : (issuing s).me.place = s.me.place := by
  unfold issuing; split <;> simp
@[simp] theorem issuing_me_regs (s : State) : (issuing s).me.regs = s.me.regs := by
  unfold issuing; split <;> simp
@[simp] theorem issuing_me_pc (s : State) : (issuing s).me.pc = s.me.pc := by
  unfold issuing; split <;> simp
@[simp] theorem issuing_me_entry (s : State) : (issuing s).me.entry = s.me.entry := by
  unfold issuing; split <;> simp
@[simp] theorem issuing_me_clause (s : State) : (issuing s).me.clause = s.me.clause := by
  unfold issuing; split <;> simp
@[simp] theorem issuing_me_status (s : State) : (issuing s).me.status = s.me.status := by
  unfold issuing; split <;> simp
@[simp] theorem issuing_me_w (s : State) : (issuing s).me.w = s.me.w := by
  unfold issuing; split <;> simp
@[simp] theorem issuing_me_yielded (s : State) : (issuing s).me.yielded = s.me.yielded := by
  unfold issuing; split <;> simp
@[simp] theorem issuing_me_last (s : State) : (issuing s).me.last = s.me.last := by
  unfold issuing; split <;> simp
@[simp] theorem issuing_me_holds (s : State) : (issuing s).me.holds = s.me.holds := by
  unfold issuing; split <;> simp
@[simp] theorem issuing_me_watch (s : State) : (issuing s).me.watch = s.me.watch := by
  unfold issuing; split <;> simp
@[simp] theorem issuing_me_loads (s : State) : (issuing s).me.loads = s.me.loads := by
  unfold issuing; split <;> simp
@[simp] theorem issuing_me_stores (s : State) : (issuing s).me.stores = s.me.stores := by
  unfold issuing; split <;> simp
@[simp] theorem issuing_me_dlv (s : State) : (issuing s).me.dlv = s.me.dlv := by
  unfold issuing; split <;> simp
@[simp] theorem issuing_me_mcmd (s : State) : (issuing s).me.mcmd = s.me.mcmd := by
  unfold issuing; split <;> simp
@[simp] theorem issuing_me_rem (s : State) : (issuing s).me.rem = s.me.rem := by
  unfold issuing; split <;> simp
@[simp] theorem issuing_me_ask (s : State) : (issuing s).me.ask = s.me.ask := by
  unfold issuing; split <;> simp
@[simp] theorem issuing_me_sending (s : State) : (issuing s).me.sending = s.me.sending := by
  unfold issuing; split <;> simp
@[simp] theorem issuing_me_shut (s : State) : (issuing s).me.shut = s.me.shut := by
  unfold issuing; split <;> simp
@[simp] theorem issuing_me_wakeYield (s : State) : (issuing s).me.wakeYield = s.me.wakeYield := by
  unfold issuing; split <;> simp
@[simp] theorem issuing_me_wait (s : State) : (issuing s).me.wait = s.me.wait := by
  unfold issuing; split <;> simp
@[simp] theorem issuing_me_pend (s : State) : (issuing s).me.pend = s.me.pend := by
  unfold issuing; split <;> simp
@[simp] theorem issuing_me_exiting (s : State) : (issuing s).me.exiting = s.me.exiting := by
  unfold issuing; split <;> simp
@[simp] theorem issuing_me_entering (s : State) : (issuing s).me.entering = s.me.entering := by
  unfold issuing; split <;> simp
@[simp] theorem issuing_me_xlate (s : State) : (issuing s).me.xlate = s.me.xlate := by
  unfold issuing; split <;> simp
@[simp] theorem issuing_me_image (s : State) : (issuing s).me.image = s.me.image := by
  unfold issuing; split <;> simp
@[simp] theorem issuing_me_nextId (s : State) : (issuing s).me.nextId = s.me.nextId := by
  unfold issuing; split <;> simp
@[simp] theorem issuing_me_banked (s : State) : (issuing s).me.banked = s.me.banked := by
  unfold issuing; split <;> simp
@[simp] theorem issuing_me_held (s : State) : (issuing s).me.held = s.me.held := by
  unfold issuing; split <;> simp
@[simp] theorem issuing_me_idle (s : State) : (issuing s).me.idle = s.me.idle := by
  unfold issuing; split <;> simp
@[simp] theorem issuing_me_debt (s : State) : (issuing s).me.debt = s.me.debt := by
  unfold issuing; split <;> simp
@[simp] theorem issuing_me_again (s : State) : (issuing s).me.again = s.me.again := by
  unfold issuing; split <;> simp
@[simp] theorem enteredGroup_live (i : Instr) (s : State) : (enteredGroup i s).live = s.me.live := by
  unfold enteredGroup; split <;> simp
@[simp] theorem enteredGroup_place (i : Instr) (s : State) : (enteredGroup i s).place = s.me.place := by
  unfold enteredGroup; split <;> simp
@[simp] theorem enteredGroup_regs (i : Instr) (s : State) : (enteredGroup i s).regs = s.me.regs := by
  unfold enteredGroup; split <;> simp
@[simp] theorem enteredGroup_pc (i : Instr) (s : State) : (enteredGroup i s).pc = s.me.pc := by
  unfold enteredGroup; split <;> simp
@[simp] theorem enteredGroup_entry (i : Instr) (s : State) : (enteredGroup i s).entry = s.me.entry := by
  unfold enteredGroup; split <;> simp
@[simp] theorem enteredGroup_clause (i : Instr) (s : State) : (enteredGroup i s).clause = s.me.clause := by
  unfold enteredGroup; split <;> simp
@[simp] theorem enteredGroup_status (i : Instr) (s : State) : (enteredGroup i s).status = s.me.status := by
  unfold enteredGroup; split <;> simp
@[simp] theorem enteredGroup_w (i : Instr) (s : State) : (enteredGroup i s).w = s.me.w := by
  unfold enteredGroup; split <;> simp
@[simp] theorem enteredGroup_yielded (i : Instr) (s : State) : (enteredGroup i s).yielded = s.me.yielded := by
  unfold enteredGroup; split <;> simp
@[simp] theorem enteredGroup_last (i : Instr) (s : State) : (enteredGroup i s).last = s.me.last := by
  unfold enteredGroup; split <;> simp
@[simp] theorem enteredGroup_holds (i : Instr) (s : State) : (enteredGroup i s).holds = s.me.holds := by
  unfold enteredGroup; split <;> simp
@[simp] theorem enteredGroup_watch (i : Instr) (s : State) : (enteredGroup i s).watch = s.me.watch := by
  unfold enteredGroup; split <;> simp
@[simp] theorem enteredGroup_loads (i : Instr) (s : State) : (enteredGroup i s).loads = s.me.loads := by
  unfold enteredGroup; split <;> simp
@[simp] theorem enteredGroup_stores (i : Instr) (s : State) : (enteredGroup i s).stores = s.me.stores := by
  unfold enteredGroup; split <;> simp
@[simp] theorem enteredGroup_dlv (i : Instr) (s : State) : (enteredGroup i s).dlv = s.me.dlv := by
  unfold enteredGroup; split <;> simp
@[simp] theorem enteredGroup_mcmd (i : Instr) (s : State) : (enteredGroup i s).mcmd = s.me.mcmd := by
  unfold enteredGroup; split <;> simp
@[simp] theorem enteredGroup_rem (i : Instr) (s : State) : (enteredGroup i s).rem = s.me.rem := by
  unfold enteredGroup; split <;> simp
@[simp] theorem enteredGroup_ask (i : Instr) (s : State) : (enteredGroup i s).ask = s.me.ask := by
  unfold enteredGroup; split <;> simp
@[simp] theorem enteredGroup_sending (i : Instr) (s : State) : (enteredGroup i s).sending = s.me.sending := by
  unfold enteredGroup; split <;> simp
@[simp] theorem enteredGroup_shut (i : Instr) (s : State) : (enteredGroup i s).shut = s.me.shut := by
  unfold enteredGroup; split <;> simp
@[simp] theorem enteredGroup_wakeYield (i : Instr) (s : State) : (enteredGroup i s).wakeYield = s.me.wakeYield := by
  unfold enteredGroup; split <;> simp
@[simp] theorem enteredGroup_wait (i : Instr) (s : State) : (enteredGroup i s).wait = s.me.wait := by
  unfold enteredGroup; split <;> simp
@[simp] theorem enteredGroup_pend (i : Instr) (s : State) : (enteredGroup i s).pend = s.me.pend := by
  unfold enteredGroup; split <;> simp
@[simp] theorem enteredGroup_exiting (i : Instr) (s : State) : (enteredGroup i s).exiting = s.me.exiting := by
  unfold enteredGroup; split <;> simp
@[simp] theorem enteredGroup_entering (i : Instr) (s : State) : (enteredGroup i s).entering = s.me.entering := by
  unfold enteredGroup; split <;> simp
@[simp] theorem enteredGroup_xlate (i : Instr) (s : State) : (enteredGroup i s).xlate = s.me.xlate := by
  unfold enteredGroup; split <;> simp
@[simp] theorem enteredGroup_image (i : Instr) (s : State) : (enteredGroup i s).image = s.me.image := by
  unfold enteredGroup; split <;> simp
@[simp] theorem enteredGroup_nextId (i : Instr) (s : State) : (enteredGroup i s).nextId = s.me.nextId := by
  unfold enteredGroup; split <;> simp
@[simp] theorem enteredGroup_banked (i : Instr) (s : State) : (enteredGroup i s).banked = s.me.banked := by
  unfold enteredGroup; split <;> simp
@[simp] theorem enteredGroup_held (i : Instr) (s : State) : (enteredGroup i s).held = s.me.held := by
  unfold enteredGroup; split <;> simp
@[simp] theorem enteredGroup_idle (i : Instr) (s : State) : (enteredGroup i s).idle = s.me.idle := by
  unfold enteredGroup; split <;> simp
@[simp] theorem enteredGroup_debt (i : Instr) (s : State) : (enteredGroup i s).debt = s.me.debt := by
  unfold enteredGroup; split <;> simp

/-! ### The checks -/

@[simp] theorem issuing_cur (s : State) : (issuing s).cur = s.cur := by unfold issuing; split <;> rfl

theorem issuing_setMe (s : State) (g : Group) : (issuing s).setMe g = s.setMe g := by
  unfold issuing; split <;> simp

@[simp] theorem entered_me (i : Instr) (s : State) : (entered i s).me = enteredGroup i s := State.setMe_me ..

/-- An instruction that enters acts in the state `entered`, for the threads `activeFor`. -/
theorem prelude_enters {i : Instr} {rows : Group → Nat} {s : State} (h : Enters i rows s) :
    prelude i rows s = .go (entered i s) (activeFor i s) := by
  have ha : ¬ setFor (useOf s.me.regs.fmt i) s.me.regs = 0 := h.active
  have hw := h.word
  have hl := h.loads
  have hc := h.closing
  have hf := h.allowed
  have h1 := h.limit
  have h2 := h.free
  have h3 := h.commit
  have h4 := h.room
  unfold issuing at h1 h2 h3 h4
  unfold useIn at hf h2 h3 h4
  unfold prelude entered enteredGroup activeFor useIn issuing
  simp only [h.live, h.pend, hw, hl, hc, ha, hf, Bool.not_true, Bool.false_eq_true, if_false]
  rw [if_neg (by simp [h1]), h2]
  simp only [enter]
  by_cases hi : (useOf s.me.regs.fmt i).irr = true
  · simp only [hi, if_true, h3 hi, Bool.false_eq_true, if_false, Pre.go.injEq, and_true]
    split <;> simp
  · have hi' : (useOf s.me.regs.fmt i).irr = false := by simpa using hi
    have h5 := h4 hi'
    simp only [hi', Bool.false_eq_true, if_false]
    split at h5 <;> rename_i hq <;> simp_all
/-! ### The end of an instruction -/

theorem leaveClause_cases (now : Nat) (g : Group) :
    leaveClause now g = { g with status := .waiting, entry := .header } ∨
    ∃ g', (g' = g ∨ g' = closeChunk g) ∧ leaveClause now g = { g' with
      clause := none, status := .waiting, entry := .header, last := now, yielded := (leaveClause now g).yielded, shut := g'.closeReq } := by
  unfold leaveClause
  split
  · exact .inl rfl
  · rename_i c h
    refine .inr ⟨if c.hdr.getLsbD 34 then closeChunk g else g, ?_, rfl⟩
    split
    · exact .inr rfl
    · exact .inl rfl

@[simp] theorem leaveClause_live (now : Nat) (g : Group) : (leaveClause now g).live = g.live := by
  rcases leaveClause_cases now g with h | ⟨g', h1 | h1, h⟩ <;> rw [h] <;> simp [h1]
@[simp] theorem leaveClause_place (now : Nat) (g : Group) : (leaveClause now g).place = g.place := by
  rcases leaveClause_cases now g with h | ⟨g', h1 | h1, h⟩ <;> rw [h] <;> simp [h1]
@[simp] theorem leaveClause_regs (now : Nat) (g : Group) : (leaveClause now g).regs = g.regs := by
  rcases leaveClause_cases now g with h | ⟨g', h1 | h1, h⟩ <;> rw [h] <;> simp [h1]
@[simp] theorem leaveClause_pc (now : Nat) (g : Group) : (leaveClause now g).pc = g.pc := by
  rcases leaveClause_cases now g with h | ⟨g', h1 | h1, h⟩ <;> rw [h] <;> simp [h1]
@[simp] theorem leaveClause_hold (now : Nat) (g : Group) : (leaveClause now g).hold = g.hold := by
  rcases leaveClause_cases now g with h | ⟨g', h1 | h1, h⟩ <;> rw [h] <;> simp [h1]
@[simp] theorem leaveClause_w (now : Nat) (g : Group) : (leaveClause now g).w = g.w := by
  rcases leaveClause_cases now g with h | ⟨g', h1 | h1, h⟩ <;> rw [h] <;> simp [h1]
@[simp] theorem leaveClause_holds (now : Nat) (g : Group) : (leaveClause now g).holds = g.holds := by
  rcases leaveClause_cases now g with h | ⟨g', h1 | h1, h⟩ <;> rw [h] <;> simp [h1]
@[simp] theorem leaveClause_watch (now : Nat) (g : Group) : (leaveClause now g).watch = g.watch := by
  rcases leaveClause_cases now g with h | ⟨g', h1 | h1, h⟩ <;> rw [h] <;> simp [h1]
@[simp] theorem leaveClause_loads (now : Nat) (g : Group) : (leaveClause now g).loads = g.loads := by
  rcases leaveClause_cases now g with h | ⟨g', h1 | h1, h⟩ <;> rw [h] <;> simp [h1]
@[simp] theorem leaveClause_stores (now : Nat) (g : Group) : (leaveClause now g).stores = g.stores := by
  rcases leaveClause_cases now g with h | ⟨g', h1 | h1, h⟩ <;> rw [h] <;> simp [h1]
@[simp] theorem leaveClause_dlv (now : Nat) (g : Group) : (leaveClause now g).dlv = g.dlv := by
  rcases leaveClause_cases now g with h | ⟨g', h1 | h1, h⟩ <;> rw [h] <;> simp [h1]
@[simp] theorem leaveClause_mcmd (now : Nat) (g : Group) : (leaveClause now g).mcmd = g.mcmd := by
  rcases leaveClause_cases now g with h | ⟨g', h1 | h1, h⟩ <;> rw [h] <;> simp [h1]
@[simp] theorem leaveClause_rem (now : Nat) (g : Group) : (leaveClause now g).rem = g.rem := by
  rcases leaveClause_cases now g with h | ⟨g', h1 | h1, h⟩ <;> rw [h] <;> simp [h1]
@[simp] theorem leaveClause_ask (now : Nat) (g : Group) : (leaveClause now g).ask = g.ask := by
  rcases leaveClause_cases now g with h | ⟨g', h1 | h1, h⟩ <;> rw [h] <;> simp [h1]
@[simp] theorem leaveClause_sending (now : Nat) (g : Group) : (leaveClause now g).sending = g.sending := by
  rcases leaveClause_cases now g with h | ⟨g', h1 | h1, h⟩ <;> rw [h] <;> simp [h1]
@[simp] theorem leaveClause_cno (now : Nat) (g : Group) : (leaveClause now g).cno = g.cno := by
  rcases leaveClause_cases now g with h | ⟨g', h1 | h1, h⟩ <;> rw [h] <;> simp [h1]
@[simp] theorem leaveClause_wakeYield (now : Nat) (g : Group) : (leaveClause now g).wakeYield = g.wakeYield := by
  rcases leaveClause_cases now g with h | ⟨g', h1 | h1, h⟩ <;> rw [h] <;> simp [h1]
@[simp] theorem leaveClause_wait (now : Nat) (g : Group) : (leaveClause now g).wait = g.wait := by
  rcases leaveClause_cases now g with h | ⟨g', h1 | h1, h⟩ <;> rw [h] <;> simp [h1]
@[simp] theorem leaveClause_pend (now : Nat) (g : Group) : (leaveClause now g).pend = g.pend := by
  rcases leaveClause_cases now g with h | ⟨g', h1 | h1, h⟩ <;> rw [h] <;> simp [h1]
@[simp] theorem leaveClause_exiting (now : Nat) (g : Group) : (leaveClause now g).exiting = g.exiting := by
  rcases leaveClause_cases now g with h | ⟨g', h1 | h1, h⟩ <;> rw [h] <;> simp [h1]
@[simp] theorem leaveClause_entering (now : Nat) (g : Group) : (leaveClause now g).entering = g.entering := by
  rcases leaveClause_cases now g with h | ⟨g', h1 | h1, h⟩ <;> rw [h] <;> simp [h1]
@[simp] theorem leaveClause_xlate (now : Nat) (g : Group) : (leaveClause now g).xlate = g.xlate := by
  rcases leaveClause_cases now g with h | ⟨g', h1 | h1, h⟩ <;> rw [h] <;> simp [h1]
@[simp] theorem leaveClause_image (now : Nat) (g : Group) : (leaveClause now g).image = g.image := by
  rcases leaveClause_cases now g with h | ⟨g', h1 | h1, h⟩ <;> rw [h] <;> simp [h1]
@[simp] theorem leaveClause_nextId (now : Nat) (g : Group) : (leaveClause now g).nextId = g.nextId := by
  rcases leaveClause_cases now g with h | ⟨g', h1 | h1, h⟩ <;> rw [h] <;> simp [h1]
@[simp] theorem leaveClause_banked (now : Nat) (g : Group) : (leaveClause now g).banked = g.banked := by
  rcases leaveClause_cases now g with h | ⟨g', h1 | h1, h⟩ <;> rw [h] <;> simp [h1]
@[simp] theorem leaveClause_held (now : Nat) (g : Group) : (leaveClause now g).held = g.held := by
  rcases leaveClause_cases now g with h | ⟨g', h1 | h1, h⟩ <;> rw [h] <;> simp [h1]
@[simp] theorem leaveClause_idle (now : Nat) (g : Group) : (leaveClause now g).idle = g.idle := by
  rcases leaveClause_cases now g with h | ⟨g', h1 | h1, h⟩ <;> rw [h] <;> simp [h1]
@[simp] theorem leaveClause_debt (now : Nat) (g : Group) : (leaveClause now g).debt = g.debt := by
  rcases leaveClause_cases now g with h | ⟨g', h1 | h1, h⟩ <;> rw [h] <;> simp [h1]
@[simp] theorem leaveClause_again (now : Nat) (g : Group) : (leaveClause now g).again = g.again := by
  rcases leaveClause_cases now g with h | ⟨g', h1 | h1, h⟩ <;> rw [h] <;> simp [h1]

@[simp] theorem leaveClause_clause (now : Nat) (g : Group) : (leaveClause now g).clause = none := by
  unfold leaveClause
  split
  · rename_i h; simpa using h
  · rfl

@[simp] theorem leaveClause_status (now : Nat) (g : Group) : (leaveClause now g).status = .waiting := by
  unfold leaveClause; split <;> rfl

@[simp] theorem completed_live (ws : List Reg) (g : Group) : (completed ws g).live = g.live := rfl
@[simp] theorem completed_place (ws : List Reg) (g : Group) : (completed ws g).place = g.place := rfl
@[simp] theorem completed_regs (ws : List Reg) (g : Group) : (completed ws g).regs = g.regs := rfl
@[simp] theorem completed_pc (ws : List Reg) (g : Group) : (completed ws g).pc = g.pc := rfl
@[simp] theorem completed_entry (ws : List Reg) (g : Group) : (completed ws g).entry = g.entry := rfl
@[simp] theorem completed_clause (ws : List Reg) (g : Group) : (completed ws g).clause = g.clause := rfl
@[simp] theorem completed_status (ws : List Reg) (g : Group) : (completed ws g).status = g.status := rfl
@[simp] theorem completed_w (ws : List Reg) (g : Group) : (completed ws g).w = g.w := rfl
@[simp] theorem completed_yielded (ws : List Reg) (g : Group) : (completed ws g).yielded = g.yielded := rfl
@[simp] theorem completed_last (ws : List Reg) (g : Group) : (completed ws g).last = g.last := rfl
@[simp] theorem completed_watch (ws : List Reg) (g : Group) : (completed ws g).watch = g.watch := rfl
@[simp] theorem completed_stores (ws : List Reg) (g : Group) : (completed ws g).stores = g.stores := rfl
@[simp] theorem completed_dlv (ws : List Reg) (g : Group) : (completed ws g).dlv = g.dlv := rfl
@[simp] theorem completed_mcmd (ws : List Reg) (g : Group) : (completed ws g).mcmd = g.mcmd := rfl
@[simp] theorem completed_rem (ws : List Reg) (g : Group) : (completed ws g).rem = g.rem := rfl
@[simp] theorem completed_ask (ws : List Reg) (g : Group) : (completed ws g).ask = g.ask := rfl
@[simp] theorem completed_sending (ws : List Reg) (g : Group) : (completed ws g).sending = g.sending := rfl
@[simp] theorem completed_clo (ws : List Reg) (g : Group) : (completed ws g).clo = g.clo := rfl
@[simp] theorem completed_closeReq (ws : List Reg) (g : Group) : (completed ws g).closeReq = g.closeReq := rfl
@[simp] theorem completed_cno (ws : List Reg) (g : Group) : (completed ws g).cno = g.cno := rfl
@[simp] theorem completed_shut (ws : List Reg) (g : Group) : (completed ws g).shut = g.shut := rfl
@[simp] theorem completed_wakeYield (ws : List Reg) (g : Group) : (completed ws g).wakeYield = g.wakeYield := rfl
@[simp] theorem completed_wait (ws : List Reg) (g : Group) : (completed ws g).wait = g.wait := rfl
@[simp] theorem completed_pend (ws : List Reg) (g : Group) : (completed ws g).pend = g.pend := rfl
@[simp] theorem completed_exiting (ws : List Reg) (g : Group) : (completed ws g).exiting = g.exiting := rfl
@[simp] theorem completed_entering (ws : List Reg) (g : Group) : (completed ws g).entering = g.entering := rfl
@[simp] theorem completed_image (ws : List Reg) (g : Group) : (completed ws g).image = g.image := rfl
@[simp] theorem completed_nextId (ws : List Reg) (g : Group) : (completed ws g).nextId = g.nextId := rfl
@[simp] theorem completed_banked (ws : List Reg) (g : Group) : (completed ws g).banked = g.banked := rfl
@[simp] theorem completed_held (ws : List Reg) (g : Group) : (completed ws g).held = g.held := rfl
@[simp] theorem completed_idle (ws : List Reg) (g : Group) : (completed ws g).idle = g.idle := rfl
@[simp] theorem completed_debt (ws : List Reg) (g : Group) : (completed ws g).debt = g.debt := rfl
@[simp] theorem completed_again (ws : List Reg) (g : Group) : (completed ws g).again = g.again := rfl
@[simp] theorem completed_hold (ws : List Reg) (g : Group) : (completed ws g).hold = none := rfl

@[simp] theorem stepPc_live (now : Nat) (g : Group) : (stepPc now g).live = g.live := by
  unfold stepPc; split <;> simp
@[simp] theorem stepPc_place (now : Nat) (g : Group) : (stepPc now g).place = g.place := by
  unfold stepPc; split <;> simp
@[simp] theorem stepPc_regs (now : Nat) (g : Group) : (stepPc now g).regs = g.regs := by
  unfold stepPc; split <;> simp
@[simp] theorem stepPc_hold (now : Nat) (g : Group) : (stepPc now g).hold = g.hold := by
  unfold stepPc; split <;> simp
@[simp] theorem stepPc_w (now : Nat) (g : Group) : (stepPc now g).w = g.w := by
  unfold stepPc; split <;> simp
@[simp] theorem stepPc_holds (now : Nat) (g : Group) : (stepPc now g).holds = g.holds := by
  unfold stepPc; split <;> simp
@[simp] theorem stepPc_watch (now : Nat) (g : Group) : (stepPc now g).watch = g.watch := by
  unfold stepPc; split <;> simp
@[simp] theorem stepPc_loads (now : Nat) (g : Group) : (stepPc now g).loads = g.loads := by
  unfold stepPc; split <;> simp
@[simp] theorem stepPc_stores (now : Nat) (g : Group) : (stepPc now g).stores = g.stores := by
  unfold stepPc; split <;> simp
@[simp] theorem stepPc_dlv (now : Nat) (g : Group) : (stepPc now g).dlv = g.dlv := by
  unfold stepPc; split <;> simp
@[simp] theorem stepPc_mcmd (now : Nat) (g : Group) : (stepPc now g).mcmd = g.mcmd := by
  unfold stepPc; split <;> simp
@[simp] theorem stepPc_rem (now : Nat) (g : Group) : (stepPc now g).rem = g.rem := by
  unfold stepPc; split <;> simp
@[simp] theorem stepPc_ask (now : Nat) (g : Group) : (stepPc now g).ask = g.ask := by
  unfold stepPc; split <;> simp
@[simp] theorem stepPc_sending (now : Nat) (g : Group) : (stepPc now g).sending = g.sending := by
  unfold stepPc; split <;> simp
@[simp] theorem stepPc_cno (now : Nat) (g : Group) : (stepPc now g).cno = g.cno := by
  unfold stepPc; split <;> simp
@[simp] theorem stepPc_wakeYield (now : Nat) (g : Group) : (stepPc now g).wakeYield = g.wakeYield := by
  unfold stepPc; split <;> simp
@[simp] theorem stepPc_wait (now : Nat) (g : Group) : (stepPc now g).wait = g.wait := by
  unfold stepPc; split <;> simp
@[simp] theorem stepPc_pend (now : Nat) (g : Group) : (stepPc now g).pend = g.pend := by
  unfold stepPc; split <;> simp
@[simp] theorem stepPc_exiting (now : Nat) (g : Group) : (stepPc now g).exiting = g.exiting := by
  unfold stepPc; split <;> simp
@[simp] theorem stepPc_entering (now : Nat) (g : Group) : (stepPc now g).entering = g.entering := by
  unfold stepPc; split <;> simp
@[simp] theorem stepPc_xlate (now : Nat) (g : Group) : (stepPc now g).xlate = g.xlate := by
  unfold stepPc; split <;> simp
@[simp] theorem stepPc_image (now : Nat) (g : Group) : (stepPc now g).image = g.image := by
  unfold stepPc; split <;> simp
@[simp] theorem stepPc_nextId (now : Nat) (g : Group) : (stepPc now g).nextId = g.nextId := by
  unfold stepPc; split <;> simp
@[simp] theorem stepPc_banked (now : Nat) (g : Group) : (stepPc now g).banked = g.banked := by
  unfold stepPc; split <;> simp
@[simp] theorem stepPc_held (now : Nat) (g : Group) : (stepPc now g).held = g.held := by
  unfold stepPc; split <;> simp
@[simp] theorem stepPc_idle (now : Nat) (g : Group) : (stepPc now g).idle = g.idle := by
  unfold stepPc; split <;> simp
@[simp] theorem stepPc_debt (now : Nat) (g : Group) : (stepPc now g).debt = g.debt := by
  unfold stepPc; split <;> simp
@[simp] theorem stepPc_again (now : Nat) (g : Group) : (stepPc now g).again = g.again := by
  unfold stepPc; split <;> simp

@[simp] theorem stepPc_pc (now : Nat) (g : Group) : (stepPc now g).pc = g.pc + 8 := by
  unfold stepPc; split <;> simp

theorem stepPc_within (now : Nat) {g : Group} (h : g.atLast = false) : stepPc now g = { g with pc := g.pc + 8 } := by
  unfold stepPc; simp [h]

theorem stepPc_leaves (now : Nat) {g : Group} (h : g.atLast = true) : stepPc now g = leaveClause now { g with pc := g.pc + 8 } := by
  unfold stepPc; simp [h]

@[simp] theorem Group.spend_live (n : Nat) (g : Group) : (g.spend n).live = g.live := rfl
@[simp] theorem Group.spend_place (n : Nat) (g : Group) : (g.spend n).place = g.place := rfl
@[simp] theorem Group.spend_regs (n : Nat) (g : Group) : (g.spend n).regs = g.regs := rfl
@[simp] theorem Group.spend_pc (n : Nat) (g : Group) : (g.spend n).pc = g.pc := rfl
@[simp] theorem Group.spend_entry (n : Nat) (g : Group) : (g.spend n).entry = g.entry := rfl
@[simp] theorem Group.spend_clause (n : Nat) (g : Group) : (g.spend n).clause = g.clause := rfl
@[simp] theorem Group.spend_status (n : Nat) (g : Group) : (g.spend n).status = g.status := rfl
@[simp] theorem Group.spend_hold (n : Nat) (g : Group) : (g.spend n).hold = g.hold := rfl
@[simp] theorem Group.spend_w (n : Nat) (g : Group) : (g.spend n).w = g.w := rfl
@[simp] theorem Group.spend_yielded (n : Nat) (g : Group) : (g.spend n).yielded = g.yielded := rfl
@[simp] theorem Group.spend_last (n : Nat) (g : Group) : (g.spend n).last = g.last := rfl
@[simp] theorem Group.spend_holds (n : Nat) (g : Group) : (g.spend n).holds = g.holds := rfl
@[simp] theorem Group.spend_watch (n : Nat) (g : Group) : (g.spend n).watch = g.watch := rfl
@[simp] theorem Group.spend_loads (n : Nat) (g : Group) : (g.spend n).loads = g.loads := rfl
@[simp] theorem Group.spend_stores (n : Nat) (g : Group) : (g.spend n).stores = g.stores := rfl
@[simp] theorem Group.spend_dlv (n : Nat) (g : Group) : (g.spend n).dlv = g.dlv := rfl
@[simp] theorem Group.spend_mcmd (n : Nat) (g : Group) : (g.spend n).mcmd = g.mcmd := rfl
@[simp] theorem Group.spend_rem (n : Nat) (g : Group) : (g.spend n).rem = g.rem := rfl
@[simp] theorem Group.spend_ask (n : Nat) (g : Group) : (g.spend n).ask = g.ask := rfl
@[simp] theorem Group.spend_sending (n : Nat) (g : Group) : (g.spend n).sending = g.sending := rfl
@[simp] theorem Group.spend_opn (n : Nat) (g : Group) : (g.spend n).opn = g.opn := rfl
@[simp] theorem Group.spend_clo (n : Nat) (g : Group) : (g.spend n).clo = g.clo := rfl
@[simp] theorem Group.spend_closeReq (n : Nat) (g : Group) : (g.spend n).closeReq = g.closeReq := rfl
@[simp] theorem Group.spend_cno (n : Nat) (g : Group) : (g.spend n).cno = g.cno := rfl
@[simp] theorem Group.spend_shut (n : Nat) (g : Group) : (g.spend n).shut = g.shut := rfl
@[simp] theorem Group.spend_wakeYield (n : Nat) (g : Group) : (g.spend n).wakeYield = g.wakeYield := rfl
@[simp] theorem Group.spend_again (n : Nat) (g : Group) : (g.spend n).again = g.again := rfl
@[simp] theorem Group.spend_wait (n : Nat) (g : Group) : (g.spend n).wait = g.wait := rfl
@[simp] theorem Group.spend_pend (n : Nat) (g : Group) : (g.spend n).pend = g.pend := rfl
@[simp] theorem Group.spend_exiting (n : Nat) (g : Group) : (g.spend n).exiting = g.exiting := rfl
@[simp] theorem Group.spend_entering (n : Nat) (g : Group) : (g.spend n).entering = g.entering := rfl
@[simp] theorem Group.spend_xlate (n : Nat) (g : Group) : (g.spend n).xlate = g.xlate := rfl
@[simp] theorem Group.spend_image (n : Nat) (g : Group) : (g.spend n).image = g.image := rfl
@[simp] theorem Group.spend_nextId (n : Nat) (g : Group) : (g.spend n).nextId = g.nextId := rfl
@[simp] theorem Group.spend_banked (n : Nat) (g : Group) : (g.spend n).banked = g.banked := rfl
@[simp] theorem Group.spend_idle (n : Nat) (g : Group) : (g.spend n).idle = g.idle := rfl
@[simp] theorem throttled_live (thr : Bool) (g : Group) : (throttled thr g).live = g.live := by
  unfold throttled; split <;> rfl
@[simp] theorem throttled_place (thr : Bool) (g : Group) : (throttled thr g).place = g.place := by
  unfold throttled; split <;> rfl
@[simp] theorem throttled_regs (thr : Bool) (g : Group) : (throttled thr g).regs = g.regs := by
  unfold throttled; split <;> rfl
@[simp] theorem throttled_pc (thr : Bool) (g : Group) : (throttled thr g).pc = g.pc := by
  unfold throttled; split <;> rfl
@[simp] theorem throttled_entry (thr : Bool) (g : Group) : (throttled thr g).entry = g.entry := by
  unfold throttled; split <;> rfl
@[simp] theorem throttled_clause (thr : Bool) (g : Group) : (throttled thr g).clause = g.clause := by
  unfold throttled; split <;> rfl
@[simp] theorem throttled_status (thr : Bool) (g : Group) : (throttled thr g).status = g.status := by
  unfold throttled; split <;> rfl
@[simp] theorem throttled_hold (thr : Bool) (g : Group) : (throttled thr g).hold = g.hold := by
  unfold throttled; split <;> rfl
@[simp] theorem throttled_w (thr : Bool) (g : Group) : (throttled thr g).w = g.w := by
  unfold throttled; split <;> rfl
@[simp] theorem throttled_yielded (thr : Bool) (g : Group) : (throttled thr g).yielded = g.yielded := by
  unfold throttled; split <;> rfl
@[simp] theorem throttled_last (thr : Bool) (g : Group) : (throttled thr g).last = g.last := by
  unfold throttled; split <;> rfl
@[simp] theorem throttled_holds (thr : Bool) (g : Group) : (throttled thr g).holds = g.holds := by
  unfold throttled; split <;> rfl
@[simp] theorem throttled_watch (thr : Bool) (g : Group) : (throttled thr g).watch = g.watch := by
  unfold throttled; split <;> rfl
@[simp] theorem throttled_loads (thr : Bool) (g : Group) : (throttled thr g).loads = g.loads := by
  unfold throttled; split <;> rfl
@[simp] theorem throttled_stores (thr : Bool) (g : Group) : (throttled thr g).stores = g.stores := by
  unfold throttled; split <;> rfl
@[simp] theorem throttled_dlv (thr : Bool) (g : Group) : (throttled thr g).dlv = g.dlv := by
  unfold throttled; split <;> rfl
@[simp] theorem throttled_mcmd (thr : Bool) (g : Group) : (throttled thr g).mcmd = g.mcmd := by
  unfold throttled; split <;> rfl
@[simp] theorem throttled_rem (thr : Bool) (g : Group) : (throttled thr g).rem = g.rem := by
  unfold throttled; split <;> rfl
@[simp] theorem throttled_ask (thr : Bool) (g : Group) : (throttled thr g).ask = g.ask := by
  unfold throttled; split <;> rfl
@[simp] theorem throttled_sending (thr : Bool) (g : Group) : (throttled thr g).sending = g.sending := by
  unfold throttled; split <;> rfl
@[simp] theorem throttled_opn (thr : Bool) (g : Group) : (throttled thr g).opn = g.opn := by
  unfold throttled; split <;> rfl
@[simp] theorem throttled_clo (thr : Bool) (g : Group) : (throttled thr g).clo = g.clo := by
  unfold throttled; split <;> rfl
@[simp] theorem throttled_closeReq (thr : Bool) (g : Group) : (throttled thr g).closeReq = g.closeReq := by
  unfold throttled; split <;> rfl
@[simp] theorem throttled_cno (thr : Bool) (g : Group) : (throttled thr g).cno = g.cno := by
  unfold throttled; split <;> rfl
@[simp] theorem throttled_shut (thr : Bool) (g : Group) : (throttled thr g).shut = g.shut := by
  unfold throttled; split <;> rfl
@[simp] theorem throttled_wakeYield (thr : Bool) (g : Group) : (throttled thr g).wakeYield = g.wakeYield := by
  unfold throttled; split <;> rfl
@[simp] theorem throttled_again (thr : Bool) (g : Group) : (throttled thr g).again = g.again := by
  unfold throttled; split <;> rfl
@[simp] theorem throttled_wait (thr : Bool) (g : Group) : (throttled thr g).wait = g.wait := by
  unfold throttled; split <;> rfl
@[simp] theorem throttled_pend (thr : Bool) (g : Group) : (throttled thr g).pend = g.pend := by
  unfold throttled; split <;> rfl
@[simp] theorem throttled_exiting (thr : Bool) (g : Group) : (throttled thr g).exiting = g.exiting := by
  unfold throttled; split <;> rfl
@[simp] theorem throttled_entering (thr : Bool) (g : Group) : (throttled thr g).entering = g.entering := by
  unfold throttled; split <;> rfl
@[simp] theorem throttled_xlate (thr : Bool) (g : Group) : (throttled thr g).xlate = g.xlate := by
  unfold throttled; split <;> rfl
@[simp] theorem throttled_image (thr : Bool) (g : Group) : (throttled thr g).image = g.image := by
  unfold throttled; split <;> rfl
@[simp] theorem throttled_nextId (thr : Bool) (g : Group) : (throttled thr g).nextId = g.nextId := by
  unfold throttled; split <;> rfl
@[simp] theorem throttled_banked (thr : Bool) (g : Group) : (throttled thr g).banked = g.banked := by
  unfold throttled; split <;> rfl
@[simp] theorem throttled_debt (thr : Bool) (g : Group) : (throttled thr g).debt = g.debt := by
  unfold throttled; split <;> rfl

@[simp] theorem retire_me (u : Use) (S : Mask) (ws : List Reg) (s : State) :
    (retire u S ws s).me = throttled s.thr (stepPc s.now ((completed ws s.me).spend (laneCycles u s.me S))) := by
  simp [retire]

@[simp] theorem retire_cur (u : Use) (S : Mask) (ws : List Reg) (s : State) : (retire u S ws s).cur = s.cur := rfl

/-- The end of an instruction changes the running group and its counters, nothing else. -/
theorem retire_eq (u : Use) (S : Mask) (ws : List Reg) (s : State) :
    retire u S ws s = { s with groups := (retire u S ws s).groups, ctr := (retire u S ws s).ctr } := rfl

theorem retire_grp_ne (u : Use) (S : Mask) (ws : List Reg) (s : State) {k : Nat} (h : k ≠ s.cur) : (retire u S ws s).grp k = s.grp k := by
  unfold retire; rw [State.grp_setMe_ne _ _ (by simpa using h)]; simp

theorem atLast_eq {g h : Group} (hc : h.clause = g.clause) (hp : h.pc = g.pc) : h.atLast = g.atLast := by
  unfold Group.atLast Group.wordIx; rw [hc, hp]

theorem uniMark_eq {g h : Group} (hc : h.clause = g.clause) (hp : h.pc = g.pc) : h.uniMark = g.uniMark := by
  unfold Group.uniMark Group.wordIx; rw [hc, hp]

/-- What the end of an instruction leaves: the group past it, and everything outside as it was. -/
theorem retire_moves {s : State} {u : Use} {S : Mask} {ws : List Reg} {g : Group} (hc : g.clause = s.me.clause) (hp : g.pc = s.me.pc)
    (hs : g.status = s.me.status) : MovesOn s (retire u S ws (s.setMe g)) := by
  have hl (n : Nat) : ((completed ws g).spend n).atLast = s.me.atLast := atLast_eq (by simp [hc]) (by simp [hp])
  refine ⟨by simp [hp], fun h => ?_, fun h => ?_, by simp⟩
  · have := fun n => stepPc_within s.now ((hl n).trans h)
    simp [this, hc, hs]
  · have := fun n => stepPc_leaves s.now ((hl n).trans h)
    simp [this]

theorem retire_outside (s : State) (u : Use) (S : Mask) (ws : List Reg) (g : Group) : OutsideKept s (retire u S ws (s.setMe g)) := by
  refine ⟨rfl, fun k hk => ?_⟩
  rw [retire_grp_ne _ _ _ _ (by simpa using hk)]
  exact State.grp_setMe_ne _ _ hk

/-- An instruction whose meaning ends in `retire` on the running group with new registers computes them. -/
theorem computes_retire {i : Instr} {s : State} {regs : Regs} {u : Use} {S : Mask} {ws : List Reg} {g : Group}
    (hg : g = { enteredGroup i s with regs := regs }) (h : exec i s = .next (retire u S ws ((entered i s).setMe g))) : Computes i s regs := by
  simp only [entered, State.setMe_setMe] at h
  refine ⟨_, h, by simp [hg], retire_moves (by simp [hg]) (by simp [hg]) (by simp [hg]), retire_outside .., ?_⟩
  constructor <;> simp [hg]

/-! ### A transfer of control -/

@[simp] theorem jumpTo_me (u : Use) (S : Mask) (ws : List Reg) (target : Pc) (s : State) :
    (jumpTo u S ws target s).me =
      throttled s.thr { leaveClause s.now ((completed ws s.me).spend (laneCycles u s.me S)) with pc := target, entry := .header } := by
  unfold jumpTo; simp only [State.setMe_me]

@[simp] theorem jumpTo_cur (u : Use) (S : Mask) (ws : List Reg) (target : Pc) (s : State) : (jumpTo u S ws target s).cur = s.cur := rfl

theorem jumpTo_outside (s : State) (u : Use) (S : Mask) (ws : List Reg) (target : Pc) (g : Group) :
    OutsideKept s (jumpTo u S ws target (s.setMe g)) := by
  refine ⟨rfl, fun k hk => ?_⟩
  unfold jumpTo
  rw [State.grp_setMe_ne _ _ (by simpa using hk)]
  simpa using State.grp_setMe_ne _ _ hk

/-- An instruction whose meaning ends in `jumpTo` on the running group with new registers transfers control. -/
theorem transfers_jump {i : Instr} {s : State} {regs : Regs} {u : Use} {S : Mask} {ws : List Reg} {target : Pc} {g : Group}
    (hg : g = { enteredGroup i s with regs := regs }) (h : exec i s = .next (jumpTo u S ws target ((entered i s).setMe g))) :
    Transfers i s regs target := by
  simp only [entered, State.setMe_setMe] at h
  refine ⟨_, h, by simp [hg], ?_, jumpTo_outside .., ?_⟩ <;> constructor <;> simp [hg]

end Sys2Proof.Machine
end

