-- ==== Sys2Proof/Laws/PerInstr.lean ====
section
/-! SUPPORT. Laws stated once per instruction: the opcode map of R67, against which the encoder is held. -/
namespace Sys2Proof.Laws

/-- The opcode that R67 lists for an instruction; the events of the package's agents have none. -/
def opcodeOf : Instr → Option (BitVec 9)
  | .iaddA _ _ _ _ _ => some 0x000#9
  | .iaddI _ _ _ _ _ => some 0x001#9
  | .isub _ _ _ _ _ => some 0x002#9
  | .imulA _ _ _ _ _ => some 0x003#9
  | .imulI _ _ _ _ _ => some 0x004#9
  | .imulh _ _ _ _ _ _ => some 0x005#9
  | .imad _ _ _ _ _ _ => some 0x006#9
  | .idiv _ _ _ _ _ _ => some 0x007#9
  | .irem _ _ _ _ _ _ => some 0x008#9
  | .imin _ _ _ _ _ _ => some 0x009#9
  | .imax _ _ _ _ _ _ => some 0x00A#9
  | .iabs _ _ _ _ => some 0x00B#9
  | .ineg _ _ _ _ => some 0x00C#9
  | .andA _ _ _ _ _ => some 0x010#9
  | .andI _ _ _ _ _ => some 0x011#9
  | .orA _ _ _ _ _ => some 0x012#9
  | .orI _ _ _ _ _ => some 0x013#9
  | .xorA _ _ _ _ _ => some 0x014#9
  | .xorI _ _ _ _ _ => some 0x015#9
  | .not _ _ _ _ => some 0x016#9
  | .popc _ _ _ _ => some 0x01F#9
  | .clz _ _ _ _ => some 0x020#9
  | .brev _ _ _ _ => some 0x021#9
  | .shlA _ _ _ _ _ => some 0x017#9
  | .shlI _ _ _ _ _ => some 0x018#9
  | .shrA _ _ _ _ _ => some 0x019#9
  | .shrI _ _ _ _ _ => some 0x01A#9
  | .sarA _ _ _ _ _ => some 0x01B#9
  | .sarI _ _ _ _ _ => some 0x01C#9
  | .bfx _ _ _ _ _ _ => some 0x01D#9
  | .bfi _ _ _ _ _ _ => some 0x01E#9
  | .lea _ _ _ _ _ _ _ => some 0x022#9
  | .isetpA _ _ _ _ _ _ _ _ => some 0x028#9
  | .isetpI _ _ _ _ _ _ => some 0x029#9
  | .sel _ _ _ _ _ _ _ => some 0x02A#9
  | .mov _ _ _ _ => some 0x02B#9
  | .movi _ _ _ _ => some 0x02C#9
  | .movs _ _ _ _ => some 0x02D#9
  | .pand _ _ _ _ => some 0x030#9
  | .por _ _ _ _ => some 0x031#9
  | .pxor _ _ _ _ => some 0x032#9
  | .pnot _ _ _ => some 0x033#9
  | .vote _ _ _ _ _ _ => some 0x034#9
  | .shfl _ _ _ _ _ _ => some 0x035#9
  | .redg _ _ _ _ _ _ => some 0x036#9
  | .faddA _ _ _ _ _ _ => some 0x040#9
  | .faddI _ _ _ _ _ _ => some 0x041#9
  | .fsub _ _ _ _ _ _ => some 0x042#9
  | .fmulA _ _ _ _ _ _ => some 0x043#9
  | .fmulI _ _ _ _ _ _ => some 0x044#9
  | .ffma _ _ _ _ _ _ _ => some 0x045#9
  | .fmin _ _ _ _ _ => some 0x046#9
  | .fmax _ _ _ _ _ => some 0x047#9
  | .fsetpA _ _ _ _ _ _ _ => some 0x048#9
  | .fsetpI _ _ _ _ _ => some 0x049#9
  | .frcp _ _ _ _ _ => some 0x050#9
  | .frsq _ _ _ _ _ => some 0x051#9
  | .fexp2 _ _ _ _ _ => some 0x052#9
  | .flog2 _ _ _ _ _ => some 0x053#9
  | .fcvt _ _ _ _ _ _ _ _ _ => some 0x058#9
  | .icvt _ _ _ _ _ _ _ _ _ => some 0x059#9
  | .qcvt _ _ _ _ _ _ _ _ => some 0x05A#9
  | .hadd2 _ _ _ _ _ _ _ => some 0x060#9
  | .hmul2 _ _ _ _ _ _ _ => some 0x061#9
  | .hfma2 _ _ _ _ _ _ _ _ => some 0x062#9
  | .ldg _ _ _ _ _ _ _ _ => some 0x080#9
  | .stg _ _ _ _ _ => some 0x081#9
  | .ldl _ _ _ _ _ _ _ => some 0x082#9
  | .stl _ _ _ _ _ => some 0x083#9
  | .ldk _ _ _ _ _ _ => some 0x084#9
  | .atomg _ _ _ _ _ _ _ => some 0x088#9
  | .atoml _ _ _ _ _ _ _ => some 0x089#9
  | .red _ _ _ _ _ => some 0x08A#9
  | .fence _ _ => some 0x090#9
  | .chunk _ => some 0x091#9
  | .chkst _ _ _ => some 0x092#9
  | .pfg _ _ _ _ => some 0x094#9
  | .cwb _ _ _ => some 0x095#9
  | .cinv _ _ _ _ => some 0x096#9
  | .mwait _ _ _ _ => some 0x198#9
  | .mldp _ _ => some 0x0C0#9
  | .mswap _ => some 0x0C1#9
  | .mstr _ _ _ _ _ => some 0x0C2#9
  | .mstrp _ _ _ _ _ => some 0x0C3#9
  | .mdrn _ _ _ _ _ _ _ _ _ _ _ => some 0x0C4#9
  | .mzero _ _ => some 0x0C5#9
  | .mdup _ _ => some 0x0C6#9
  | .kick _ _ _ => some 0x100#9
  | .binit _ _ _ => some 0x101#9
  | .arrive _ _ _ _ => some 0x102#9
  | .bexp _ _ _ => some 0x103#9
  | .btest _ _ _ _ _ => some 0x104#9
  | .bwait _ _ _ => some 0x199#9
  | .prsv _ _ _ _ _ => some 0x19A#9
  | .ctak _ _ _ _ _ => some 0x19B#9
  | .pcmt _ _ => some 0x108#9
  | .crel _ _ => some 0x109#9
  | .pstat _ _ _ _ _ _ => some 0x10A#9
  | .launch _ _ _ => some 0x19C#9
  | .setfmt _ _ => some 0x140#9
  | .getfmt _ _ _ => some 0x141#9
  | .csrr _ _ _ _ => some 0x142#9
  | .csrw _ _ _ _ => some 0x143#9
  | .gname _ _ _ => some 0x148#9
  | .arm _ _ _ => some 0x149#9
  | .armif _ _ _ => some 0x14A#9
  | .regput _ _ _ _ => some 0x14B#9
  | .holdq _ _ _ _ => some 0x14C#9
  | .rld _ _ _ _ _ _ _ => some 0x150#9
  | .rst _ _ _ _ _ => some 0x151#9
  | .ratom _ _ _ _ _ _ _ => some 0x152#9
  | .rred _ _ _ _ _ => some 0x153#9
  | .tfence _ => some 0x158#9
  | .phint _ _ _ => some 0x159#9
  | .pmcr _ _ _ _ _ => some 0x15A#9
  | .rcpdef _ _ _ _ _ _ => some 0x160#9
  | .rseal _ _ => some 0x161#9
  | .rdrop _ _ => some 0x162#9
  | .rpin _ _ _ => some 0x163#9
  | .runpin _ _ _ => some 0x164#9
  | .bra _ _ => some 0x180#9
  | .brd _ _ => some 0x181#9
  | .join => some 0x182#9
  | .loop _ _ _ _ => some 0x183#9
  | .call _ _ => some 0x184#9
  | .ret _ => some 0x185#9
  | .exit _ => some 0x186#9
  | .nop _ => some 0x187#9
  | .yield _ => some 0x188#9
  | .trap _ _ => some 0x190#9
  | .rett => some 0x191#9
  | .bkpt _ _ => some 0x192#9
  | .sleep _ _ _ => some 0x193#9
  | .issueSelect _ _ => none
  | .loadComplete _ _ => none
  | .chunkCommit _ => none
  | .streamStoreApply _ => none
  | .reductionApply _ _ => none
  | .mwaitResume _ => none
  | .sleepExpire _ => none
  | .pageWalkComplete _ => none
  | .l2Evict _ => none
  | .matrixDispatch _ => none
  | .matrixComplete _ _ => none
  | .mstrpPairDiscard _ => none
  | .recordFetch _ => none
  | .instanceStart _ => none
  | .sectorLand _ _ _ => none
  | .instanceComplete _ _ => none
  | .pcmtTakeEffect _ _ _ => none
  | .crelTakeEffect _ _ _ => none
  | .throttleRelay _ _ => none
  | .crewExit _ => none
  | .sinkArrival _ => none
  | .balancerSample _ => none
  | .planRevisionPublish _ => none
  | .planRevisionApply _ => none
  | .shadowProbe _ _ => none
  | .deadlockDeclare _ _ => none
  | .forcedDrainTimeout _ => none
  | .qtailWrite _ _ _ => none
  | .qcfgWrite _ _ _ => none
  | .registerWrite _ _ _ => none
  | .launchPacket _ => none
  | .drainPacket _ => none
  | .invalidatePacket _ => none
  | .invalidationComplete _ => none
  | .ageTick _ => none
  | .launchSelect _ => none
  | .namedCrewStart _ => none
  | .hintDeadline _ => none
  | .saveComplete _ => none
  | .restore _ _ => none
  | .deliveryArrive _ => none
  | .deliveryLand _ => none
  | .deliveryResend _ => none
  | .deliveryAck _ => none
  | .nameRelease _ => none
  | .holdWatchdog => none
  | .recomputeStart _ _ _ _ => none
  | .recomputeComplete _ _ => none
  | .recomputeFail _ _ => none
  | .sealedTileError _ _ => none
  | .softError _ _ _ _ => none
  | .fabricPacketReceive _ _ => none
  | .e2eTimeout _ _ => none
  | .e2eAck _ _ => none
  | .routeDetour _ => none
  | .linkTrain _ _ => none
  | .hostWindowWrite _ _ _ => none
  | .hostWindowRead _ _ _ => none
  | .createContext _ _ _ => none
  | .teardown _ _ => none
  | .writeCcb _ _ _ => none
  | .setQuota _ _ _ => none
  | .bindPeer _ _ _ _ _ => none
  | .bindTenant _ _ _ => none
  | .readCounter _ => none
  | .updateFirmware _ _ _ => none
  | .lifecycleToken _ _ => none
  | .thermalSample _ _ => none
  | .stepFall => none
  | .clockStepChange => none
  | .lynxRestart => none
  | .powerGood _ _ _ => none
  | .voltageOutOfRange _ => none
  | .wipeComplete => none
  | .storeComplete _ _ => none
  | .badCommand _ => none

/-- An instruction has a word, and its bits [63:55] are the opcode that R67 lists; an event has none. -/
def Opcode.Statement (i : Instr) : Prop :=
  match opcodeOf i with
  | some op => ∃ w, encode i = some w ∧ w.extractLsb' 55 9 = op
  | none => encode i = none

theorem Opcode.of {i : Instr} {op : BitVec 9} {w : Word64} (h1 : opcodeOf i = some op) (h2 : encode i = some w)
    (h3 : w.extractLsb' 55 9 = op) : Opcode.Statement i := by
  unfold Opcode.Statement
  rw [h1]
  exact ⟨w, h2, h3⟩

theorem Opcode.iaddA (g : Guard) (d a b : Reg) (fit : Bool) : Opcode.Statement (.iaddA g d a b fit) := Opcode.of rfl rfl (packA_opcode ..)
theorem Opcode.iaddI (g : Guard) (d a : Reg) (imm : Word) (fit : Bool) : Opcode.Statement (.iaddI g d a imm fit) := Opcode.of rfl rfl (packI_opcode ..)
theorem Opcode.isub (g : Guard) (d a b : Reg) (fit : Bool) : Opcode.Statement (.isub g d a b fit) := Opcode.of rfl rfl (packA_opcode ..)
theorem Opcode.imulA (g : Guard) (d a b : Reg) (fit : Bool) : Opcode.Statement (.imulA g d a b fit) := Opcode.of rfl rfl (packA_opcode ..)
theorem Opcode.imulI (g : Guard) (d a : Reg) (imm : Word) (fit : Bool) : Opcode.Statement (.imulI g d a imm fit) := Opcode.of rfl rfl (packI_opcode ..)
theorem Opcode.imulh (g : Guard) (d a b : Reg) (u fit : Bool) : Opcode.Statement (.imulh g d a b u fit) := Opcode.of rfl rfl (packA_opcode ..)
theorem Opcode.imad (g : Guard) (d a b c : Reg) (fit : Bool) : Opcode.Statement (.imad g d a b c fit) := Opcode.of rfl rfl (packA_opcode ..)
theorem Opcode.idiv (g : Guard) (d a b : Reg) (u fit : Bool) : Opcode.Statement (.idiv g d a b u fit) := Opcode.of rfl rfl (packA_opcode ..)
theorem Opcode.irem (g : Guard) (d a b : Reg) (u fit : Bool) : Opcode.Statement (.irem g d a b u fit) := Opcode.of rfl rfl (packA_opcode ..)
theorem Opcode.imin (g : Guard) (d a b : Reg) (u fit : Bool) : Opcode.Statement (.imin g d a b u fit) := Opcode.of rfl rfl (packA_opcode ..)
theorem Opcode.imax (g : Guard) (d a b : Reg) (u fit : Bool) : Opcode.Statement (.imax g d a b u fit) := Opcode.of rfl rfl (packA_opcode ..)
theorem Opcode.iabs (g : Guard) (d a : Reg) (fit : Bool) : Opcode.Statement (.iabs g d a fit) := Opcode.of rfl rfl (packA_opcode ..)
theorem Opcode.ineg (g : Guard) (d a : Reg) (fit : Bool) : Opcode.Statement (.ineg g d a fit) := Opcode.of rfl rfl (packA_opcode ..)
theorem Opcode.andA (g : Guard) (d a b : Reg) (fit : Bool) : Opcode.Statement (.andA g d a b fit) := Opcode.of rfl rfl (packA_opcode ..)
theorem Opcode.andI (g : Guard) (d a : Reg) (imm : Word) (fit : Bool) : Opcode.Statement (.andI g d a imm fit) := Opcode.of rfl rfl (packI_opcode ..)
theorem Opcode.orA (g : Guard) (d a b : Reg) (fit : Bool) : Opcode.Statement (.orA g d a b fit) := Opcode.of rfl rfl (packA_opcode ..)
theorem Opcode.orI (g : Guard) (d a : Reg) (imm : Word) (fit : Bool) : Opcode.Statement (.orI g d a imm fit) := Opcode.of rfl rfl (packI_opcode ..)
theorem Opcode.xorA (g : Guard) (d a b : Reg) (fit : Bool) : Opcode.Statement (.xorA g d a b fit) := Opcode.of rfl rfl (packA_opcode ..)
theorem Opcode.xorI (g : Guard) (d a : Reg) (imm : Word) (fit : Bool) : Opcode.Statement (.xorI g d a imm fit) := Opcode.of rfl rfl (packI_opcode ..)
theorem Opcode.not (g : Guard) (d a : Reg) (fit : Bool) : Opcode.Statement (.not g d a fit) := Opcode.of rfl rfl (packA_opcode ..)
theorem Opcode.popc (g : Guard) (d a : Reg) (fit : Bool) : Opcode.Statement (.popc g d a fit) := Opcode.of rfl rfl (packA_opcode ..)
theorem Opcode.clz (g : Guard) (d a : Reg) (fit : Bool) : Opcode.Statement (.clz g d a fit) := Opcode.of rfl rfl (packA_opcode ..)
theorem Opcode.brev (g : Guard) (d a : Reg) (fit : Bool) : Opcode.Statement (.brev g d a fit) := Opcode.of rfl rfl (packA_opcode ..)
theorem Opcode.shlA (g : Guard) (d a b : Reg) (fit : Bool) : Opcode.Statement (.shlA g d a b fit) := Opcode.of rfl rfl (packA_opcode ..)
theorem Opcode.shlI (g : Guard) (d a : Reg) (imm : Word) (fit : Bool) : Opcode.Statement (.shlI g d a imm fit) := Opcode.of rfl rfl (packI_opcode ..)
theorem Opcode.shrA (g : Guard) (d a b : Reg) (fit : Bool) : Opcode.Statement (.shrA g d a b fit) := Opcode.of rfl rfl (packA_opcode ..)
theorem Opcode.shrI (g : Guard) (d a : Reg) (imm : Word) (fit : Bool) : Opcode.Statement (.shrI g d a imm fit) := Opcode.of rfl rfl (packI_opcode ..)
theorem Opcode.sarA (g : Guard) (d a b : Reg) (fit : Bool) : Opcode.Statement (.sarA g d a b fit) := Opcode.of rfl rfl (packA_opcode ..)
theorem Opcode.sarI (g : Guard) (d a : Reg) (imm : Word) (fit : Bool) : Opcode.Statement (.sarI g d a imm fit) := Opcode.of rfl rfl (packI_opcode ..)
theorem Opcode.bfx (g : Guard) (d a f : Reg) (sgn fit : Bool) : Opcode.Statement (.bfx g d a f sgn fit) := Opcode.of rfl rfl (packA_opcode ..)
theorem Opcode.bfi (g : Guard) (d a b f : Reg) (fit : Bool) : Opcode.Statement (.bfi g d a b f fit) := Opcode.of rfl rfl (packA_opcode ..)
theorem Opcode.lea (g : Guard) (d a b : Reg) (n : BitVec 5) (u fit : Bool) : Opcode.Statement (.lea g d a b n u fit) := Opcode.of rfl rfl (packA_opcode ..)
theorem Opcode.isetpA (g : Guard) (p : Pred) (a b : Reg) (c : Cond) (u : Bool) (k : Comb) (q : Pred) : Opcode.Statement (.isetpA g p a b c u k q) := Opcode.of rfl rfl (packA_opcode ..)
theorem Opcode.isetpI (g : Guard) (p : Pred) (a : Reg) (imm : Word) (c : Cond) (u : Bool) : Opcode.Statement (.isetpI g p a imm c u) := Opcode.of rfl rfl (packI_opcode ..)
theorem Opcode.sel (g : Guard) (d a b : Reg) (p : Pred) (n fit : Bool) : Opcode.Statement (.sel g d a b p n fit) := Opcode.of rfl rfl (packA_opcode ..)
theorem Opcode.mov (g : Guard) (d a : Reg) (fit : Bool) : Opcode.Statement (.mov g d a fit) := Opcode.of rfl rfl (packA_opcode ..)
theorem Opcode.movi (g : Guard) (d : Reg) (imm : Word) (fit : Bool) : Opcode.Statement (.movi g d imm fit) := Opcode.of rfl rfl (packI_opcode ..)
theorem Opcode.movs (g : Guard) (d : Reg) (r : Sreg) (fit : Bool) : Opcode.Statement (.movs g d r fit) := Opcode.of rfl rfl (packA_opcode ..)
theorem Opcode.pand (g : Guard) (d a b : Pred) : Opcode.Statement (.pand g d a b) := Opcode.of rfl rfl (packA_opcode ..)
theorem Opcode.por (g : Guard) (d a b : Pred) : Opcode.Statement (.por g d a b) := Opcode.of rfl rfl (packA_opcode ..)
theorem Opcode.pxor (g : Guard) (d a b : Pred) : Opcode.Statement (.pxor g d a b) := Opcode.of rfl rfl (packA_opcode ..)
theorem Opcode.pnot (g : Guard) (d a : Pred) : Opcode.Statement (.pnot g d a) := Opcode.of rfl rfl (packA_opcode ..)
theorem Opcode.vote (g : Guard) (d : Reg) (p : Pred) (m : VoteMode) (n fit : Bool) : Opcode.Statement (.vote g d p m n fit) := Opcode.of rfl rfl (packA_opcode ..)
theorem Opcode.shfl (g : Guard) (d a b : Reg) (m : ShflMode) (fit : Bool) : Opcode.Statement (.shfl g d a b m fit) := Opcode.of rfl rfl (packA_opcode ..)
theorem Opcode.redg (g : Guard) (d a : Reg) (op : RedgOp) (scan fit : Bool) : Opcode.Statement (.redg g d a op scan fit) := Opcode.of rfl rfl (packA_opcode ..)
theorem Opcode.faddA (g : Guard) (d a b : Reg) (r : Rnd) (fit : Bool) : Opcode.Statement (.faddA g d a b r fit) := Opcode.of rfl rfl (packA_opcode ..)
theorem Opcode.faddI (g : Guard) (d a : Reg) (imm : Word) (r : Rnd) (fit : Bool) : Opcode.Statement (.faddI g d a imm r fit) := Opcode.of rfl rfl (packI_opcode ..)
theorem Opcode.fsub (g : Guard) (d a b : Reg) (r : Rnd) (fit : Bool) : Opcode.Statement (.fsub g d a b r fit) := Opcode.of rfl rfl (packA_opcode ..)
theorem Opcode.fmulA (g : Guard) (d a b : Reg) (r : Rnd) (fit : Bool) : Opcode.Statement (.fmulA g d a b r fit) := Opcode.of rfl rfl (packA_opcode ..)
theorem Opcode.fmulI (g : Guard) (d a : Reg) (imm : Word) (r : Rnd) (fit : Bool) : Opcode.Statement (.fmulI g d a imm r fit) := Opcode.of rfl rfl (packI_opcode ..)
theorem Opcode.ffma (g : Guard) (d a b c : Reg) (r : Rnd) (fit : Bool) : Opcode.Statement (.ffma g d a b c r fit) := Opcode.of rfl rfl (packA_opcode ..)
theorem Opcode.fmin (g : Guard) (d a b : Reg) (fit : Bool) : Opcode.Statement (.fmin g d a b fit) := Opcode.of rfl rfl (packA_opcode ..)
theorem Opcode.fmax (g : Guard) (d a b : Reg) (fit : Bool) : Opcode.Statement (.fmax g d a b fit) := Opcode.of rfl rfl (packA_opcode ..)
theorem Opcode.fsetpA (g : Guard) (p : Pred) (a b : Reg) (c : FCond) (k : Comb) (q : Pred) : Opcode.Statement (.fsetpA g p a b c k q) := Opcode.of rfl rfl (packA_opcode ..)
theorem Opcode.fsetpI (g : Guard) (p : Pred) (a : Reg) (imm : Word) (c : FCond) : Opcode.Statement (.fsetpI g p a imm c) := Opcode.of rfl rfl (packI_opcode ..)
theorem Opcode.frcp (g : Guard) (d a : Reg) (r : Rnd) (fit : Bool) : Opcode.Statement (.frcp g d a r fit) := Opcode.of rfl rfl (packA_opcode ..)
theorem Opcode.frsq (g : Guard) (d a : Reg) (r : Rnd) (fit : Bool) : Opcode.Statement (.frsq g d a r fit) := Opcode.of rfl rfl (packA_opcode ..)
theorem Opcode.fexp2 (g : Guard) (d a : Reg) (r : Rnd) (fit : Bool) : Opcode.Statement (.fexp2 g d a r fit) := Opcode.of rfl rfl (packA_opcode ..)
theorem Opcode.flog2 (g : Guard) (d a : Reg) (r : Rnd) (fit : Bool) : Opcode.Statement (.flog2 g d a r fit) := Opcode.of rfl rfl (packA_opcode ..)
theorem Opcode.fcvt (g : Guard) (d a : Reg) (dst src : Elem) (outp inp : BitVec 4) (r : Rnd) (fit : Bool) : Opcode.Statement (.fcvt g d a dst src outp inp r fit) := Opcode.of rfl rfl (packA_opcode ..)
theorem Opcode.icvt (g : Guard) (d a : Reg) (dst src : Elem) (outp inp : BitVec 4) (r : Rnd) (fit : Bool) : Opcode.Statement (.icvt g d a dst src outp inp r fit) := Opcode.of rfl rfl (packA_opcode ..)
theorem Opcode.qcvt (g : Guard) (d a b c : Reg) (upd : Bool) (r : Rnd) (fit : Bool) : Opcode.Statement (.qcvt g d a b c upd r fit) := Opcode.of rfl rfl (packA_opcode ..)
theorem Opcode.hadd2 (g : Guard) (d a b : Reg) (ty : HType) (r : Rnd) (fit : Bool) : Opcode.Statement (.hadd2 g d a b ty r fit) := Opcode.of rfl rfl (packA_opcode ..)
theorem Opcode.hmul2 (g : Guard) (d a b : Reg) (ty : HType) (r : Rnd) (fit : Bool) : Opcode.Statement (.hmul2 g d a b ty r fit) := Opcode.of rfl rfl (packA_opcode ..)
theorem Opcode.hfma2 (g : Guard) (d a b c : Reg) (ty : HType) (r : Rnd) (fit : Bool) : Opcode.Statement (.hfma2 g d a b c ty r fit) := Opcode.of rfl rfl (packA_opcode ..)
theorem Opcode.ldg (g : Guard) (d n : Reg) (off : BitVec 24) (sz : Size) (sgn ev fit : Bool) : Opcode.Statement (.ldg g d n off sz sgn ev fit) := Opcode.of rfl rfl (packM_opcode ..)
theorem Opcode.stg (g : Guard) (d n : Reg) (off : BitVec 24) (sz : Size) : Opcode.Statement (.stg g d n off sz) := Opcode.of rfl rfl (packM_opcode ..)
theorem Opcode.ldl (g : Guard) (d n : Reg) (off : BitVec 24) (sz : Size) (sgn fit : Bool) : Opcode.Statement (.ldl g d n off sz sgn fit) := Opcode.of rfl rfl (packM_opcode ..)
theorem Opcode.stl (g : Guard) (d n : Reg) (off : BitVec 24) (sz : Size) : Opcode.Statement (.stl g d n off sz) := Opcode.of rfl rfl (packM_opcode ..)
theorem Opcode.ldk (g : Guard) (d : Reg) (idx : BitVec 20) (ix : Option Reg) (wn : Wn) (fit : Bool) : Opcode.Statement (.ldk g d idx ix wn fit) := Opcode.of rfl rfl (packE_opcode ..)
theorem Opcode.atomg (g : Guard) (d n x : Reg) (off : BitVec 24) (op : AOp) (fit : Bool) : Opcode.Statement (.atomg g d n x off op fit) := Opcode.of rfl rfl (packM_opcode ..)
theorem Opcode.atoml (g : Guard) (d n x : Reg) (off : BitVec 24) (op : AOp) (fit : Bool) : Opcode.Statement (.atoml g d n x off op fit) := Opcode.of rfl rfl (packM_opcode ..)
theorem Opcode.red (g : Guard) (n x : Reg) (off : BitVec 24) (op : AOp) : Opcode.Statement (.red g n x off op) := Opcode.of rfl rfl (packM_opcode ..)
theorem Opcode.fence (g : Guard) (sc : Scope) : Opcode.Statement (.fence g sc) := Opcode.of rfl rfl (packA_opcode ..)
theorem Opcode.chunk (g : Guard) : Opcode.Statement (.chunk g) := Opcode.of rfl rfl (packA_opcode ..)
theorem Opcode.chkst (g : Guard) (d : Reg) (fit : Bool) : Opcode.Statement (.chkst g d fit) := Opcode.of rfl rfl (packA_opcode ..)
theorem Opcode.pfg (g : Guard) (n : Reg) (off : BitVec 24) (l2 : Bool) : Opcode.Statement (.pfg g n off l2) := Opcode.of rfl rfl (packM_opcode ..)
theorem Opcode.cwb (g : Guard) (n : Reg) (off : BitVec 24) : Opcode.Statement (.cwb g n off) := Opcode.of rfl rfl (packM_opcode ..)
theorem Opcode.cinv (g : Guard) (n : Reg) (off : BitVec 24) (l2 : Bool) : Opcode.Statement (.cinv g n off l2) := Opcode.of rfl rfl (packM_opcode ..)
theorem Opcode.mwait (g : Guard) (n : Reg) (off : BitVec 24) (vc : Option Reg) : Opcode.Statement (.mwait g n off vc) := Opcode.of rfl rfl (packM_opcode ..)
theorem Opcode.mldp (g : Guard) (vb : Reg) : Opcode.Statement (.mldp g vb) := Opcode.of rfl rfl (packA_opcode ..)
theorem Opcode.mswap (g : Guard) : Opcode.Statement (.mswap g) := Opcode.of rfl rfl (packA_opcode ..)
theorem Opcode.mstr (g : Guard) (vn va vg : Reg) (vz : Option Reg) : Opcode.Statement (.mstr g vn va vg vz) := Opcode.of rfl rfl (packA_opcode ..)
theorem Opcode.mstrp (g : Guard) (vn va vg : Reg) (vz : Option Reg) : Opcode.Statement (.mstrp g vn va vg vz) := Opcode.of rfl rfl (packA_opcode ..)
theorem Opcode.mdrn (g : Guard) (vd vg vx vs : Reg) (out : Elem) (relu clr bias bar pipe : Bool) : Opcode.Statement (.mdrn g vd vg vx vs out relu clr bias bar pipe) := Opcode.of rfl rfl (packA_opcode ..)
theorem Opcode.mzero (g : Guard) (vg : Reg) : Opcode.Statement (.mzero g vg) := Opcode.of rfl rfl (packA_opcode ..)
theorem Opcode.mdup (g : Guard) (vm : Reg) : Opcode.Statement (.mdup g vm) := Opcode.of rfl rfl (packA_opcode ..)
theorem Opcode.kick (g : Guard) (idx : BitVec 20) (ix : Option Reg) : Opcode.Statement (.kick g idx ix) := Opcode.of rfl rfl (packE_opcode ..)
theorem Opcode.binit (g : Guard) (vb vn : Reg) : Opcode.Statement (.binit g vb vn) := Opcode.of rfl rfl (packA_opcode ..)
theorem Opcode.arrive (g : Guard) (vb : Reg) (vn vs : Option Reg) : Opcode.Statement (.arrive g vb vn vs) := Opcode.of rfl rfl (packA_opcode ..)
theorem Opcode.bexp (g : Guard) (vb vs : Reg) : Opcode.Statement (.bexp g vb vs) := Opcode.of rfl rfl (packA_opcode ..)
theorem Opcode.btest (g : Guard) (vd vb : Reg) (sec fit : Bool) : Opcode.Statement (.btest g vd vb sec fit) := Opcode.of rfl rfl (packA_opcode ..)
theorem Opcode.bwait (g : Guard) (vb vp : Reg) : Opcode.Statement (.bwait g vb vp) := Opcode.of rfl rfl (packA_opcode ..)
theorem Opcode.prsv (g : Guard) (vd : Reg) (idx : BitVec 20) (ix : Option Reg) (fit : Bool) : Opcode.Statement (.prsv g vd idx ix fit) := Opcode.of rfl rfl (packE_opcode ..)
theorem Opcode.ctak (g : Guard) (vd : Reg) (idx : BitVec 20) (ix : Option Reg) (fit : Bool) : Opcode.Statement (.ctak g vd idx ix fit) := Opcode.of rfl rfl (packE_opcode ..)
theorem Opcode.pcmt (g : Guard) (vt : Reg) : Opcode.Statement (.pcmt g vt) := Opcode.of rfl rfl (packE_opcode ..)
theorem Opcode.crel (g : Guard) (vt : Reg) : Opcode.Statement (.crel g vt) := Opcode.of rfl rfl (packE_opcode ..)
theorem Opcode.pstat (g : Guard) (vd : Reg) (m : PMode) (idx : BitVec 20) (ix : Option Reg) (fit : Bool) : Opcode.Statement (.pstat g vd m idx ix fit) := Opcode.of rfl rfl (packE_opcode ..)
theorem Opcode.launch (g : Guard) (idx : BitVec 20) (ix : Option Reg) : Opcode.Statement (.launch g idx ix) := Opcode.of rfl rfl (packE_opcode ..)
theorem Opcode.setfmt (g : Guard) (a : Reg) : Opcode.Statement (.setfmt g a) := Opcode.of rfl rfl (packA_opcode ..)
theorem Opcode.getfmt (g : Guard) (d : Reg) (fit : Bool) : Opcode.Statement (.getfmt g d fit) := Opcode.of rfl rfl (packA_opcode ..)
theorem Opcode.csrr (g : Guard) (d : Reg) (n : Creg) (fit : Bool) : Opcode.Statement (.csrr g d n fit) := Opcode.of rfl rfl (packI_opcode ..)
theorem Opcode.csrw (g : Guard) (n : WCreg) (a : Reg) (op : CsrOp) : Opcode.Statement (.csrw g n a op) := Opcode.of rfl rfl (packI_opcode ..)
theorem Opcode.gname (g : Guard) (d : Reg) (fit : Bool) : Opcode.Statement (.gname g d fit) := Opcode.of rfl rfl (packA_opcode ..)
theorem Opcode.arm (g : Guard) (vr : Reg) (vn : Option Reg) : Opcode.Statement (.arm g vr vn) := Opcode.of rfl rfl (packA_opcode ..)
theorem Opcode.armif (g : Guard) (vr : Reg) (vn : Option Reg) : Opcode.Statement (.armif g vr vn) := Opcode.of rfl rfl (packA_opcode ..)
theorem Opcode.regput (g : Guard) (vt vn vs : Reg) : Opcode.Statement (.regput g vt vn vs) := Opcode.of rfl rfl (packA_opcode ..)
theorem Opcode.holdq (g : Guard) (d : Reg) (vr : Option Reg) (fit : Bool) : Opcode.Statement (.holdq g d vr fit) := Opcode.of rfl rfl (packA_opcode ..)
theorem Opcode.rld (g : Guard) (d vp vo : Reg) (sz : Size) (sgn fit : Bool) : Opcode.Statement (.rld g d vp vo sz sgn fit) := Opcode.of rfl rfl (packA_opcode ..)
theorem Opcode.rst (g : Guard) (d vp vo : Reg) (sz : Size) : Opcode.Statement (.rst g d vp vo sz) := Opcode.of rfl rfl (packA_opcode ..)
theorem Opcode.ratom (g : Guard) (d vp vo vx : Reg) (op : AOp) (fit : Bool) : Opcode.Statement (.ratom g d vp vo vx op fit) := Opcode.of rfl rfl (packA_opcode ..)
theorem Opcode.rred (g : Guard) (vp vo vx : Reg) (op : AOp) : Opcode.Statement (.rred g vp vo vx op) := Opcode.of rfl rfl (packA_opcode ..)
theorem Opcode.tfence (g : Guard) : Opcode.Statement (.tfence g) := Opcode.of rfl rfl (packA_opcode ..)
theorem Opcode.phint (g : Guard) (idx : BitVec 20) (ix : Option Reg) : Opcode.Statement (.phint g idx ix) := Opcode.of rfl rfl (packE_opcode ..)
theorem Opcode.pmcr (g : Guard) (d : Reg) (code : Word) (hi fit : Bool) : Opcode.Statement (.pmcr g d code hi fit) := Opcode.of rfl rfl (packI_opcode ..)
theorem Opcode.rcpdef (g : Guard) (d vh vb : Reg) (idx : BitVec 20) (fit : Bool) : Opcode.Statement (.rcpdef g d vh vb idx fit) := Opcode.of rfl rfl (packE_opcode ..)
theorem Opcode.rseal (g : Guard) (vt : Reg) : Opcode.Statement (.rseal g vt) := Opcode.of rfl rfl (packA_opcode ..)
theorem Opcode.rdrop (g : Guard) (vt : Reg) : Opcode.Statement (.rdrop g vt) := Opcode.of rfl rfl (packA_opcode ..)
theorem Opcode.rpin (g : Guard) (vt vz : Reg) : Opcode.Statement (.rpin g vt vz) := Opcode.of rfl rfl (packA_opcode ..)
theorem Opcode.runpin (g : Guard) (vt vz : Reg) : Opcode.Statement (.runpin g vt vz) := Opcode.of rfl rfl (packA_opcode ..)
theorem Opcode.bra (g : Guard) (off : Word) : Opcode.Statement (.bra g off) := Opcode.of rfl rfl (packI_opcode ..)
theorem Opcode.brd (g : Guard) (off : Word) : Opcode.Statement (.brd g off) := Opcode.of rfl rfl (packI_opcode ..)
theorem Opcode.join  : Opcode.Statement (.join ) := Opcode.of rfl rfl (packA_opcode ..)
theorem Opcode.loop (g : Guard) (va : Reg) (off : Word) (fit : Bool) : Opcode.Statement (.loop g va off fit) := Opcode.of rfl rfl (packI_opcode ..)
theorem Opcode.call (g : Guard) (off : Word) : Opcode.Statement (.call g off) := Opcode.of rfl rfl (packI_opcode ..)
theorem Opcode.ret (g : Guard) : Opcode.Statement (.ret g) := Opcode.of rfl rfl (packA_opcode ..)
theorem Opcode.exit (g : Guard) : Opcode.Statement (.exit g) := Opcode.of rfl rfl (packA_opcode ..)
theorem Opcode.nop (g : Guard) : Opcode.Statement (.nop g) := Opcode.of rfl rfl (packA_opcode ..)
theorem Opcode.yield (g : Guard) : Opcode.Statement (.yield g) := Opcode.of rfl rfl (packA_opcode ..)
theorem Opcode.trap (g : Guard) (imm : Word) : Opcode.Statement (.trap g imm) := Opcode.of rfl rfl (packI_opcode ..)
theorem Opcode.rett  : Opcode.Statement (.rett ) := Opcode.of rfl rfl (packA_opcode ..)
theorem Opcode.bkpt (g : Guard) (imm : Word) : Opcode.Statement (.bkpt g imm) := Opcode.of rfl rfl (packI_opcode ..)
theorem Opcode.sleep (g : Guard) (imm : Word) (dlv : Bool) : Opcode.Statement (.sleep g imm dlv) := Opcode.of rfl rfl (packI_opcode ..)
theorem Opcode.issueSelect (core lane : Nat) : Opcode.Statement (.issueSelect core lane) := rfl
theorem Opcode.loadComplete (grp idx : Nat) : Opcode.Statement (.loadComplete grp idx) := rfl
theorem Opcode.chunkCommit (grp : Nat) : Opcode.Statement (.chunkCommit grp) := rfl
theorem Opcode.streamStoreApply (k : Nat) : Opcode.Statement (.streamStoreApply k) := rfl
theorem Opcode.reductionApply (k half : Nat) : Opcode.Statement (.reductionApply k half) := rfl
theorem Opcode.mwaitResume (grp : Nat) : Opcode.Statement (.mwaitResume grp) := rfl
theorem Opcode.sleepExpire (grp : Nat) : Opcode.Statement (.sleepExpire grp) := rfl
theorem Opcode.pageWalkComplete (k : Nat) : Opcode.Statement (.pageWalkComplete k) := rfl
theorem Opcode.l2Evict (line : Nat) : Opcode.Statement (.l2Evict line) := rfl
theorem Opcode.matrixDispatch (core : Nat) : Opcode.Statement (.matrixDispatch core) := rfl
theorem Opcode.matrixComplete (core k : Nat) : Opcode.Statement (.matrixComplete core k) := rfl
theorem Opcode.mstrpPairDiscard (core : Nat) : Opcode.Statement (.mstrpPairDiscard core) := rfl
theorem Opcode.recordFetch (core : Nat) : Opcode.Statement (.recordFetch core) := rfl
theorem Opcode.instanceStart (core : Nat) : Opcode.Statement (.instanceStart core) := rfl
theorem Opcode.sectorLand (core inst sec : Nat) : Opcode.Statement (.sectorLand core inst sec) := rfl
theorem Opcode.instanceComplete (core inst : Nat) : Opcode.Statement (.instanceComplete core inst) := rfl
theorem Opcode.pcmtTakeEffect (plan pipe slot : Nat) : Opcode.Statement (.pcmtTakeEffect plan pipe slot) := rfl
theorem Opcode.crelTakeEffect (plan pipe slot : Nat) : Opcode.Statement (.crelTakeEffect plan pipe slot) := rfl
theorem Opcode.throttleRelay (plan pipe : Nat) : Opcode.Statement (.throttleRelay plan pipe) := rfl
theorem Opcode.crewExit (crew : Nat) : Opcode.Statement (.crewExit crew) := rfl
theorem Opcode.sinkArrival (plan : Nat) : Opcode.Statement (.sinkArrival plan) := rfl
theorem Opcode.balancerSample (plan : Nat) : Opcode.Statement (.balancerSample plan) := rfl
theorem Opcode.planRevisionPublish (plan : Nat) : Opcode.Statement (.planRevisionPublish plan) := rfl
theorem Opcode.planRevisionApply (plan : Nat) : Opcode.Statement (.planRevisionApply plan) := rfl
theorem Opcode.shadowProbe (plan pipe : Nat) : Opcode.Statement (.shadowProbe plan pipe) := rfl
theorem Opcode.deadlockDeclare (plan pipe : Nat) : Opcode.Statement (.deadlockDeclare plan pipe) := rfl
theorem Opcode.forcedDrainTimeout (plan : Nat) : Opcode.Statement (.forcedDrainTimeout plan) := rfl
theorem Opcode.qtailWrite (fn page : Nat) (v : Word) : Opcode.Statement (.qtailWrite fn page v) := rfl
theorem Opcode.qcfgWrite (fn page : Nat) (v : Word64) : Opcode.Statement (.qcfgWrite fn page v) := rfl
theorem Opcode.registerWrite (fn : Nat) (reg : HostReg) (v : BitVec 512) : Opcode.Statement (.registerWrite fn reg v) := rfl
theorem Opcode.launchPacket (q : Nat) : Opcode.Statement (.launchPacket q) := rfl
theorem Opcode.drainPacket (q : Nat) : Opcode.Statement (.drainPacket q) := rfl
theorem Opcode.invalidatePacket (q : Nat) : Opcode.Statement (.invalidatePacket q) := rfl
theorem Opcode.invalidationComplete (k : Nat) : Opcode.Statement (.invalidationComplete k) := rfl
theorem Opcode.ageTick (q : Nat) : Opcode.Statement (.ageTick q) := rfl
theorem Opcode.launchSelect (places : List PipePlace) : Opcode.Statement (.launchSelect places) := rfl
theorem Opcode.namedCrewStart (crew : Nat) : Opcode.Statement (.namedCrewStart crew) := rfl
theorem Opcode.hintDeadline (core : Nat) : Opcode.Statement (.hintDeadline core) := rfl
theorem Opcode.saveComplete (core : Nat) : Opcode.Statement (.saveComplete core) := rfl
theorem Opcode.restore (image core : Nat) : Opcode.Statement (.restore image core) := rfl
theorem Opcode.deliveryArrive (k : Nat) : Opcode.Statement (.deliveryArrive k) := rfl
theorem Opcode.deliveryLand (k : Nat) : Opcode.Statement (.deliveryLand k) := rfl
theorem Opcode.deliveryResend (k : Nat) : Opcode.Statement (.deliveryResend k) := rfl
theorem Opcode.deliveryAck (k : Nat) : Opcode.Statement (.deliveryAck k) := rfl
theorem Opcode.nameRelease (idx : Nat) : Opcode.Statement (.nameRelease idx) := rfl
theorem Opcode.holdWatchdog : Opcode.Statement (.holdWatchdog ) := rfl
theorem Opcode.recomputeStart (ctx rec core level : Nat) : Opcode.Statement (.recomputeStart ctx rec core level) := rfl
theorem Opcode.recomputeComplete (core level : Nat) : Opcode.Statement (.recomputeComplete core level) := rfl
theorem Opcode.recomputeFail (core level : Nat) : Opcode.Statement (.recomputeFail core level) := rfl
theorem Opcode.sealedTileError (ctx rec : Nat) : Opcode.Statement (.sealedTileError ctx rec) := rfl
theorem Opcode.softError (st : Struct) (core addr : Nat) (bad : Bool) : Opcode.Statement (.softError st core addr bad) := rfl
theorem Opcode.fabricPacketReceive (port : Nat) (pkt : Packet) : Opcode.Statement (.fabricPacketReceive port pkt) := rfl
theorem Opcode.e2eTimeout (dst seq : Nat) : Opcode.Statement (.e2eTimeout dst seq) := rfl
theorem Opcode.e2eAck (dst seq : Nat) : Opcode.Statement (.e2eAck dst seq) := rfl
theorem Opcode.routeDetour (dst : Nat) : Opcode.Statement (.routeDetour dst) := rfl
theorem Opcode.linkTrain (port : Nat) (ok : Bool) : Opcode.Statement (.linkTrain port ok) := rfl
theorem Opcode.hostWindowWrite (fn off : Nat) (bytes : List Byte) : Opcode.Statement (.hostWindowWrite fn off bytes) := rfl
theorem Opcode.hostWindowRead (fn off len : Nat) : Opcode.Statement (.hostWindowRead fn off len) := rfl
theorem Opcode.createContext (fn root : Nat) (frames : List (Nat × Nat)) : Opcode.Statement (.createContext fn root frames) := rfl
theorem Opcode.teardown (fn ctx : Nat) : Opcode.Statement (.teardown fn ctx) := rfl
theorem Opcode.writeCcb (fn ctx : Nat) (c : Ccb) : Opcode.Statement (.writeCcb fn ctx c) := rfl
theorem Opcode.setQuota (fn ctx q : Nat) : Opcode.Statement (.setQuota fn ctx q) := rfl
theorem Opcode.bindPeer (fn ctx pkg peerCtx : Nat) (wins : List (Nat × Window)) : Opcode.Statement (.bindPeer fn ctx pkg peerCtx wins) := rfl
theorem Opcode.bindTenant (fn ctx tenant : Nat) : Opcode.Statement (.bindTenant fn ctx tenant) := rfl
theorem Opcode.readCounter (fn : Nat) : Opcode.Statement (.readCounter fn) := rfl
theorem Opcode.updateFirmware (fn version : Nat) (signed : Bool) : Opcode.Statement (.updateFirmware fn version signed) := rfl
theorem Opcode.lifecycleToken (fn key : Nat) : Opcode.Statement (.lifecycleToken fn key) := rfl
theorem Opcode.thermalSample (tj milliwatt : Nat) : Opcode.Statement (.thermalSample tj milliwatt) := rfl
theorem Opcode.stepFall : Opcode.Statement (.stepFall ) := rfl
theorem Opcode.clockStepChange : Opcode.Statement (.clockStepChange ) := rfl
theorem Opcode.lynxRestart : Opcode.Statement (.lynxRestart ) := rfl
theorem Opcode.powerGood (measured : Bool) (pkg : Nat) (failed : List Nat) : Opcode.Statement (.powerGood measured pkg failed) := rfl
theorem Opcode.voltageOutOfRange (out : Bool) : Opcode.Statement (.voltageOutOfRange out) := rfl
theorem Opcode.wipeComplete : Opcode.Statement (.wipeComplete ) := rfl
theorem Opcode.storeComplete (grp idx : Nat) : Opcode.Statement (.storeComplete grp idx) := rfl
theorem Opcode.badCommand (fn : Nat) : Opcode.Statement (.badCommand fn) := rfl

end Sys2Proof.Laws
end

