-- ==== Sys2Proof/Laws/Shared.lean ====
section
/-! SUPPORT. The shared operations of the computing instructions: what each of them answers for an instruction that enters. -/
namespace Sys2Proof.Machine

/-! ### The group as an instruction finds it -/

@[simp] theorem enteredGroup_elem (i : Instr) (s : State) (r : Reg) (t : Nat) : (enteredGroup i s).elem r t = s.me.elem r t := by
  simp [Group.elem]

@[simp] theorem enteredGroup_uniMark (i : Instr) (s : State) : (enteredGroup i s).uniMark = s.me.uniMark :=
  uniMark_eq (by simp) (by simp)

@[simp] theorem enteredGroup_execSet (i : Instr) (s : State) (S : Mask) : execSet (enteredGroup i s) S = execSet s.me S := by
  simp [execSet]

theorem spread_eq (g : Group) (S : Mask) (r : Nat → Word) : spread g S r = resultOf g S r := by
  funext t; unfold spread resultOf; split <;> rfl

@[simp] theorem enteredGroup_spread (i : Instr) (s : State) (S : Mask) (r : Nat → Word) :
    spread (enteredGroup i s) S r = resultOf s.me S r := by
  rw [spread_eq]; unfold resultOf; simp

/-! ### Vector writes leave other registers alone -/

theorem regKey_inj {r d : Reg} {i j : Nat} (h : r ≠ d) (hi : i < 32) (hj : j < 32) : regKey r i ≠ regKey d j := by
  unfold regKey
  intro he
  exact h (BitVec.eq_of_toNat_eq (by omega))

theorem regWord_setT {v : Tab Word} {r d : Reg} {i j : Nat} {w : Word} (h : r ≠ d) (hi : i < 32) (hj : j < 32) :
    regWord (setT v (regKey d j) w) r i = regWord v r i :=
  getT_setT_ne _ _ _ (regKey_inj h hi hj)

theorem regWord_foldl {d : Reg} {f : Nat → Word} {r : Reg} {i : Nat} (h : r ≠ d) (hi : i < 32) :
    ∀ (l : List Nat) (v : Tab Word), (∀ t ∈ l, t < 32) →
      regWord (l.foldl (fun v t => setT v (regKey d t) (f t)) v) r i = regWord v r i
  | [], _, _ => rfl
  | t :: l, v, hl => by
    rw [List.foldl_cons, regWord_foldl h hi l _ (fun t ht => hl t (List.mem_cons_of_mem _ ht)),
      regWord_setT h hi (hl t (List.mem_cons_self ..))]

theorem threads_lt {S : Mask} {t : Nat} (h : t ∈ threads S) : t < 32 := by
  unfold threads at h
  simp at h
  exact h.1

/-- A vector write changes its destination alone. -/
theorem writeVec_keeps {sh : BitVec 256} {v w : Tab Word} {d : Reg} {r : Nat → Word} {S : Mask} {fit : Bool}
    (h : writeVec sh v d r S fit = some w) : KeepsRegs v w [d] := by
  intro x hx i hi
  have hd : x ≠ d := by simpa using hx
  unfold writeVec at h
  split at h
  · simp at h; rw [h]
  · rename_i t0 rest ht
    split at h
    · simp only [Option.some.injEq] at h
      rw [← h]
      exact regWord_foldl hd hi _ _ (fun t hm => threads_lt (ht ▸ hm))
    · split at h
      · simp only [Option.some.injEq] at h
        rw [← h]; exact regWord_setT hd hi (by decide)
      · simp at h
    · split at h
      · simp only [Option.some.injEq] at h
        rw [← h, regWord_setT hd hi (by decide), regWord_setT hd hi (by decide)]
      · simp at h

/-! ### Instructions that compute a vector register -/

/-- What `vecOp` answers: the values written where they fit, a shape fault where they do not. -/
theorem vecOp_enters {i : Instr} {d : Reg} {fit : Bool} {f : Group → Mask → Nat → Word} {s : State}
    (he : Enters i (fun _ => 0) s) (hf : f (enteredGroup i s) = f s.me) :
    vecOp i d fit f s =
      match writeVec s.me.place.shape s.me.regs.v d (resultOf s.me (activeFor i s) (f s.me (execSet s.me (activeFor i s)))) (activeFor i s) fit with
      | some v => .next (retire (useIn i s) (activeFor i s) (useIn i s).writes
          ((entered i s).setMe { enteredGroup i s with regs := { s.me.regs with v := v } }))
      | none => .next (shapeFault d (activeFor i s) (entered i s)) := by
  unfold vecOp
  rw [prelude_enters he]
  simp only [finishWrite, writeReg, entered_me, enteredGroup_place, enteredGroup_regs, enteredGroup_spread, enteredGroup_execSet, hf]
  cases writeVec s.me.place.shape s.me.regs.v d
    (resultOf s.me (activeFor i s) (f s.me (execSet s.me (activeFor i s)))) (activeFor i s) fit <;> simp [useIn]

/-- What `predOp` answers: the bits of the active threads written to the predicate. -/
theorem predOp_enters {i : Instr} {p : Pred} {f : Group → Mask → Nat → Bool} {s : State}
    (he : Enters i (fun _ => 0) s) (hf : f (enteredGroup i s) = f s.me) :
    predOp i p f s = .next (retire (useIn i s) (activeFor i s) []
      ((entered i s).setMe { enteredGroup i s with regs :=
        { s.me.regs with p := writePred s.me.regs.p p (predBits s.me (activeFor i s) (f s.me (execSet s.me (activeFor i s)))) (activeFor i s) } })) := by
  unfold predOp
  rw [prelude_enters he]
  simp [predBits, useIn, hf]

/-- What `floatOp` answers: the values written where they fit with the flags raised, a shape fault where they do not. -/
theorem floatOp_enters {i : Instr} {d : Reg} {fit : Bool} {f : Group → Nat → FRes} {s : State}
    (he : Enters i (fun _ => 0) s) (hf : f (enteredGroup i s) = f s.me) :
    floatOp i d fit f s =
      match writeVec s.me.place.shape s.me.regs.v d (resultOf s.me (activeFor i s) fun t => BitVec.ofNat 32 (f s.me t).1) (activeFor i s) fit with
      | some v => .next (retire (useIn i s) (activeFor i s) (useIn i s).writes
          ((entered i s).setMe { enteredGroup i s with regs :=
            { s.me.regs with v := v, flg := s.me.regs.flg ||| flagsOf (execSet s.me (activeFor i s)) fun t => (f s.me t).2 } }))
      | none => .next (shapeFault d (activeFor i s) (entered i s)) := by
  unfold floatOp
  rw [prelude_enters he]
  simp only [writeReg, entered_me, enteredGroup_place, enteredGroup_regs, enteredGroup_spread, enteredGroup_execSet, hf]
  cases writeVec s.me.place.shape s.me.regs.v d
    (resultOf s.me (activeFor i s) fun t => BitVec.ofNat 32 (f s.me t).1) (activeFor i s) fit <;> simp [useIn, raiseFlags]

/-- What `compareOp` answers: the predicate written and the flags raised. -/
theorem compareOp_enters {i : Instr} {p q : Pred} {c : FCond} {k : Comb} {f : Group → Nat → FVal × FVal} {s : State}
    (he : Enters i (fun _ => 0) s) (hf : f (enteredGroup i s) = f s.me) :
    compareOp i p c k q f s = .next (retire (useIn i s) (activeFor i s) []
      ((entered i s).setMe { enteredGroup i s with regs := { s.me.regs with
        p := writePred s.me.regs.p p (predBits s.me (activeFor i s) fun t =>
          combine k (compareFloat c (f s.me t).1 (f s.me t).2).1 ((readPred s.me.regs.p q).getLsbD t)) (activeFor i s)
        flg := s.me.regs.flg ||| flagsOf (execSet s.me (activeFor i s)) fun t => (compareFloat c (f s.me t).1 (f s.me t).2).2 } })) := by
  unfold compareOp
  rw [prelude_enters he]
  simp [predBits, useIn, hf, raiseFlags]

/-- What `groupOp` answers: the instruction's own effect on the state it finds. -/
theorem groupOp_enters {i : Instr} {f : Use → Mask → State → Res} {s : State} (he : Enters i (fun _ => 0) s) :
    groupOp i f s = f (useIn i s) (activeFor i s) (entered i s) := by
  unfold groupOp
  rw [prelude_enters he]
  simp [useIn]

end Sys2Proof.Machine
end

