-- ==== Sys2Proof/Machine/Loader.lean ====
section
/-! DEFINITION. The loader of code objects (R45 to R49): what a DXO file becomes in a context. The loader is software of the host; no step of the
machine calls it (log 40). -/
namespace Sys2Proof.Machine

/-- A section table entry (R46). -/
structure Section where
  type : Nat
  align : Nat
  offset : Nat
  size : Nat
  rest : Nat

/-- A number of `n` bytes at a place of a file. -/
def fileNum (f : List Byte) (at' n : Nat) : Nat := leNat ((f.drop at').take n)

/-- R46: section entry `i`. -/
def sectionOf (f : List Byte) (i : Nat) : Section :=
  let a := 32 + 32 * i
  { type := fileNum f a 4, align := fileNum f (a + 4) 4, offset := fileNum f (a + 8) 8, size := fileNum f (a + 16) 8, rest := fileNum f (a + 24) 8 }

/-- The seven sections. -/
def sections (f : List Byte) : List Section := (List.range 7).map (sectionOf f)

/-- R45: the header's checks. An object whose flags[31:1] are not zero, whose magic is another or whose npool is above 1 048 576 is refused, and a
minor version other than 0 is accepted: the rule states no result for any of these (DESIGN CHOICE, log 88). -/
def dxoHeaderOk (f : List Byte) : Bool :=
  fileNum f 0 4 == 0x4F5844 && fileNum f 4 2 == 1 && decide (fileNum f 8 4 ≤ 1) && fileNum f 12 4 == 7 && decide (fileNum f 16 4 ≤ 1048576) &&
  fileNum f 20 12 == 0

/-- R46: the section table's checks. Of a breach other than of the types the rule states no result: reserved bytes, an alignment above 30, an offset
that is no multiple of 8, bytes beyond the file. The object is refused there too (DESIGN CHOICE, log 88). -/
def dxoSectionsOk (f : List Byte) : Bool :=
  (List.range 7).all fun i =>
    let x := sectionOf f i
    x.type == i + 1 && x.rest == 0 && decide (x.align ≤ 30) && x.offset % 8 == 0 && decide (x.offset + x.size ≤ f.length)

/-- The bytes of a section. -/
def sectionBytes (f : List Byte) (i : Nat) : List Byte := (f.drop (sectionOf f i).offset).take (sectionOf f i).size

/-- R47: where the loader may place a section. -/
def baseOk (x : Section) (base : Nat) : Bool := base % max 524288 (2 ^ x.align) == 0

/-- R48, R49: one pool entry patched, given the section bases and an address for an allocation; none where the object is refused. The flag says
that the address has been used. Reserved bits that are not zero have the object refused, for which R48 states no result (DESIGN CHOICE, log 88). -/
def patchEntry (bases : List Nat) (dataSize alloc e : Nat) : Option (Nat × Bool) :=
  let kind := bitsN e 104 8
  let base := bitsN e 0 64
  let put := fun (b k : Nat) => bitsN e 112 16 * 2 ^ 112 + k * 2 ^ 104 + bitsN e 64 40 * 2 ^ 64 + b % 2 ^ 64
  let attrs := bitsN e 112 2
  if bitsN e 114 14 ≠ 0 ∨ attrs = 3 ∨ (attrs ≠ 0 ∧ kind ≠ 2) then none
  else if kind = 1 then (if dataSize < base + bitsN e 64 40 then none else some (put (bases.getD 6 0 + base) 1, false))
  else if kind = 2 then some (put alloc 1, true)
  else if kind = 3 then some (e, false)
  else if kind = 4 then some (put (bases.getD 4 0 + base) 4, false)
  else if kind = 5 then some (put (bases.getD 5 0 + base) 5, false)
  else if kind = 6 ∨ kind = 7 then some (put (bases.getD 2 0 + base) kind, false)
  else none

/-- A range of a context's memory as the loader maps it: virtual and physical address, 512 KiB pages, and what its page-table entries say (R235). `own` says
that the memory is the context's own (R47, R49). -/
structure Mapping where
  va : Nat
  pa : Nat
  pages : Nat
  own : Bool := false
  write : Bool := false
  stream : Bool := false
  drop : Bool := false

/-- The 512 KiB pages that hold `n` bytes (R47, R49). -/
def pagesFor (n : Nat) : Nat := (n + 524287) / 524288

/-- R49: the whole pool patched; allocations take the given places in turn (virtual and physical address), and come back as what is to be mapped
and zeroed: whole pages, with the entry's attributes (R48). -/
def patchPool (bases : List Nat) (dataSize : Nat) (pool : List Byte) : Nat → Nat → List (Nat × Nat) → Option (List Byte × List Mapping)
  | 0, _, _ => some ([], [])
  | n + 1, i, allocs =>
    let e := fileNum pool (16 * i) 16
    let a := allocs.headD (0, 0)
    match patchEntry bases dataSize a.1 e with
    | none => none
    | some (p, used) =>
      if used && allocs.isEmpty then none
      else match patchPool bases dataSize pool n (i + 1) (if used then allocs.tail else allocs) with
      | none => none
      | some (bs, as) =>
        let m : Mapping := { va := a.1, pa := a.2, pages := pagesFor (bitsN e 64 40), own := true, write := true, stream := bitN e 112, drop := bitN e 113 }
        some (leBytes 16 p ++ bs, if used then m :: as else as)

/-- R235: the page-table entry of a mapping for a page at a physical address. -/
def Mapping.pte (m : Mapping) (pa : Nat) : Nat := pa + 128 * b2n m.drop + 64 * b2n m.stream + 32 + 16 * b2n m.write + 1

/-- R234, R235: a 512 KiB page entered in the page tables below a table, with new tables from the given places where one is missing. None where the
address has a translation already, an entry is bad, or no place is left. -/
def mapPage (ctx va pte : Nat) : List (Nat × Nat × Bool × Bool × Nat) → Nat → List Nat → State → Option (List Nat × State)
  | [], _, _, _ => none
  | l :: rest, table, tables, s =>
    let put := fun (v : Nat) (s : State) => writeGlobal s (pteAt table va l) (leBytes 8 v)
    if rest.isEmpty then (if readLE s.mem (pteAt table va l) 8 = 0 then some (tables, put pte s) else none)
    else match readPte s.homeMem (s.ctx ctx).frames ctx va l table, tables with
    | .ok (.next t), _ => mapPage ctx va pte rest t tables s
    | .ok (.page _), _ => none
    | .error c, t :: ts =>
      if c = causeNoTranslation then mapPage ctx va pte rest t ts (writeGlobal (put (t + 1) s) t (List.replicate l.2.2.2.2 0)) else none
    | .error _, [] => none

/-- The pages of a mapping entered one after the other; none where one cannot be, or does not translate to its place afterwards (R236). -/
def mapRange (ctx : Nat) (m : Mapping) : Nat → List Nat → State → Option (List Nat × State)
  | 0, tables, s => some (tables, s)
  | n + 1, tables, s =>
    match mapRange ctx m n tables s with
    | none => none
    | some (tables, s) =>
      let va := m.va + 524288 * n
      let pa := m.pa + 524288 * n
      match mapPage ctx va (m.pte pa) walkLevels (s.ctx ctx).root tables s with
      | none => none
      | some (tables, t) => match walk t ctx va with
        | .ok x => if x.pa == pa then some (tables, t) else none
        | .error _ => none

/-- The mappings of an object entered. -/
def mapAll (ctx : Nat) : List Mapping → List Nat → State → Option State
  | [], _, s => some s
  | m :: ms, tables, s => match mapRange ctx m m.pages tables s with
    | some (tables, s) => mapAll ctx ms tables s
    | none => none

/-- Bytes that the loader writes where a context's page tables place them. -/
def loadBytes (ctx va : Nat) (bs : List Byte) (s : State) : State :=
  ((List.range bs.length).zip bs).foldl (fun s e =>
    match walk s ctx (va + e.1) with
    | .ok x => writeGlobal s (x.phys (va + e.1)) [e.2]
    | .error _ => s) s

/-- R49: allocated memory zeroed, in whole pages. -/
def clearAllocs (as : List Mapping) (s : State) : State :=
  let inside := fun a => as.any fun m => decide (m.pa ≤ a) && decide (a < m.pa + 524288 * m.pages)
  { s with mem := s.mem.filter fun e => !inside e.1, badSec := s.badSec.filter fun b => !inside (32 * b) }

/-- R47: the mapping of section `i` at a place: .data for reading and writing, every other one read-only; .pool and .data are the context's own. -/
def sectionMapping (f : List Byte) (i : Nat) (place : Nat × Nat) : Mapping :=
  { va := place.1, pa := place.2, pages := pagesFor (sectionOf f i).size, own := i == 1 || i == 6, write := i == 6 }

/-- Whether two ranges (first byte and length) share a byte. -/
def rangesMeet (a b : Nat × Nat) : Bool := !apart a.1 a.2 b.1 b.2

/-- The physical range of a mapping. -/
def Mapping.range (m : Mapping) : Nat × Nat := (m.pa, 524288 * m.pages)

/-- The ranges of physical memory in which the loader has put something for a live context, and the root tables of these contexts, which count as
their own (R47, R234). -/
def placedRanges (s : State) : List (Nat × Nat × Bool) :=
  s.ctxs.flatMap fun e => if e.2.live then (e.2.root, 4096, true) :: e.2.placed else []

/-- Whether the ranges of an object stand apart from one another. -/
def standApart : List (Nat × Nat) → Bool
  | [] => true
  | r :: rs => !(rs.any (rangesMeet r)) && standApart rs

/-- R47, R49: where an object's memory may lie. Every range starts at a multiple of 512 KiB and the object's ranges and its new page tables (a frame
of 4 KiB each) stand apart; memory that is the context's own, and a page table, is new: nothing was placed there. A section that is not the context's
own may share its place with one of another context that is nobody's own and holds the same bytes. -/
def placesOk (ms : List Mapping) (tables : List Nat) (same : Mapping → Bool) (s : State) : Bool :=
  let old := placedRanges s
  let frames := tables.map fun t => (t, 4096)
  (ms.all fun m => m.va % 524288 == 0 && m.pa % 524288 == 0 &&
    !(old.any fun r => rangesMeet m.range (r.1, r.2.1) && (m.own || r.2.2 || !same m))) &&
  (tables.all fun t => t % 4096 == 0) && (frames.all fun t => !(old.any fun r => rangesMeet t (r.1, r.2.1))) &&
  standApart (ms.map Mapping.range ++ frames)

/-- Whether a section's place holds its bytes already. -/
def holdsBytes (s : State) (pa : Nat) (bs : List Byte) : Bool := ((List.range bs.length).zip bs).all fun e => readByte s.mem (pa + e.1) == e.2

/-- R45 to R49: an object loaded into a context at chosen places (virtual and physical) of its sections and allocations, with its base table (R343);
`tables` are places for new page tables. None where the object is refused, in which case nothing of it is mapped, or where the places do not do. -/
def loadObject (ctx table : Nat) (places allocs : List (Nat × Nat)) (tables : List Nat) (f : List Byte) (s : State) : Option State :=
  let n := fileNum f 16 4
  let pool := sectionBytes f 1
  let bases := places.map Prod.fst
  if !dxoHeaderOk f || !dxoSectionsOk f || pool.length != 16 * n || places.length != 7 || !(((sections f).zip bases).all fun e => baseOk e.1 e.2) then none
  else match patchPool bases (sectionOf f 6).size pool n 0 allocs with
  | none => none
  | some (patched, as) =>
    let ms := (places.mapIdx fun i p => sectionMapping f i p) ++ as
    let same := fun (m : Mapping) => (places.mapIdx fun i p => (i, p)).all fun e =>
      !(m.pages != 0 && e.2.2 == m.pa && pagesFor (sectionOf f e.1).size == m.pages) || holdsBytes s m.pa (sectionBytes f e.1)
    if !placesOk ms tables same s then none else
    match mapAll ctx ms tables s with
    | none => none
    | some s =>
    let s := clearAllocs as s
    let s := (List.range 7).foldl (fun s i => loadBytes ctx (bases.getD i 0) (if i = 1 then patched else sectionBytes f i) s) s
    let s := loadBytes ctx table (bases.flatMap (leBytes 8) ++ leBytes 8 0) s
    some (onCtx ctx (fun c => { c with
      objects := (table, n, fileNum f 8 4 == 1) :: c.objects.filter fun o => o.1 != table
      placed := ms.map (fun m => (m.pa, 524288 * m.pages, m.own)) ++ tables.map (fun t => (t, 4096, true)) ++ c.placed }) s)

end Sys2Proof.Machine
end

