-- ==== Sys2Proof/Tests/Slice0.lean ====
section
/-! SUPPORT. Tests: words of the spec's encodings, ill-formed terms, steps on small states, and for every statement with hypotheses a state and operands that
meet them. The words and the expected results are written from the spec's rules. -/
namespace Sys2Proof.Tests
open Sys2Proof.Machine Sys2Proof.Claims

/- The theorems are checked one after another: each is small, and together they would start more threads than a compile may have. -/
set_option Elab.async false

/-! ### Words of the spec's encodings -/

/-- No guard: p7, not negated. -/
def always : Guard := ⟨7, false⟩

/-- The guard !p2. -/
def notP2 : Guard := ⟨2, true⟩

/-- Words put together by hand from the fields that R63, R67, R111 to R121 give. -/
theorem test_decode_alu_1 :
    decode 0x00709142C0400000 = .ok (.iaddA always 9 10 11 true) ∧
    decode 0x00F0915080000001 = .ok (.iaddI always 9 10 0x80000001 true) ∧
    decode 0x01281040C0000000 = .ok (.isub notP2 1 2 3 false) ∧
    decode 0x01F7FFDF40000000 = .ok (.imulA always 127 126 125 false) ∧
    decode 0x027040A0FFFFFFFF = .ok (.imulI always 4 5 0xFFFFFFFF false) ∧
    decode 0x02F060E200000001 = .ok (.imulh always 6 7 8 true false) ∧
    decode 0x03709142C6400000 = .ok (.imad always 9 10 11 12 true) ∧
    decode 0x03F0D1C3C0400001 = .ok (.idiv always 13 14 15 true true) ∧
    decode 0x0471022480000000 = .ok (.irem always 16 17 18 false false) ∧
    decode 0x04F1328540000001 = .ok (.imin always 19 20 21 true false) ∧
    decode 0x057162E600000000 = .ok (.imax always 22 23 24 false false) ∧
    decode 0x05F1934000400000 = .ok (.iabs always 25 26 true) ∧
    decode 0x0671B38000000000 = .ok (.ineg always 27 28 false) ∧
    decode 0x0871D3C7C0000000 = .ok (.andA always 29 30 31 false) ∧
    decode 0x08F20420000000FF = .ok (.andI always 32 33 0xFF false) ∧
    decode 0x0972246900000000 = .ok (.orA always 34 35 36 false) := by
  refine ⟨?_, ?_, ?_, ?_, ?_, ?_, ?_, ?_, ?_, ?_, ?_, ?_, ?_, ?_, ?_, ?_⟩ <;> rfl

/-- Words put together by hand from the fields that R63, R67, R111 to R121 give. -/
theorem test_decode_alu_2 :
    decode 0x09F254D000000001 = .ok (.orI always 37 38 1 true) ∧
    decode 0x0A72750A40000000 = .ok (.xorA always 39 40 41 false) ∧
    decode 0x0AF2A56000000000 = .ok (.xorI always 42 43 0 false) ∧
    decode 0x0B72C5A000000000 = .ok (.not always 44 45 false) ∧
    decode 0x0FF2E5E000000000 = .ok (.popc always 46 47 false) ∧
    decode 0x1073062000400000 = .ok (.clz always 48 49 true) ∧
    decode 0x10F3266000000000 = .ok (.brev always 50 51 false) ∧
    decode 0x0BF346AD80000000 = .ok (.shlA always 52 53 54 false) ∧
    decode 0x0C7377000000001F = .ok (.shlI always 55 56 31 false) ∧
    decode 0x0CF3974EC0000000 = .ok (.shrA always 57 58 59 false) ∧
    decode 0x0D73C7A000000020 = .ok (.shrI always 60 61 32 false) ∧
    decode 0x0DF3E7F000000000 = .ok (.sarA always 62 63 64 false) ∧
    decode 0x0E74184000000007 = .ok (.sarI always 65 66 7 false) ∧
    decode 0x0EF4389140000001 = .ok (.bfx always 67 68 69 true false) ∧
    decode 0x0F7468F224C00000 = .ok (.bfi always 70 71 72 73 true) ∧
    decode 0x1174A9934000003F = .ok (.lea always 74 76 77 31 true false) := by
  refine ⟨?_, ?_, ?_, ?_, ?_, ?_, ?_, ?_, ?_, ?_, ?_, ?_, ?_, ?_, ?_, ?_⟩ <;> rfl

/-- Words put together by hand from the fields that R63, R67, R111 to R121 give. -/
theorem test_decode_alu_3 :
    decode 0x147019D3C180002B = .ok (.isetpA always 1 78 79 .le true .or 3) ∧
    decode 0x14F02A0D00000009 = .ok (.isetpI always 2 80 9 .ge true) ∧
    decode 0x15751A54C2C00001 = .ok (.sel always 81 82 83 5 true true) ∧
    decode 0x15F54AA000000000 = .ok (.mov always 84 85 false) ∧
    decode 0x1675600012345678 = .ok (.movi always 86 0x12345678 false) ∧
    decode 0x16F570C000000000 = .ok (.movs always 87 .round false) ∧
    decode 0x18701040C0000000 = .ok (.pand always 1 2 3) ∧
    decode 0x18F040A180000000 = .ok (.por always 4 5 6) ∧
    decode 0x1970700040000000 = .ok (.pxor always 7 0 1) ∧
    decode 0x19F0206000000000 = .ok (.pnot always 2 3) ∧
    decode 0x1A75808000400004 = .ok (.vote always 88 4 .ballot true true) ∧
    decode 0x1A7050C000000003 = .ok (.vote always 5 6 .eq false false) ∧
    decode 0x1AF59B56C0000003 = .ok (.shfl always 89 90 91 .xor false) ∧
    decode 0x1B75CBA00040001A = .ok (.redg always 92 93 .fmax true true) := by
  refine ⟨?_, ?_, ?_, ?_, ?_, ?_, ?_, ?_, ?_, ?_, ?_, ?_, ?_, ?_⟩ <;> rfl

/-- Words put together by hand from the fields that R67, R141, R145 to R156 give. -/
theorem test_decode_float_1 :
    decode 0x20701040C0400001 = .ok (.faddA always 1 2 3 .rne true) ∧
    decode 0x20F040A23F800000 = .ok (.faddI always 4 5 0x3F800000 .rtz false) ∧
    decode 0x217060E200000003 = .ok (.fsub always 6 7 8 .rup false) ∧
    decode 0x21F09142C0000004 = .ok (.fmulA always 9 10 11 .rdn false) ∧
    decode 0x2270C1B5BF800000 = .ok (.fmulI always 12 13 0xBF800000 .rna true) ∧
    decode 0x22F0E1E408800000 = .ok (.ffma always 14 15 16 17 .fmt false) ∧
    decode 0x2371226500000000 = .ok (.fmin always 18 19 20 false) ∧
    decode 0x23F152C5C0400000 = .ok (.fmax always 21 22 23 true) ∧
    decode 0x2470330642000033 = .ok (.fsetpA always 3 24 25 .le .xor 4) ∧
    decode 0x24F053477F800000 = .ok (.fsetpI always 5 26 0x7F800000 .nan) ∧
    decode 0x2871B38000000001 = .ok (.frcp always 27 28 .rne false) ∧
    decode 0x28F1D3C000000002 = .ok (.frsq always 29 30 .rtz false) ∧
    decode 0x2971F40000400000 = .ok (.fexp2 always 31 32 .fmt true) ∧
    decode 0x29F2144000000005 = .ok (.flog2 always 33 34 .rna false) ∧
    decode 0x2C7142A000010020 = .ok (.fcvt always 20 21 .bf16 .f32 1 0 .fmt false) ∧
    decode 0x2CF2348000473781 = .ok (.icvt always 35 36 .i4 .i8 7 3 .rne true) := by
  refine ⟨?_, ?_, ?_, ?_, ?_, ?_, ?_, ?_, ?_, ?_, ?_, ?_, ?_, ?_, ?_, ?_⟩ <;> rfl

/-- Words put together by hand from the fields that R67, R141, R145 to R156 give. -/
theorem test_decode_float_2 :
    decode 0x2D72550A5500000B = .ok (.qcvt always 37 40 41 42 true .rup false) ∧
    decode 0x3072B58B40000009 = .ok (.hadd2 always 43 44 45 .f16x2 .rne false) ∧
    decode 0x30F2E5EC00000000 = .ok (.hmul2 always 46 47 48 .bf16x2 .fmt false) ∧
    decode 0x3173164CDA400008 = .ok (.hfma2 always 49 50 51 52 .f16x2 .fmt true) := by
  refine ⟨?_, ?_, ?_, ?_⟩ <;> rfl

/-- Words put together by hand from the fields that R64, R66, R67, R161, R174, R175, R180, R184 to R186 give. -/
theorem test_decode_mem :
    decode 0x4070510023FFFFFC = .ok (.ldg always 5 8 0xFFFFFC .b8 true true true) ∧
    decode 0x40F0C14010000010 = .ok (.stg always 12 10 16 .b128) ∧
    decode 0x417040E006000002 = .ok (.ldl always 4 7 2 .b16 true false) ∧
    decode 0x41F061200C000008 = .ok (.stl always 6 9 8 .b64) ∧
    decode 0x42703160206FFFFF = .ok (.ldk always 3 0xFFFFF (some 11) .w2 true) ∧
    decode 0x4470E20533000000 = .ok (.atomg always 14 16 20 0 .cas64 true) ∧
    decode 0x44F0F22494000004 = .ok (.atoml always 15 17 18 4 .addF32 false) ∧
    decode 0x4570008195000040 = .ok (.red always 4 6 0x40 .addBf16x2) ∧
    decode 0x4828000000000003 = .ok (.fence notP2 .pod) ∧
    decode 0x48F0000000000000 = .ok (.chunk always) ∧
    decode 0x4971300000400000 = .ok (.chkst always 19 true) ∧
    decode 0x4A7002C001000080 = .ok (.pfg always 22 128 true) ∧
    decode 0x4AF0030000000000 = .ok (.cwb always 24 0) ∧
    decode 0x4B70034000FFFF80 = .ok (.cinv always 26 0xFFFF80 false) := by
  refine ⟨?_, ?_, ?_, ?_, ?_, ?_, ?_, ?_, ?_, ?_, ?_, ?_, ?_, ?_⟩ <;> rfl

/-- Words put together by hand from the fields that R67, R253 to R262 give. -/
theorem test_decode_matrix :
    decode 0x607000A000000000 = .ok (.mldp always 5) ∧
    decode 0x60F0000000000000 = .ok (.mswap always) ∧
    decode 0x6170A16306800001 = .ok (.mstr always 10 11 12 (some 13)) ∧
    decode 0x61F0E1E400000000 = .ok (.mstrp always 14 15 16 none) ∧
    decode 0x62711244CA22A000 = .ok (.mdrn always 17 18 19 20 .i4 true false true false true) ∧
    decode 0x62711244CA094000 = .ok (.mdrn always 17 18 19 20 .bf16 false true false true false) ∧
    decode 0x62F002A000000000 = .ok (.mzero always 21) ∧
    decode 0x637002C000000000 = .ok (.mdup always 22) := by
  refine ⟨?_, ?_, ?_, ?_, ?_, ?_, ?_, ?_⟩ <;> rfl

/-- Words put together by hand from the fields that R67, R278, R280, R286, R291 give. -/
theorem test_decode_engine :
    decode 0x807003C000100004 = .ok (.kick always 4 (some 30)) ∧
    decode 0x80F0002080000000 = .ok (.binit always 1 2) ∧
    decode 0x8170006102800003 = .ok (.arrive always 3 (some 4) (some 5)) ∧
    decode 0x8170006002800002 = .ok (.arrive always 3 none (some 5)) ∧
    decode 0x81F000C1C0000000 = .ok (.bexp always 6 7) ∧
    decode 0x8270812000400001 = .ok (.btest always 8 9 true true) ∧
    decode 0x8470014000000000 = .ok (.pcmt always 10) ∧
    decode 0x84F0016000000000 = .ok (.crel always 11) ∧
    decode 0x8570C1A02C000000 = .ok (.pstat always 12 .hlo 0 (some 13) true) ∧
    decode 0x8570C1A006100009 = .ok (.pstat always 12 .sfree 9 (some 13) false) ∧
    decode 0x8570C00014000000 = .ok (.pstat always 12 .whi 0 none false) := by
  refine ⟨?_, ?_, ?_, ?_, ?_, ?_, ?_, ?_, ?_, ?_, ?_⟩ <;> rfl

/-- Words put together by hand from the fields that R67, R135, R136, R355 to R379 give. -/
theorem test_decode_system_1 :
    decode 0xA070002000000000 = .ok (.setfmt always 1) ∧
    decode 0xA0F0200000400000 = .ok (.getfmt always 2 true) ∧
    decode 0xA170300000000001 = .ok (.csrr always 3 .flg false) ∧
    decode 0xA1F0008200000001 = .ok (.csrw always .flg 4 .clear) ∧
    decode 0xA470600000400000 = .ok (.gname always 6 true) ∧
    decode 0xA4F0C10000000001 = .ok (.arm always 12 (some 8)) ∧
    decode 0xA570D00000000000 = .ok (.armif always 13 none) ∧
    decode 0xA5F0C10500000000 = .ok (.regput always 12 8 20) ∧
    decode 0xA670E1E000000000 = .ok (.holdq always 14 (some 15) false) ∧
    decode 0xA670E00000400001 = .ok (.holdq always 14 none true) ∧
    decode 0xA871022480406000 = .ok (.rld always 16 17 18 .b16 true true) ∧
    decode 0xA8F142A580010000 = .ok (.rst always 20 21 22 .b128) ∧
    decode 0xA97183268E620000 = .ok (.ratom always 24 25 26 28 .exch64 true) ∧
    decode 0xA9F003A790020000 = .ok (.rred always 29 30 32 .addU64) ∧
    decode 0xAC70000000000000 = .ok (.tfence always) ∧
    decode 0xACF0042000100007 = .ok (.phint always 7 (some 33)) := by
  refine ⟨?_, ?_, ?_, ?_, ?_, ?_, ?_, ?_, ?_, ?_, ?_, ?_, ?_, ?_, ?_, ?_⟩ <;> rfl

/-- Words put together by hand from the fields that R67, R135, R136, R355 to R379 give. -/
theorem test_decode_system_2 :
    decode 0xAD72201800000200 = .ok (.pmcr always 34 0x200 true true) ∧
    decode 0xB073364A00000005 = .ok (.rcpdef always 51 50 40 5 false) ∧
    decode 0xB0F0050000000000 = .ok (.rseal always 40) ∧
    decode 0xB170054000000000 = .ok (.rdrop always 42) ∧
    decode 0xB1F0058B40000000 = .ok (.rpin always 44 45) ∧
    decode 0xB27005CBC0000000 = .ok (.runpin always 46 47) := by
  refine ⟨?_, ?_, ?_, ?_, ?_, ?_⟩ <;> rfl

/-- Words put together by hand from the fields that R65, R67, R127 to R134, R182, R278, R286, R294, R367 to R373 give. -/
theorem test_decode_ctrl_1 :
    decode 0xC0280000FFFFFFFF = .ok (.bra notP2 0xFFFFFFFF) ∧
    decode 0xC090000000000009 = .ok (.brd ⟨1, false⟩ 9) ∧
    decode 0xC170000000000000 = .ok (.join) ∧
    decode 0xC1F000F0FFFFFFFD = .ok (.loop always 7 0xFFFFFFFD true) ∧
    decode 0xC270000000000064 = .ok (.call always 100) ∧
    decode 0xC2A8000000000000 = .ok (.ret notP2) ∧
    decode 0xC370000000000000 = .ok (.exit always) ∧
    decode 0xC3F0000000000000 = .ok (.nop always) ∧
    decode 0xC470000000000000 = .ok (.yield always) ∧
    decode 0xC8700000DEADBEEF = .ok (.trap always 0xDEADBEEF) ∧
    decode 0xC8F0000000000000 = .ok (.rett) ∧
    decode 0xC970000000000003 = .ok (.bkpt always 3) ∧
    decode 0xC9F00001000003E8 = .ok (.sleep always 1000 true) ∧
    decode 0xCC70004141000004 = .ok (.mwait always 2 4 (some 5)) ∧
    decode 0xCCF0006100000000 = .ok (.bwait always 3 4) ∧
    decode 0xCD71400000000003 = .ok (.prsv always 20 3 none false) := by
  refine ⟨?_, ?_, ?_, ?_, ?_, ?_, ?_, ?_, ?_, ?_, ?_, ?_, ?_, ?_, ?_, ?_⟩ <;> rfl

/-- Words put together by hand from the fields that R65, R67, R127 to R134, R182, R278, R286, R294, R367 to R373 give. -/
theorem test_decode_ctrl_2 :
    decode 0xCDF152C020100006 = .ok (.ctak always 21 6 (some 22) true) ∧
    decode 0xCE7002E000100008 = .ok (.launch always 8 (some 23)) := by
  refine ⟨?_, ?_⟩ <;> rfl
/-- R69: an unassigned opcode, a field that is not used, a reserved modifier bit, a predicate number above 7, modifier values that are not defined, and a
register that breaks a limit are refused by name. -/
theorem test_decode_refuses :
    decode 0x06F0912200000000 = .error .unassigned ∧
    decode 0x0070912201000000 = .error .nonzeroField ∧
    decode 0x0070912200000001 = .error .nonzeroField ∧
    decode (0x187 <<< 55 + 7 <<< 52 + 1 <<< 44) = .error .nonzeroField ∧
    decode (0x030 <<< 55 + 7 <<< 52 + 8 <<< 44) = .error .nonzeroField ∧
    decode (0x036 <<< 55 + 7 <<< 52 + 0xB) = .error .undefinedModifier ∧
    decode (0x048 <<< 55 + 7 <<< 52 + 8) = .error .undefinedModifier ∧
    decode (0x080 <<< 55 + 7 <<< 52 + 5 <<< 26) = .error .undefinedModifier ∧
    decode (0x142 <<< 55 + 7 <<< 52 + 7) = .error .undefinedModifier ∧
    decode (0x022 <<< 55 + 7 <<< 52 + 1 <<< 44) = .error .operandLimit ∧
    decode 0xFFFFFFFFFFFFFFFF = .error .unassigned := by
  refine ⟨?_, ?_, ?_, ?_, ?_, ?_, ?_, ?_, ?_, ?_, ?_⟩ <;> rfl

/-! ### Ill-formed terms -/

/-- For each limit of an instruction word, a term that breaks it (R115, R116, R119, R149, R154, R156, R161). -/
theorem test_wf_refuses_operands :
    [Instr.lea always 1 2 3 0 false false, .lea always 0 3 3 0 false false, .isetpA always 1 2 3 .eq false .none 4, .fsetpA always 1 2 3 .eq .none 4,
     .vote always 8 1 .any false false, .vote always 7 1 .all false true, .fcvt always 1 2 .i32 .f32 0 0 .fmt false,
     .fcvt always 1 2 .f32 .t2 0 0 .fmt false, .fcvt always 1 2 .bf16 .f32 2 0 .fmt false, .fcvt always 1 2 .f32 .f16 0 2 .fmt false,
     .icvt always 1 2 .f32 .f16 0 0 .fmt false, .icvt always 1 2 .i8 .f32 4 0 .fmt false, .qcvt always 1 2 3 4 false .fmt false].all
      (fun i => i.wf == false) = true := by decide

/-- The same for the memory, matrix and pipe instructions (R161, R175, R186, R253, R262, R291). -/
theorem test_wf_refuses_memory :
    [Instr.ldg always 1 3 0 .b32 false false false, .ldg always 1 2 0 .b64 false false false, .ldg always 2 2 0 .b128 false false false,
     .ldg always 1 2 0 .b32 true false false, .stg always 1 3 0 .b32, .stg always 3 2 0 .b64, .ldl always 5 1 0 .b64 false false,
     .ldl always 4 1 0 .b64 true false, .stl always 2 1 0 .b128, .atomg always 1 3 4 0 .addU32 false, .atomg always 1 2 5 0 .cas32 false,
     .atomg always 2 2 6 0 .cas64 false, .atomg always 1 2 4 0 .addU64 false, .atoml always 1 2 4 0 .exch64 false, .atoml always 2 2 5 0 .exch64 false,
     .red always 2 4 0 .exch32, .red always 2 4 0 .cas64, .red always 3 4 0 .addU32, .red always 2 5 0 .addU64, .pfg always 1 0 false,
     .cwb always 1 0, .cinv always 1 0 true, .mwait always 1 0 none, .mdrn always 1 2 3 4 .t2 false false false false false, .mdup always 1,
     .pstat always 1 .tlo 0 none false, .pstat always 1 .seq 1 (some 2) false, .pstat always 1 .wlo 0 (some 2) false, .pstat always 1 .whi 1 none false].all
      (fun i => i.wf == false) = true := by decide

/-- The same for the system instructions (R355, R357, R360, R363, R375, R376). -/
theorem test_wf_refuses_system :
    [Instr.gname always 1 false, .arm always 1 (some 3), .armif always 1 (some 3), .regput always 1 3 4, .rld always 1 2 3 .b64 false false,
     .rld always 2 2 3 .b64 true false, .rst always 2 2 3 .b128, .ratom always 1 2 3 5 .cas32 false, .ratom always 1 2 3 4 .addU64 false,
     .rred always 2 3 4 .exch64, .rred always 2 3 5 .addU64, .rcpdef always 1 2 3 0 false, .rseal always 1, .rdrop always 1, .rpin always 1 2,
     .runpin always 1 2].all (fun i => i.wf == false) = true := by decide

/-! ### Small states, and the check that an instruction enters -/

/-- A group alone in its package: it issues the first of two words of a clause; v0 to v31 are thread-wise, v32 to v63 affine, the others uniform. -/
def lone (regs : Regs) : State :=
  let c : Clause := { base := 0, hdr := 31#5 ++ 6#3 ++ 1#4 ++ 15#4 ++ 15#4 ++ 0#44, first := 8, words := [0, 0] }
  let g : Group := { live := true, status := .issuing, pc := 8, clause := some c, regs := regs
                     place := { shape := 0x5555555555555555AAAAAAAAAAAAAAAA } }
  { cur := 1, serial := 2, groups := [(1, g)] }

/-- The same state with registers at zero. -/
def blank : State := lone {}

/-- The running group changed. -/
def withMe (s : State) (f : Group → Group) : State := s.setMe (f s.me)

/-- The conditions of `Enters`, as one truth value. -/
def enters (i : Instr) (rows : Group → Nat) (s : State) : Bool :=
  s.me.live && decide (s.me.status = .issuing) && decide (s.me.pend = none) && !(s.me.loads.any Load.hold) && wordOk s.me i && !s.me.closeReq &&
    !(issuing s).me.closeReq && decide (activeFor i s ≠ 0) && !((useIn i s).forbid && s.me.place.slice.isSome) &&
    decide (obstacle (useIn i s) (issuing s).me = none) &&
    (if (useIn i s).irr then !(issuing s).me.uncommitted
     else storeRoom (issuing s) (openChunk (issuing s).me)
      (((firstWrites (openChunk (issuing s).me) (useIn i s).writes).map fun r => (tagOf s.me.place.shape r).words).sum +
        5 * rows (openChunk (issuing s).me)))

theorem enters_spec {i : Instr} {rows : Group → Nat} {s : State} (h : enters i rows s = true) : Enters i rows s := by
  simp only [enters, Bool.and_eq_true, decide_eq_true_eq, Bool.not_eq_true'] at h
  obtain ⟨⟨⟨⟨⟨⟨⟨⟨⟨⟨a, b⟩, c⟩, d⟩, e⟩, f⟩, g⟩, k⟩, l⟩, m⟩, n⟩ := h
  exact ⟨a, b, c, d, e, f, g, k, l, m, fun q => by simpa [q] using n, fun q => by simpa [q] using n⟩

/-- Every instruction of a list enters, and a row of a table is its own. -/
def allEnter {α : Type} (row : Instr → Option α) (l : List Instr) (s : State) : Bool :=
  l.all fun i => enters i (fun _ => 0) s && (row i).isSome

theorem allEnter_spec {α : Type} {row : Instr → Option α} {l : List Instr} {s : State} (h : allEnter row l s = true) :
    ∀ i ∈ l, Enters i (fun _ => 0) s ∧ ∃ r, row i = some r := by
  intro i hi
  have := List.all_eq_true.mp h i hi
  rw [Bool.and_eq_true] at this
  exact ⟨enters_spec this.1, Option.isSome_iff_exists.mp this.2⟩

/-! ### Witnesses of the statements about integer, float and control instructions -/

/-- R112, R113. -/
def arithmetic : List Instr :=
  [.iaddA always 1 2 3 false, .iaddI always 1 2 5 false, .isub always 1 2 3 false, .imulA always 1 2 3 false, .imulI always 1 2 3 false,
   .imulh always 1 2 3 true false, .imad always 1 2 3 4 false, .idiv always 1 2 3 false false, .irem always 64 2 3 true true,
   .imin always 32 2 3 false false, .imax always 1 2 3 true false, .iabs always 1 2 false, .ineg always 1 2 true]

theorem witness_arithmetic : ∀ i ∈ arithmetic, Enters i (fun _ => 0) blank ∧ ∃ r, arithRow blank.me i = some r :=
  allEnter_spec (by decide +kernel)

/-- R112, R114. -/
def logic : List Instr :=
  [.andA always 1 2 3 false, .andI always 1 2 5 false, .orA always 1 2 3 false, .orI always 1 2 5 false, .xorA always 1 2 3 false,
   .xorI always 1 2 5 false, .not always 1 2 false, .popc always 1 2 false, .clz always 1 2 false, .brev always 1 2 false,
   .shlA always 1 2 3 false, .shlI always 1 2 31 false, .shrA always 1 2 3 false, .shrI always 1 2 32 false, .sarA always 1 2 3 false,
   .sarI always 1 2 0 false, .bfx always 1 2 3 true false, .bfi always 1 2 3 4 false]

theorem witness_logic : ∀ i ∈ logic, Enters i (fun _ => 0) blank ∧ ∃ r, logicRow blank.me i = some r :=
  allEnter_spec (by decide +kernel)

/-- R98, R99: a set and results of each kind: equal for a U destination and not; on one line, on none, and with no stride for an A destination. -/
theorem witness_vector_write :
    let two : Mask := 3
    let far : Mask := 5
    let step := fun (t : Nat) => BitVec.ofNat 32 (7 + 3 * t)
    (tagOf 0x5555555555555555AAAAAAAAAAAAAAAA 5 = .g ∧ tagOf 0x5555555555555555AAAAAAAAAAAAAAAA 32 = .a ∧
      tagOf 0x5555555555555555AAAAAAAAAAAAAAAA 64 = .u) ∧
    two ≠ 0 ∧ (∀ t ∈ threads two, (fun (_ : Nat) => (9 : Word)) t = 9) ∧ ¬ (∀ t ∈ threads two, step t = step 0) ∧
    ((1 : Word) * 3 = step 1 - step 0 ∧ ∀ y : Word, 1 * y = step 1 - step 0 → (3 : Word).toNat ≤ y.toNat) ∧
    (∀ t ∈ threads two, step t = step 0 + 3 * BitVec.ofNat 32 (t - 0)) ∧
    far ≠ 0 ∧ (∀ x : Word, ¬ (2 * x = 1 - 0)) ∧ (threads 7).map step ≠ [7, 10, 14] ∧ lowest 0x80000000 = 31 ∧ (0x80000000 : Mask) = oneThread 31 := by
  refine ⟨by decide, by decide, by decide, by decide, ⟨by decide, fun y h => ?_⟩, by decide, by decide, fun x h => ?_, by decide, by decide, by decide⟩
  · have : y = 3 := by simpa using h
    subst this; exact Nat.le_refl _
  · bv_omega

theorem witness_division :
    (Enters (.idiv always 1 2 3 false false) (fun _ => 0) blank ∧ Enters (.irem always 1 2 3 false false) (fun _ => 0) blank) ∧
    ((2 : Word) ≠ 0 ∧ ¬((7 : Word) = 0x80000000 ∧ (2 : Word) = 0xFFFFFFFF)) :=
  ⟨⟨enters_spec (by decide +kernel), enters_spec (by decide +kernel)⟩, by decide⟩

/-- R106, R117, R119, R120, R135, R136. -/
def moves : List Instr :=
  [.sel always 1 2 3 1 true false, .mov always 64 65 false, .movi always 1 9 false, .movs always 32 .tid false, .vote always 1 1 .ballot false false,
   .shfl always 1 2 3 .xor false, .getfmt always 64 false, .csrr always 64 .amask false]

theorem witness_moves :
    ∀ i ∈ moves, Enters i (fun _ => 0) blank ∧ ∃ r, moveRow blank blank.me (execSet blank.me (activeFor i blank)) i = some r := by
  intro i hi
  have h : moves.all (fun i => enters i (fun _ => 0) blank && (moveRow blank blank.me (execSet blank.me (activeFor i blank)) i).isSome) = true := by
    decide +kernel
  have := List.all_eq_true.mp h i hi
  rw [Bool.and_eq_true] at this
  exact ⟨enters_spec this.1, Option.isSome_iff_exists.mp this.2⟩

/-- R185, R359, R374. -/
def ownReads : List Instr :=
  [.chkst always 64 false, .holdq always 64 (some 3) false, .holdq always 64 none false, .pmcr always 64 0x200 true false, .pmcr always 64 0x207 false false]

theorem witness_own_reads :
    ∀ i ∈ ownReads, Enters i (fun _ => 0) blank ∧ ∃ r, ownRow blank (enteredGroup i blank) i = some r := by
  intro i hi
  have h : ownReads.all (fun i => enters i (fun _ => 0) blank && (ownRow blank (enteredGroup i blank) i).isSome) = true := by decide +kernel
  have := List.all_eq_true.mp h i hi
  rw [Bool.and_eq_true] at this
  exact ⟨enters_spec this.1, Option.isSome_iff_exists.mp this.2⟩

/-- GNAME, LEA, REDG, QCVT, NOP, YIELD, SETFMT, CSRW, SLEEP and CHUNK enter; QCVT also with a full set of modifiers. -/
theorem witness_enter :
    ∀ i ∈ [Instr.gname always 64 false, .lea always 2 4 6 3 true false, .redg always 1 2 .fadd true false, .qcvt always 2 4 64 65 true .rne false,
      .nop always, .yield always, .setfmt always 64, .csrw always .flg 64 .write, .csrw always .chklim 64 .set, .csrw always .stk 64 .clear,
      .sleep always 0 false, .sleep always 5 true, .chunk always, .pfg always 2 0 true, .fence always .pod], Enters i (fun _ => 0) blank := by
  intro i hi
  exact (allEnter_spec (row := fun _ => some ()) (by decide +kernel) i hi).1

/-- R104, R116, R118, R119. -/
def predicates : List Instr :=
  [.isetpA always 1 2 3 .lt true .and 2, .isetpI always 1 2 9 .ge false, .pand always 1 2 3, .por always 1 2 3, .pxor always 1 2 3, .pnot always 1 2,
   .vote always 1 2 .any true false, .vote always 1 2 .all false false, .vote always 7 2 .eq false false]

theorem witness_predicates :
    ∀ i ∈ predicates, Enters i (fun _ => 0) blank ∧ ∃ r, predRow blank.me (execSet blank.me (activeFor i blank)) i = some r := by
  intro i hi
  have h : predicates.all (fun i => enters i (fun _ => 0) blank && (predRow blank.me (execSet blank.me (activeFor i blank)) i).isSome) = true := by
    decide +kernel
  have := List.all_eq_true.mp h i hi
  rw [Bool.and_eq_true] at this
  exact ⟨enters_spec this.1, Option.isSome_iff_exists.mp this.2⟩

/-- R145, R147, R150. -/
def floats : List Instr :=
  [.faddA always 1 2 3 .rne false, .faddI always 1 2 0x3F800000 .fmt false, .fsub always 1 2 3 .rdn false, .fmulA always 1 2 3 .rup false,
   .fmulI always 1 2 0x3F800000 .rtz false, .ffma always 1 2 3 4 .rna false, .fmin always 1 2 3 false, .fmax always 1 2 3 false,
   .frcp always 1 2 .fmt false, .frsq always 1 2 .fmt false, .fexp2 always 1 2 .fmt false, .flog2 always 1 2 .fmt false]

theorem witness_floats : ∀ i ∈ floats, Enters i (fun _ => 0) blank ∧ ∃ r, floatRow blank.me i = some r :=
  allEnter_spec (by decide +kernel)

/-- R152, R154, R155. -/
def packed : List Instr :=
  [.hadd2 always 1 2 3 .bf16x2 .fmt false, .hmul2 always 1 2 3 .f16x2 .fmt false, .hfma2 always 1 2 3 4 .bf16x2 .rne false,
   .fcvt always 1 2 .bf16 .f32 1 0 .fmt false, .icvt always 1 2 .i8 .f32 3 0 .fmt false]

theorem witness_packed : ∀ i ∈ packed, Enters i (fun _ => 0) blank ∧ ∃ r, packedRow blank.me i = some r :=
  allEnter_spec (by decide +kernel)

/-- R148, R149: both forms of FSETP. -/
theorem witness_float_compare :
    (Enters (.fsetpA always 1 2 3 .lt .and 4) (fun _ => 0) blank ∧
      ∃ g a b, Instr.fsetpA always 1 2 3 .lt .and 4 = .fsetpA g 1 a b .lt .and 4 ∧ blank.me.f32 2 = blank.me.f32 a ∧ blank.me.f32 3 = blank.me.f32 b) ∧
    (Enters (.fsetpI always 7 2 0x7FC00000 .nan) (fun _ => 0) blank ∧
      ∃ g a imm, Instr.fsetpI always 7 2 0x7FC00000 .nan = .fsetpI g 7 a imm .nan ∧ Comb.none = .none ∧ blank.me.f32 2 = blank.me.f32 a ∧
        (fun (_ : Nat) => blank.me.immF32 0x7FC00000) = fun _ => blank.me.immF32 imm) :=
  ⟨⟨enters_spec (by decide +kernel), always, 2, 3, rfl, rfl, rfl⟩, ⟨enters_spec (by decide +kernel), always, 2, 0x7FC00000, rfl, rfl, rfl, rfl⟩⟩

/-- R83: a positive denominator. R146: a format that is not E4M3. R151: a negative number that is not zero. R407: a fault whose fields fit the record. -/
theorem witness_small :
    0 < 3 ∧ fp32.e4m3 = false ∧ bf16.e4m3 = false ∧ (1 : Nat) ≠ 0 ∧
    (let f : Flt := { cls := 255, cause := 255, info := 0, addr := 2 ^ 64 - 1, fmask := 0, thr := 255, pc := 0, ret := 0 }
     f.addr < 2 ^ 64 ∧ f.cls < 256 ∧ f.cause < 256 ∧ f.thr < 256) := by decide

/-! ### Witnesses: control, traps and the group's registers -/

/-- An entry of the reconvergence stack. -/
def entryOfKind (k : BitVec 4) (m : Mask) (pc : Pc) : StackEntry := { fmt := 0, mask := m, kind := k, target := pc }

/-- Predicates with p2 set for the odd threads. -/
def odd : Regs := { p := [(2, 0xAAAAAAAA)] }

/-- R127, R128, R130, R131: the four branches enter with room on the stack, with guards that choose every thread, some and none. -/
theorem witness_branches :
    ((HasRoom blank 2 ∧ HasRoom blank 1) ∧ HasRoom (lone odd) 2 ∧ HasRoom (lone odd) 1) ∧
    (Enters (.bra always 4) (pushRows 1) blank ∧ chosen blank.me always = 0xFFFFFFFF) ∧
    (Enters (.bra notP2 4) (pushRows 1) (lone odd) ∧ chosen (lone odd).me notP2 = 0x55555555) ∧
    (Enters (.bra ⟨1, false⟩ 4) (pushRows 1) blank ∧ chosen blank.me ⟨1, false⟩ = 0) ∧
    (Enters (.loop notP2 5 4 false) (pushRows 1) (lone odd) ∧ Enters (.loop always 64 4 false) (pushRows 1) blank) ∧
    (Enters (.brd always 4) (pushRows 2) blank ∧ Enters (.brd notP2 4) (pushRows 2) (lone odd) ∧ Enters (.brd ⟨1, false⟩ 4) (pushRows 2) blank) ∧
    (Enters (.call always 4) (pushRows 2) blank ∧ Enters (.call notP2 4) (pushRows 2) (lone odd) ∧ Enters (.call ⟨1, false⟩ 4) (pushRows 2) blank) := by
  refine ⟨by unfold HasRoom; decide +kernel, ⟨?_, by decide +kernel⟩, ⟨?_, by decide +kernel⟩, ⟨?_, by decide +kernel⟩, ⟨?_, ?_⟩, ⟨?_, ?_, ?_⟩, ⟨?_, ?_, ?_⟩⟩ <;>
    exact enters_spec (by decide +kernel)

/-- R129, R132, R133, R368: stacks on which JOIN, RET, EXIT and RETT act: a pending entry above an empty one, a reconvergence entry, a CALL entry, a
LOOP entry that keeps threads, an empty stack, a TRAP entry. -/
theorem witness_joins :
    let dead := entryOfKind 0 0 0x40
    let pend := lone { stack := [dead, entryOfKind 0 3 0x80] }
    let whole := lone { stack := [entryOfKind 0 0xFF 0xFFFFFFFFFFFF] }
    let call := lone { odd with stack := [entryOfKind 2 0xFFFFFFFF 0x100] }
    let loopy := lone { amask := 1, stack := [entryOfKind 2 1 0x40, entryOfKind 1 6 0x80] }
    let trap := lone { stack := [entryOfKind 3 0xFFFFFFFF 0x18] };
    (Enters .join (fun _ => 0) pend ∧ pend.me.regs.spilled = 0 ∧ pend.me.regs.stack = [dead] ++ entryOfKind 0 3 0x80 :: [] ∧
      (∀ x ∈ [dead], x.kind = 0 ∧ x.target ≠ 0xFFFFFFFFFFFF ∧ x.mask = 0) ∧ (entryOfKind 0 3 0x80).mask ≠ 0) ∧
    (Enters .join (fun _ => 0) whole ∧ whole.me.regs.stack = [] ++ entryOfKind 0 0xFF 0xFFFFFFFFFFFF :: []) ∧
    (Enters (.ret always) (removeRows call (guarded call.me always) true) call ∧ chosen call.me always = call.me.regs.amask) ∧
    (Enters (.ret notP2) (removeRows call (guarded call.me notP2) true) call ∧ chosen call.me notP2 ≠ 0 ∧ chosen call.me notP2 ≠ call.me.regs.amask) ∧
    (Enters (.exit notP2) (removeRows call (guarded call.me notP2) false) call) ∧
    (Enters (.exit always) (removeRows loopy (guarded loopy.me always) false) loopy ∧ chosen loopy.me always = loopy.me.regs.amask ∧
      loopy.me.regs.stack = [entryOfKind 2 1 0x40] ++ entryOfKind 1 6 0x80 :: [] ∧
      (∀ x ∈ [entryOfKind 2 1 0x40], x.kind.toNat ≤ 3 ∧ x.mask &&& ~~~(1 : Mask) = 0) ∧ (entryOfKind 1 6 0x80).mask &&& ~~~(1 : Mask) ≠ 0) ∧
    (Enters (.exit always) (removeRows blank (guarded blank.me always) false) blank ∧ blank.me.regs.stack = []) ∧
    (Enters .rett (fun _ => 0) trap ∧ trap.me.regs.stack = entryOfKind 3 0xFFFFFFFF 0x18 :: [] ∧ (entryOfKind 3 0xFFFFFFFF 0x18).mask ≠ 0) := by
  refine ⟨⟨?_, by decide, by decide, by decide, by decide⟩, ⟨?_, by decide⟩, ⟨?_, by decide⟩, ⟨?_, by decide, by decide⟩, ?_,
    ⟨?_, by decide, by decide, by decide, by decide⟩, ⟨?_, by decide⟩, ⟨?_, by decide, by decide⟩⟩ <;> exact enters_spec (by decide +kernel)

/-- R77, R107 to R109: legal and illegal values for SETFMT and CSRW. -/
theorem witness_control_registers :
    let s := lone { v := [(2048, 0x26664000), (2080, 0x70000000), (2112, 16), (2144, 15)] };
    (Enters (.setfmt always 64) (fun _ => 0) s ∧ Enters (.setfmt always 65) (fun _ => 0) s ∧ s.me.uval 64 = 0x26664000 ∧ s.me.uval 65 = 0x70000000) ∧
    (Enters (.csrw always .chklim 66 .write) (fun _ => 0) s ∧ s.me.uval 66 = 16 ∧ Enters (.csrw always .chklim 67 .write) (fun _ => 0) s ∧ s.me.uval 67 = 15) ∧
    Enters (.csrw always .stk 66 .set) (fun _ => 0) s ∧ Enters (.csrw always .flg 65 .clear) (fun _ => 0) s := by
  refine ⟨⟨?_, ?_, by decide, by decide⟩, ⟨?_, by decide, ?_, by decide⟩, ?_, ?_⟩ <;> exact enters_spec (by decide +kernel)

/-- A context with trap handling enabled, and a group whose stack leaves room for the record below it. -/
def handled (flg : Word) (bkpt : Bool) : State :=
  { lone { flg := flg, stk := 0x00800040 } with ctxs := [(0, { live := true, ccb := ⟨0, 4, 0, 0, 1000, 200, 0x800, bkpt, false, true⟩ })] }

/-- The conditions of `TrapReady` where one group stands alone, as one truth value. -/
def trapReady (s : State) : Bool :=
  decide (s.me.place.slice = none) && (s.ctx s.me.place.ctx).ccb.ten && decide (32 ≤ stkBase s.me.regs) &&
    !(recordBlocked (s.core s.me.place.core) (stkBase s.me.regs - 32)) && decide (s.me.opn = none) && decide (s.me.clo = none) &&
    decide (s.me.regs.stack.length + 1 ≤ 32) && decide (stkDepth s.me.regs + 1 ≤ 32 + stkCap s.me.regs) && s.groups.all (fun e => e.1 == s.cur) &&
    Memory.wf (s.core s.me.place.core).lm

theorem trapReady_spec {s : State} (h : trapReady s = true) : TrapReady s := by
  simp only [trapReady, Bool.and_eq_true, decide_eq_true_eq, Bool.not_eq_true', List.all_eq_true, beq_iff_eq] at h
  obtain ⟨⟨⟨⟨⟨⟨⟨⟨⟨a, b⟩, c⟩, d⟩, e⟩, f⟩, g⟩, k⟩, l⟩, m⟩ := h
  exact ⟨m, a, b, c, d, fun x hx hn => absurd (l x hx) hn, ⟨e, f⟩, ⟨g, k⟩⟩

/-- R367, R369, R370, R406: states in which TRAP, BKPT and TFENCE deliver, and in which the last two have no effect. -/
theorem witness_traps :
    (Enters (.trap always 5) (fun _ => 0) (handled 0 true) ∧ TrapReady (handled 0 true)) ∧
    (Enters (.bkpt always 5) (fun _ => 0) (handled 0 true) ∧ ((handled 0 true).ctx 0).ccb.bkpt = true) ∧
    (Enters (.bkpt always 5) (fun _ => 0) (handled 0 false) ∧ ((handled 0 false).ctx 0).ccb.bkpt = false) ∧
    (Enters (.tfence always) (fun _ => 0) (handled 0x00010001 false) ∧ TrapReady (handled 0x00010001 false) ∧
      (0x00010001 : Word) &&& 0x1FF &&& (0x00010001 >>> 16) ≠ 0) ∧
    (Enters (.tfence always) (fun _ => 0) (handled 0x00020001 false) ∧ (0x00020001 : Word) &&& 0x1FF &&& (0x00020001 >>> 16) = 0) ∧
    (handled 0 true).me.opn = none ∧ (handled 0 true).me.clo = none ∧ (handled 0 true).me.mcmd = 0 ∧ (handled 0 true).me.dlv = 0 := by
  refine ⟨⟨enters_spec (by decide +kernel), trapReady_spec (by decide +kernel)⟩, ⟨enters_spec (by decide +kernel), by decide⟩,
    ⟨enters_spec (by decide +kernel), by decide⟩, ⟨enters_spec (by decide +kernel), trapReady_spec (by decide +kernel), by decide⟩,
    ⟨enters_spec (by decide +kernel), by decide⟩, by decide, by decide, by decide, by decide⟩

/-- R122, R123: a full lane, and room in local memory for the entry that goes. -/
theorem witness_spill :
    let s := lone { stk := 0x00800040, stack := List.replicate 32 (entryOfKind 1 1 0x40) };
    s.me.regs.stack.length = 32 ∧ (∀ e ∈ s.groups, e.1 = s.cur) ∧
      ((match pushEntry s.cur (entryOfKind 2 1 0x80) s with | .ok _ => true | _ => false) = true) := by decide +kernel

/-- R105: words whose guard leaves no thread: IADD, RET and EXIT. -/
theorem witness_skipped :
    ∀ i ∈ [Instr.iaddA ⟨1, false⟩ 1 2 3 false, .ret ⟨1, false⟩, .exit ⟨1, false⟩],
      (encode i).isSome = true ∧ blank.me.live = true ∧ blank.me.pend = none ∧ wordOk blank.me i = true ∧ blank.me.closeReq = false ∧
        (issuing blank).me.closeReq = false ∧ activeFor i blank = 0 := by decide +kernel


/-! ### A context with page tables, a pool and pipes -/

/-- 64-bit words of memory. -/
def words (l : List (Nat × Nat)) (m : Memory) : Memory := l.foldl (fun m e => writeBytes m e.1 (leBytes 8 e.2)) m

/-- Page tables with a writable page of 1 GiB at 0 a streaming read-only one above it and a droppable one (R234); a constant pool of a hint, a recipe, a plan and two pipes
(R46, R174). -/
def tables : Memory :=
  words [(0x10000, 0x11001), (0x11000, 0x12001), (0x12000, 0x31), (0x12008, 0x40000061), (0x12010, 0x800000B1),
    (0x20000, 0x30000), (0x20008, 0x40000000000), (0x20010, 0x31000), (0x20018, 0x50000000001), (0x20020, 0x32000), (0x20028, 0x60000000000),
    (0x20030, 0x33000), (0x20038, 0x70000000000), (0x20040, 0x34000), (0x20048, 0x70000000000)] []

/-- The two pages as a TLB holds them. -/
def page : Xlat := { ctx := 0, va := 0, size := 1073741824, pa := 0, drop := false, stream := false, write := true }
def streamPage : Xlat := { ctx := 0, va := 1073741824, size := 1073741824, pa := 1073741824, drop := false, stream := true, write := false }

/-- The pipes of the plan: one of this package with both its sides on stage 0, one linked. -/
def onePipe : Pipe := { desc := 0x33000, depth := 2, mem := { tileVa := 0x100000, thdrVa := 0x200000, ringVa := 0x300000, rhdrVa := 0x400000 } }
def linkedPipe : Pipe := { desc := 0x34000, link := true, lkey := 9, peer := some 1 }

/-- The plan and the crew of the running group, and its context. -/
def onePlan : Plan := { ctx := 0, tag := 5, pri := 3, org := { table := 0x22000, npool := 5 }, stages := [{}], pipes := [onePipe, linkedPipe], tw := 100, poolVa := 0x20000 }
def oneCrew : Crew := { plan := 0, stage := 0, core := 0, index := 0, weight := 100, groups := [1], prod := 0, ctx := 0 }
def oneCtx : Context := { live := true, root := 0x10000, frames := [(0, 0x8000000000)], tenant := some 4, objects := [(0x22000, 5, false)] }

/-- The lone group in that context. -/
def mapped (regs : Regs) : State :=
  { lone regs with
    mem := tables, cores := [(0, { tlb := [page, streamPage], plan := some 0, inited := 1 })], ctxs := [(0, oneCtx)], plans := [(0, onePlan)], crews := [(0, oneCrew)]
    pkg := { pkg := 0, cols := 2, rows := 1, up := true, lynx := true, meas := true, wipe := false, life := .deployed, ncore := 256 } }

/-- v2 holds 0x1000 + 4 t for thread t, v3 zero, v64 and on the words of a list. -/
def addresses (l : List Word) : Regs :=
  { v := (List.range 32).map (fun t => (64 + t, BitVec.ofNat 32 (0x1000 + 4 * t))) ++ l.mapIdx fun k w => (2048 + 32 * k, w) }

/-- The conditions of `Hits`, as one truth value. -/
def hits (s : State) (write : Bool) (size va : Nat) (x : Xlat) : Bool :=
  decide (va < 2 ^ 57) && decide (va % size = 0) && decide (findXlat (s.core s.me.place.core).tlb s.me.place.ctx va = some x) &&
    decide (x.va % 524288 = 0 ∧ x.pa % 524288 = 0) && (!write || x.write) && decide (tileAt s s.me.place.ctx va = none)

theorem hits_spec {s : State} {w : Bool} {n va : Nat} {x : Xlat} (h : hits s w n va x = true) : Hits s w n va x := by
  simp only [hits, Bool.and_eq_true, Bool.or_eq_true, decide_eq_true_eq, Bool.not_eq_true'] at h
  obtain ⟨⟨⟨⟨⟨a, b⟩, c⟩, d⟩, e⟩, f⟩ := h
  exact ⟨a, b, c, d, fun q => e.resolve_left (by simp [q]), f⟩

/-- Every executing thread's address hits a page. -/
def allHit (i : Instr) (s : State) (write : Bool) (size : Nat) (va : Nat → Nat) (x : Nat → Xlat) : Bool :=
  (runners i s).all fun t => hits s write size (va t) (x t)

theorem allHit_spec {i : Instr} {s : State} {w : Bool} {n : Nat} {va : Nat → Nat} {x : Nat → Xlat} (h : allHit i s w n va x = true) :
    ∀ t ∈ runners i s, Hits s w n (va t) (x t) := fun t ht => hits_spec (List.all_eq_true.mp h t ht)

/-- No group but the running one. -/
def alone (s : State) : Bool := s.groups.all fun e => e.1 == s.cur

theorem alone_quiet {s : State} (h : alone s = true) : Quiet s := fun e he hn => absurd (by simpa using List.all_eq_true.mp h e he) hn

/-! ### Witnesses: memory -/

/-- A load outstanding for a register. -/
def pendingLoad (id : Nat) (d : Reg) (hold : Bool) (src : LoadSrc) : Load :=
  { id := id, stamp := 0, chunk := 0, dst := d, nreg := 1, size := 4, sgn := false, fit := true, uni := false, hold := hold, act := 0xFFFFFFFF, pc := 8
    src := src, newer := [] }

/-- The group with fourteen loads outstanding. -/
def loading : State := withMe (mapped (addresses [])) fun g =>
  { g with loads := (List.range 14).map fun k => pendingLoad (k + 1) 30 false (.data []) }

/-- R161 to R164: loads that hit with room for one more, with a held lane (an affine register) and without, of coherent and of streaming pages. -/
theorem witness_global_loads :
    ∀ i ∈ [(always, 4, 2, 0, Size.b32, false, false), (always, 32, 2, 0, .b8, true, false), (always, 32, 2, 0, .b8, false, true), (notP2, 8, 2, 16, .b32, false, false)],
      let j := Instr.ldg i.1 i.2.1 i.2.2.1 i.2.2.2.1 i.2.2.2.2.1 i.2.2.2.2.2.1 true i.2.2.2.2.2.2
      Enters j (fun _ => 0) loading ∧ loading.me.place.slice = none ∧ loading.me.loads.length < 15 ∧
        ∀ t ∈ runners j loading, Hits loading false i.2.2.2.2.1.bytes (globalAddr loading.me i.2.2.1 i.2.2.2.1 t) page := by
  have h : [(always, 4, 2, 0, Size.b32, false, false), (always, 32, 2, 0, .b8, true, false), (always, 32, 2, 0, .b8, false, true), (notP2, 8, 2, 16, .b32, false, false)].all
      (fun i : Guard × Reg × Reg × BitVec 24 × Size × Bool × Bool =>
      let j := Instr.ldg i.1 i.2.1 i.2.2.1 i.2.2.2.1 i.2.2.2.2.1 i.2.2.2.2.2.1 true i.2.2.2.2.2.2
      enters j (fun _ => 0) loading && allHit j loading false i.2.2.2.2.1.bytes (globalAddr loading.me i.2.2.1 i.2.2.2.1) fun _ => page) = true := by
    decide +kernel
  intro i hi j
  have := List.all_eq_true.mp h i hi
  rw [Bool.and_eq_true] at this
  exact ⟨enters_spec this.1, by decide +kernel, by decide +kernel, allHit_spec this.2⟩

/-- A load of the streaming page hits it. -/
theorem witness_streaming_load :
    let s := mapped (addresses [0x40000000])
    let j := Instr.ldg always 64 64 8 .b64 false true false
    Enters j (fun _ => 0) s ∧ ∀ t ∈ runners j s, Hits s false 8 (globalAddr s.me 64 8 t) streamPage :=
  ⟨enters_spec (by decide +kernel), allHit_spec (by decide +kernel)⟩

/-- R174: LDK of the first word of the pool and of its last. -/
theorem witness_pool_loads :
    let s := mapped (addresses [])
    (Enters (.ldk always 64 0 none .w0 false) (fun _ => 0) s ∧ poolOf s s.me = some (5, 0x20000) ∧ (0 : Nat) < 5 ∧ Hits s false 4 0x20000 page) ∧
    (Enters (.ldk always 4 4 (some 66) .w3 true) (fun _ => 0) s ∧ ((4 : BitVec 20).zeroExtend 32 + s.me.uval 66).toNat < 5 ∧
      Hits s false 4 (0x20000 + 16 * 4 + 4 * Wn.w3.bits.toNat) page) :=
  ⟨⟨enters_spec (by decide +kernel), by decide +kernel, by decide, hits_spec (by decide +kernel)⟩,
    enters_spec (by decide +kernel), by decide +kernel, hits_spec (by decide +kernel)⟩

/-- R161, R171, R173: LDL and STL at the ends of the part of local memory that is initialised, with a held lane that the data fit and one they do not. -/
theorem witness_local_accesses :
    let s := mapped (addresses [0xFFC, 0, 0, 0, 0xFFFFC])
    (∀ j ∈ [Instr.ldl always 64 64 0 .b32 false false, .ldl always 4 2 0xFFF000 .b32 false false, .ldl always 32 2 0xFFF000 .b32 false false,
        .ldl always 64 2 0xFFF000 .b32 false true], Enters j (fun _ => 0) s) ∧
    (∀ t ∈ runners (.ldl always 64 64 0 .b32 false false) s, localCode (s.core 0) true false 4 (localAddr s.me 64 0 t) = 0 ∧ rowBad s 0 (localAddr s.me 64 0 t) = false) ∧
    (∀ t ∈ runners (.ldl always 4 2 0xFFF000 .b32 false false) s,
      localCode (s.core 0) true false 4 (localAddr s.me 2 0xFFF000 t) = 0 ∧ rowBad s 0 (localAddr s.me 2 0xFFF000 t) = false) ∧
    Enters (.stl always 66 68 0 .b32) (fun g => newRows (storeSpan (.stl always 66 68 0 .b32) 68 0 4 (s.core g.place.core) g) g) s ∧ Quiet s ∧ LocalForm s ∧
    (∀ t ∈ runners (.stl always 66 68 0 .b32) s, localCode (s.core 0) false true 4 (localAddr s.me 68 0 t) = 0) ∧
    s.me.loads.length < 15 ∧ storesOut (entered (.stl always 66 68 0 .b32) s) s.cur < 15 ∧
    bankFull (s.core 0) (rowsOf s 2 0xFFF000 (runners (.ldl always 4 2 0xFFF000 .b32 false false) s)) = none ∧
    bankFull (s.core 0) (rowsOf s 68 0 (runners (.stl always 66 68 0 .b32) s)) = none := by
  refine ⟨?_, by decide +kernel, by decide +kernel, enters_spec (by decide +kernel), alone_quiet (by decide +kernel), by unfold LocalForm; decide +kernel,
    by decide +kernel, by decide +kernel, by decide +kernel, by decide +kernel, by decide +kernel⟩
  exact fun j hj => (allEnter_spec (row := fun _ => some ()) (by decide +kernel) j hj).1

theorem noSlice {s : State} {n va : Nat} (h : s.me.place.slice = none) : InTarget s n va := fun _ hs => by rw [h] at hs; cases hs

/-- A recompute slice whose target holds what it accesses. -/
theorem witness_slice_in_target :
    InTarget (withMe blank fun g => { g with place := { g.place with slice := some ⟨9, 0, 0x1000, 4096, 0, 0⟩ } }) 4 0x1FFC := by
  intro sl h
  have : (withMe blank fun g => { g with place := { g.place with slice := some ⟨9, 0, 0x1000, 4096, 0, 0⟩ } }).me.place.slice = some ⟨9, 0, 0x1000, 4096, 0, 0⟩ := rfl
  rw [this] at h; cases h; decide

/-- R161, R166, R169: STG of every size that hits, with room for its store and its lines. -/
theorem witness_global_stores :
    let s := mapped (addresses [])
    ∀ i ∈ [(4, 2, 0, Size.b32), (4, 2, 0, .b8), (4, 2, 0xFFF000, .b16), (4, 64, 16, .b64), (4, 64, 16, .b128)],
      let j := Instr.stg always i.1 i.2.1 i.2.2.1 i.2.2.2
      let lines := ((runners j s).map fun t => (globalAddr s.me i.2.1 i.2.2.1 t) / 128).eraseDups
      Enters j (fun _ => 0) s ∧ s.me.regs.stored = 0 ∧ storesOut (entered j s) s.cur < 15 ∧
      (∀ t ∈ runners j s, Hits s true i.2.2.2.bytes (globalAddr s.me i.2.1 i.2.2.1 t) page ∧ InTarget s i.2.2.2.bytes (globalAddr s.me i.2.1 i.2.2.1 t)) ∧
      (∀ l ∈ lines, dirtyElsewhere (entered j s) s.cur 0 l = none) ∧ l1Room (entered j s) 0 lines = true ∧
      (match (entered j s).me.opn with | some c => c.sd.map Prod.fst | none => []) = [] := by
  intro s
  have h : [(4, 2, 0, Size.b32), (4, 2, 0, .b8), (4, 2, 0xFFF000, .b16), (4, 64, 16, .b64), (4, 64, 16, .b128)].all
      (fun i : Reg × Reg × BitVec 24 × Size =>
      let j := Instr.stg always i.1 i.2.1 i.2.2.1 i.2.2.2
      let lines := ((runners j s).map fun t => (globalAddr s.me i.2.1 i.2.2.1 t) / 128).eraseDups
      enters j (fun _ => 0) s && allHit j s true i.2.2.2.bytes (globalAddr s.me i.2.1 i.2.2.1) (fun _ => page) &&
      decide (storesOut (entered j s) s.cur < 15) && decide (∀ l ∈ lines, dirtyElsewhere (entered j s) s.cur 0 l = none) && l1Room (entered j s) 0 lines &&
      decide ((match (entered j s).me.opn with | some c => c.sd.map Prod.fst | none => []) = [])) = true := by
    decide +kernel
  intro i hi j lines
  have := List.all_eq_true.mp h i hi
  simp only [Bool.and_eq_true, decide_eq_true_eq] at this
  obtain ⟨⟨⟨⟨⟨a, b⟩, c⟩, d⟩, e⟩, f⟩ := this
  exact ⟨enters_spec a, by decide +kernel, c, fun t ht => ⟨allHit_spec b t ht, noSlice (by decide +kernel)⟩, d, e, f⟩

/-- R175 to R179: atomics that hit, alone, with room for a load; a compare and exchange of 64 bits, and an addition of two halves. -/
theorem witness_atomics :
    let s := { mapped (addresses [0x1000, 0, 1, 2]) with plans := [] }
    let waits := fun (i : Instr) (n : Nat) (r : Reg) => requestWaits (entered i s) n ((runners i s).map fun t => (t, globalAddr s.me r 0 t, page))
    Quiet s ∧ s.me.loads.length < 15 ∧ NoHeaders s ∧ NoneArrived s ∧ s.badSec = [] ∧ NoMarks s ∧ waits (.atomg always 4 2 8 0 .addU32 false) 4 2 = false ∧
    waits (.atomg always 64 64 68 0 .cas64 true) 8 64 = false ∧
    bankFull (s.core 0) (rowsOf s 2 0xFFF000 (runners (.atoml always 4 2 8 0xFFF000 .addU32 false) s)) = none ∧
    (Enters (.atomg always 4 2 8 0 .addU32 false) (fun _ => 0) s ∧
      ∀ t ∈ runners (.atomg always 4 2 8 0 .addU32 false) s, Hits s true 4 (globalAddr s.me 2 0 t) page) ∧
    (Enters (.atomg always 64 64 68 0 .cas64 true) (fun _ => 0) s ∧
      ∀ t ∈ runners (.atomg always 64 64 68 0 .cas64 true) s, Hits s true 8 (globalAddr s.me 64 0 t) page) ∧
    (Enters (.atoml always 4 2 8 0xFFF000 .addU32 false) (fun _ => 0) s ∧
      ∀ t ∈ runners (.atoml always 4 2 8 0xFFF000 .addU32 false) s, localCode (s.core 0) true true 4 (localAddr s.me 2 0xFFF000 t) = 0) ∧
    (Enters (.red always 2 8 0 .addBf16x2) (fun _ => 0) s ∧ ∀ t ∈ runners (.red always 2 8 0 .addBf16x2) s, Hits s true 4 (globalAddr s.me 2 0 t) page) ∧
    (Enters (.red always 64 8 0 .addU32) (fun _ => 0) s ∧ ∀ t ∈ runners (.red always 64 8 0 .addU32) s, Hits s true 4 (globalAddr s.me 64 0 t) page) :=
  ⟨alone_quiet (by decide +kernel), by decide +kernel, by unfold NoHeaders; decide +kernel, by unfold NoneArrived; decide +kernel, by decide +kernel,
    by unfold NoMarks; decide +kernel, by decide +kernel, by decide +kernel, by decide +kernel, ⟨enters_spec (by decide +kernel), allHit_spec (by decide +kernel)⟩,
    ⟨enters_spec (by decide +kernel), allHit_spec (by decide +kernel)⟩, ⟨enters_spec (by decide +kernel), by decide +kernel⟩,
    ⟨enters_spec (by decide +kernel), allHit_spec (by decide +kernel)⟩, ⟨enters_spec (by decide +kernel), allHit_spec (by decide +kernel)⟩⟩

/-- R180, R182, R183, R184, R186: FENCE with and without a load outstanding; PFG, CWB and CINV that hit; MWAIT with a word that differs, with one that
does not, and without. -/
theorem witness_fences_and_caches :
    let s := mapped (addresses [0x1000, 0, 1])
    (Enters (.fence always .pod) (fun _ => 0) s ∧ s.me.loads = [] ∧ scopeMet (entered (.fence always .pod) s) s.cur .pod = true) ∧
    (Enters (.fence always .core) (fun _ => 0) loading ∧ loading.me.loads ≠ []) ∧
    Enters (.chunk always) (fun _ => 0) s ∧
    (Enters (.pfg always 2 0 true) (fun _ => 0) s ∧
      ∀ t ∈ runners (.pfg always 2 0 true) s, (lookAddr s s.me false false 1 (globalAddr s.me 2 0 t)).isMiss = false) ∧
    (Enters (.cwb always 2 0) (fun _ => 0) s ∧ storesOut (entered (.cwb always 2 0) s) s.cur < 15 ∧
      ∀ t ∈ runners (.cwb always 2 0) s, Hits s false 1 (globalAddr s.me 2 0 t) page) ∧
    (Enters (.cinv always 2 0 true) (fun _ => 0) s ∧ storesOut (entered (.cinv always 2 0 true) s) s.cur < 15 ∧
      ∀ t ∈ runners (.cinv always 2 0 true) s, Hits s false 1 (globalAddr s.me 2 0 t) page) ∧
    (∀ n va, InTarget s n va) ∧
    (Enters (.mwait always 64 0 (some 66)) (fun _ => 0) s ∧ Hits s false 4 (globalAddr s.me 64 0 0) page ∧ readLE s.mem 0x1000 4 ≠ (s.me.uval 66).toNat ∧
      s.badSec = [] ∧ requestWaits (entered (.mwait always 64 0 (some 66)) s) 4 [(0, globalAddr s.me 64 0 0, page)] = false) ∧
    (Enters (.mwait always 64 0 (some 67)) (fun _ => 0) s ∧ readLE s.mem 0x1000 4 = (s.me.uval 67).toNat) ∧ Enters (.mwait always 64 0 none) (fun _ => 0) s :=
  ⟨⟨enters_spec (by decide +kernel), by decide +kernel, by decide +kernel⟩, ⟨enters_spec (by decide +kernel), by decide +kernel⟩,
    enters_spec (by decide +kernel), ⟨enters_spec (by decide +kernel), by decide +kernel⟩,
    ⟨enters_spec (by decide +kernel), by decide +kernel, allHit_spec (by decide +kernel)⟩,
    ⟨enters_spec (by decide +kernel), by decide +kernel, allHit_spec (by decide +kernel)⟩, fun _ _ => noSlice (by decide +kernel),
    ⟨enters_spec (by decide +kernel), hits_spec (by decide +kernel), by decide +kernel, by decide +kernel, by decide +kernel⟩,
    ⟨enters_spec (by decide +kernel), by decide +kernel⟩, enters_spec (by decide +kernel)⟩

/-! ### Witnesses: names, deliveries, remote accesses, recipes -/

/-- A resident entry of the Den for the running group, of generation 7, and the words of its name. -/
def named (l : List Word) : State :=
  { mapped (addresses l) with den := [(3, { gen := 7, state := .resident, grp := 1 })], denNext := 4 }

/-- R356, R357: ARM without a name, with a stale one, with one of this package and one of another; and with four watch entries in use. ARMIF of a register
in which a delivery has landed. -/
theorem witness_armed_registers :
    let s := named [7, 3, 8, 3, 0, 0x1000003, 0xFFFFFFFF, 0xFFFFFFFF]
    let full := withMe s fun g => { g with watch := [(1, 1), (2, 1), (3, 1), (4, 1)] }
    let landed := withMe s fun g => { g with holds := [(5, { landed := true })] }
    let busy := { s with targets := [(1, { free := 0 })] }
    let name := fun (r : Reg) => (s.me.uval (regAt r 1) ++ s.me.uval r : Word64)
    s.me.image = none ∧ (∀ vn ∈ [none, some 64, some 66, some 68, some 70], Enters (.arm always 5 vn) (fun _ => 0) s ∧ Enters (.armif always 5 vn) (fun _ => 0) s) ∧
      (s.me.holdOf 5).landed = false ∧ staleName s (name 64) = false ∧ staleName s (name 66) = true ∧ namePkg (name 68) = 1 ∧ name 70 = 0xFFFFFFFFFFFFFFFF ∧
      Enters (.arm always 5 (some 64)) (fun _ => 0) full ∧ Enters (.armif always 5 (some 64)) (fun _ => 0) landed ∧ (landed.me.holdOf 5).landed = true ∧
      (∀ vn ∈ [none, some 64, some 66, some 68, some 70], armMayLeave s (armPackages s 5 (vn.map name)) = true) ∧
      armMayLeave full (armPackages full 5 (some (name 64))) = true ∧ armMayLeave landed (armPackages landed 5 (some (name 64))) = true ∧
      (Enters (.arm always 5 (some 68)) (fun _ => 0) busy ∧ Enters (.armif always 5 (some 68)) (fun _ => 0) busy ∧
        armMayLeave busy (armPackages busy 5 (some (name 68))) = false) := by
  refine ⟨by decide +kernel, fun vn h => ⟨?_, ?_⟩, by decide +kernel, by decide +kernel, by decide +kernel, by decide +kernel, by decide +kernel,
    enters_spec (by decide +kernel), enters_spec (by decide +kernel), by decide +kernel, by decide +kernel, by decide +kernel, by decide +kernel,
    enters_spec (by decide +kernel), enters_spec (by decide +kernel), by decide +kernel⟩
  · have : [none, some 64, some 66, some 68, some 70].all (fun vn => enters (.arm always 5 vn) (fun _ => 0)
        (named [7, 3, 8, 3, 0, 0x1000003, 0xFFFFFFFF, 0xFFFFFFFF])) = true := by decide +kernel
    exact enters_spec (List.all_eq_true.mp this vn h)
  · have : [none, some 64, some 66, some 68, some 70].all (fun vn => enters (.armif always 5 vn) (fun _ => 0)
        (named [7, 3, 8, 3, 0, 0x1000003, 0xFFFFFFFF, 0xFFFFFFFF])) = true := by decide +kernel
    exact enters_spec (List.all_eq_true.mp this vn h)

/-- R360: REGPUT to a name of this package, of another and of none, and with sixteen deliveries on their way. -/
theorem witness_deliveries_sent :
    let s := named [7, 3, 0, 0x1000003, 0xFFFFFFFF, 0xFFFFFFFF]
    let busy := withMe s fun g => { g with dlv := 16 }
    let last := withMe s fun g => { g with dlv := 15 }
    (Enters (.regput always 20 64 2) (fun _ => 0) last ∧ last.me.dlv < 16 ∧ namePkg (s.me.uval 65 ++ s.me.uval 64) = s.pkg.pkg) ∧
    (Enters (.regput always 20 66 2) (fun _ => 0) s ∧ inPod s 1 = true ∧ mayLeave s 1 0x08 = true ∧ namePkg (s.me.uval 67 ++ s.me.uval 66) = 1) ∧
    (Enters (.regput always 20 68 2) (fun _ => 0) s ∧ (s.me.uval 69 ++ s.me.uval 68 : Word64) = 0xFFFFFFFFFFFFFFFF) ∧
    (Enters (.regput always 20 64 2) (fun _ => 0) busy ∧ 16 ≤ busy.me.dlv) :=
  ⟨⟨enters_spec (by decide +kernel), by decide +kernel, by decide +kernel⟩,
    ⟨enters_spec (by decide +kernel), by decide +kernel, by decide +kernel, by decide +kernel⟩,
    ⟨enters_spec (by decide +kernel), by decide +kernel⟩, ⟨enters_spec (by decide +kernel), by decide +kernel⟩⟩

/-- A context bound to a window of package 1, and a group whose peer value names it. -/
def bound : State :=
  { mapped (addresses [0x101, 16, 3, 4]) with
    ctxs := [(0, { oneCtx with peers := [((1, 6), [(1, { base := 0x10000, len := 0x2000, rd := true, wr := true })])] })] }

def window : Window := { base := 0x10000, len := 0x2000, rd := true, wr := true }

/-- The conditions of `Peer`, as one truth value. -/
def peers (s : State) (write : Bool) (size kind : Nat) (vp vo : Reg) (w : Window) (t : Nat) : Bool :=
  decide ((s.me.elem vp t).toNat / 4096 = 0) && inPod s ((s.me.elem vp t).toNat % 256) &&
    decide (windowOf s s.me.place.ctx ((s.me.elem vp t).toNat % 256) ((s.me.elem vp t).toNat / 256 % 16) = some w) &&
    decide ((s.me.elem vo t).toNat + size ≤ w.len) && (if write then w.wr else w.rd) && decide ((w.base + (s.me.elem vo t).toNat) % size = 0) &&
    mayLeave s ((s.me.elem vp t).toNat % 256) kind

theorem peers_spec {i : Instr} {s : State} {write : Bool} {size kind : Nat} {vp vo : Reg} {w : Window}
    (h : (runners i s).all (peers s write size kind vp vo w) = true) : ∀ t ∈ runners i s, Peer s write size kind vp vo w t := by
  intro t ht
  have := List.all_eq_true.mp h t ht
  simp only [peers, Bool.and_eq_true, decide_eq_true_eq] at this
  obtain ⟨⟨⟨⟨⟨⟨a, b⟩, c⟩, d⟩, e⟩, f⟩, g⟩ := this
  exact ⟨a, b, c, d, e, f, g⟩

/-- The conditions of `SendsAtOnce` to a package 1 that nothing waits for. -/
def atOnce (s : State) (n : Nat) : Bool :=
  (s.target 1).copies.isEmpty && decide (n ≤ (s.target 1).free) && (s.port 0).up && decide (n ≤ (s.port 0).buf 0) && decide (routeTo s 1 = (0, 0)) &&
    !s.me.sending && !unsent s s.cur

theorem atOnce_spec {s : State} {l : List Nat} (h : atOnce s l.length = true) (o : ∀ p ∈ l, p = 1) : SendsAtOnce s l := by
  simp only [atOnce, Bool.and_eq_true, decide_eq_true_eq, List.isEmpty_iff, Bool.not_eq_true'] at h
  obtain ⟨⟨⟨⟨⟨⟨a, b⟩, c⟩, d⟩, e⟩, f⟩, g⟩ := h
  refine ⟨⟨fun p hp => ?_, fun p hp => ?_, fun p hp => ?_⟩, f, g⟩ <;> obtain rfl := o p hp
  · simp [a]
  · exact Nat.le_trans List.count_le_length b
  · rw [e]
    exact .inr ⟨c, Nat.le_trans (List.length_filter_le _ _) d⟩

/-- The same with four active threads, a link that is up. -/
def linked (l : List Word) : State := withMe { bound with ports := [(0, { up := true })] } fun g => { g with regs := { addresses l with amask := 0xF } }

/-- R362 to R365: accesses of each kind that nothing stands against, at the start and the end of the window, with a held lane and without, whose packets may all
leave at once. -/
theorem witness_remote_accesses :
    let s := linked [0x101, 16, 3, 4]
    let e := linked [0x101, 0x1FF8]
    let pkgs := fun (s : State) (i : Instr) => (replays s 64 (runners i s)).map fun t => (s.me.elem 64 t).toNat % 256
    (Enters (.rld always 4 64 2 .b32 false false) (fun _ => 0) s ∧ s.me.loads.length < 15 ∧
      (∀ t ∈ runners (.rld always 4 64 2 .b32 false false) s, Peer s false 4 1 64 2 window t) ∧ SendsAtOnce s (pkgs s (.rld always 4 64 2 .b32 false false))) ∧
    (Enters (.rld always 64 64 65 .b64 false false) (fun _ => 0) e ∧
      (∀ t ∈ runners (.rld always 64 64 65 .b64 false false) e, Peer e false 8 1 64 65 window t) ∧ SendsAtOnce e (pkgs e (.rld always 64 64 65 .b64 false false))) ∧
    (Enters (.rst always 8 64 2 .b32) (fun _ => 0) s ∧ storesOut (entered (.rst always 8 64 2 .b32) s) s.cur < 15 ∧
      (∀ t ∈ runners (.rst always 8 64 2 .b32) s, Peer s true 4 2 64 2 window t) ∧ SendsAtOnce s (pkgs s (.rst always 8 64 2 .b32))) ∧
    (Enters (.ratom always 4 64 2 8 .addU32 false) (fun _ => 0) s ∧
      (∀ t ∈ runners (.ratom always 4 64 2 8 .addU32 false) s, Peer s true 4 3 64 2 window t) ∧ SendsAtOnce s (pkgs s (.ratom always 4 64 2 8 .addU32 false))) ∧
    (Enters (.rred always 64 65 8 .addU32) (fun _ => 0) s ∧ (∀ t ∈ runners (.rred always 64 65 8 .addU32) s, Peer s true 4 4 64 65 window t) ∧
      SendsAtOnce s ((mergeRemote s.me .addU32 8 ((replays s 64 (runners (.rred always 64 65 8 .addU32) s)).map fun k =>
        { t := k, peer := s.me.elem 64 k, pkg := (s.me.elem 64 k).toNat % 256, va := window.base + (s.me.elem 65 k).toNat }) []).map fun e => e.1.pkg)) :=
  ⟨⟨enters_spec (by decide +kernel), by decide +kernel, peers_spec (by decide +kernel), atOnce_spec (by decide +kernel) (by decide +kernel)⟩,
    ⟨enters_spec (by decide +kernel), peers_spec (by decide +kernel), atOnce_spec (by decide +kernel) (by decide +kernel)⟩,
    ⟨enters_spec (by decide +kernel), by decide +kernel, peers_spec (by decide +kernel), atOnce_spec (by decide +kernel) (by decide +kernel)⟩,
    ⟨enters_spec (by decide +kernel), peers_spec (by decide +kernel), atOnce_spec (by decide +kernel) (by decide +kernel)⟩,
    ⟨enters_spec (by decide +kernel), peers_spec (by decide +kernel), atOnce_spec (by decide +kernel) (by decide +kernel)⟩⟩

/-- R470: the same with thirty-two threads, for which sixteen reservations are too few; and groups whose packets have still to leave, or have left. -/
theorem witness_remote_waits :
    (∀ i ∈ [Instr.rld always 4 64 2 .b32 false false, .rst always 8 64 2 .b32, .ratom always 4 64 2 8 .addU32 false], Enters i (fun _ => 0) bound) ∧
    Enters (.rred always 64 65 8 .addU32) (fun _ => 0) bound ∧
    (bound.me.loads.length < 15 ∧ storesOut (entered (.rst always 8 64 2 .b32) bound) bound.cur < 15 ∧ bound.me.sending = false) ∧
    ((∀ t ∈ runners (.rld always 4 64 2 .b32 false false) bound, Peer bound false 4 1 64 2 window t) ∧
      (∀ t ∈ runners (.rst always 8 64 2 .b32) bound, Peer bound true 4 2 64 2 window t) ∧
      (∀ t ∈ runners (.ratom always 4 64 2 8 .addU32 false) bound, Peer bound true 4 3 64 2 window t) ∧
      ∀ t ∈ runners (.rred always 64 65 8 .addU32) bound, Peer bound true 4 4 64 65 window t) ∧
    (let gone := withMe bound fun g => { g with sending := true }
     let left : Packet := { hdrErr := 0, kind := 2, src := 0, dst := 1, tenant := 4, ctx := 6, vc := 0, seq := 0, blen := 2, body := .rst 0x1000 [1, 2, 3, 4] 1 0x40 1 }
     let waits := { gone with targets := [(1, { copies := [{ id := 0, pkt := left }], made := 1 })] }
     (gone.me.live = true ∧ gone.me.sending = true ∧ unsent gone gone.cur = false) ∧ waits.me.live = true ∧ waits.me.sending = true ∧ unsent waits waits.cur = true) := by
  refine ⟨fun i hi => ?_, enters_spec (by decide +kernel), by decide +kernel,
    ⟨peers_spec (by decide +kernel), peers_spec (by decide +kernel), peers_spec (by decide +kernel), peers_spec (by decide +kernel)⟩, by decide +kernel⟩
  simp only [List.mem_cons, List.not_mem_nil, or_false] at hi
  rcases hi with rfl | rfl | rfl <;> exact enters_spec (by decide +kernel)

/-- A tile on the droppable page and a source on the first; a context with a list of recipe records. -/
def drops : TileRef := ⟨0x80000000, 4096⟩
def source : TileRef := ⟨0x1000, 4096⟩
def tiled (l : List Word) (r : Tab Recipe) : State := { mapped (addresses l) with ctxs := [(0, { oneCtx with recipes := r })] }

/-- The conditions of `GoodTile`, as one truth value. -/
def goodTile (s : State) (x : TileRef) : Bool :=
  decide (x.va % 4096 = 0 ∧ x.va + x.size ≤ 2 ^ 57) && decide (x.size % 4096 = 0 ∧ 4096 ≤ x.size ∧ x.size ≤ 65536) &&
    (List.range (x.size / 4096)).all fun i => (walk s s.me.place.ctx (x.va + 4096 * i)).toOption.isSome

theorem goodTile_spec {s : State} {x : TileRef} (h : goodTile s x = true) : GoodTile s x := by
  simp only [goodTile, Bool.and_eq_true, decide_eq_true_eq, List.all_eq_true, List.mem_range] at h
  obtain ⟨⟨a, b⟩, c⟩ := h
  refine ⟨a, b, fun i hi => ?_⟩
  have := c i hi
  cases hw : walk s s.me.place.ctx (x.va + 4096 * i) with
  | ok e => exact ⟨e, rfl⟩
  | error e => simp [hw, Except.toOption] at this

/-- R376: a block of good tiles, with a source that has no recipe and with one of depth 4, so that the new recipe is too deep. -/
theorem witness_recipes_attached :
    ∀ r ∈ [([] : Tab Recipe), [(9, { tgt := source, depth := 4, state := .unsealed })]],
      let s := tiled [0x80000000, 0, 4096, 0, 0x1000, 0, 4096, 77] r
      let i := Instr.rcpdef always 72 71 64 1 false
      Enters i (fun _ => 0) s ∧ poolEntry s s.me 1 = .ok { kind := 5, extent := 1, base := 0x31000 } ∧ readBlock s.me 64 1 = { tgt := drops, zero := 0, src := [source] } ∧
        (∀ x ∈ (List.range 7).map (regAt 64), tagOf s.me.place.shape x = .u ∧ (s.me.holdOf x).held = false ∧ (s.me.holdOf x).poison = false ∧
          (entered i s).me.awaits x = false) ∧
        GoodTile s drops ∧ GoodTile s source ∧ blockBad (entered i s) 0 { tgt := drops, zero := 0, src := [source] } = false ∧
        recipesFull (ctxOf s s) [drops, source] = false ∧ recipesFull (ctxOf s s) [drops] = false ∧
        refsFull (ctxOf s s) { tgt := drops, zero := 0, src := [source] } = false ∧ ∀ b, clearHeld (entered i s) 0 drops b = false := by
  intro r hr
  have h : [([] : Tab Recipe), [(9, { tgt := source, depth := 4, state := .unsealed })]].all (fun r =>
      let s := tiled [0x80000000, 0, 4096, 0, 0x1000, 0, 4096, 77] r
      let i := Instr.rcpdef always 72 71 64 1 false
      enters i (fun _ => 0) s && decide ((poolEntry s s.me 1).toOption = some { kind := 5, extent := 1, base := 0x31000 }) &&
        decide (readBlock s.me 64 1 = { tgt := drops, zero := 0, src := [source] }) &&
        decide (∀ x ∈ (List.range 7).map (regAt 64), tagOf s.me.place.shape x = .u ∧ (s.me.holdOf x).held = false ∧ (s.me.holdOf x).poison = false ∧
          (entered i s).me.awaits x = false) && goodTile s drops && goodTile s source && !(blockBad (entered i s) 0 { tgt := drops, zero := 0, src := [source] }) &&
        decide (recipesFull (ctxOf s s) [drops, source] = false ∧ recipesFull (ctxOf s s) [drops] = false ∧
          refsFull (ctxOf s s) { tgt := drops, zero := 0, src := [source] } = false ∧ ∀ b, clearHeld (entered i s) 0 drops b = false)) = true := by
    decide +kernel
  have := List.all_eq_true.mp h r hr
  simp only [Bool.and_eq_true, decide_eq_true_eq, Bool.not_eq_true'] at this
  obtain ⟨⟨⟨⟨⟨⟨⟨a, b⟩, c⟩, d⟩, e⟩, f⟩, g⟩, k⟩ := this
  refine ⟨enters_spec a, ?_, c, d, goodTile_spec e, goodTile_spec f, g, k⟩
  generalize hp : poolEntry _ _ 1 = p at b ⊢
  cases p with
  | ok e => simp [Except.toOption] at b; rw [b]
  | error e => simp [Except.toOption] at b

/-- R377 to R379: a tile to seal, whose lines the L2 holds or not, without and with a sector in error; one to drop, pinned, sealed, dropped; one to pin, with a
record and without; one to unpin. -/
theorem witness_tiles :
    let open' : Recipe := { tgt := drops, state := .unsealed }
    let closed : Recipe := { tgt := drops, state := .sealed }
    let pins : Recipe := { tgt := drops, state := .pinned, pinc := 254 }
    let regs : List Word := [0x80000000, 0, 4096]
    let bad := { tiled regs [(9, open')] with badSec := [0x4000000] }
    let full := { tiled regs [(9, open')] with l2 := (List.range 32).map fun k => (0x1000000 + k, { dirty := false, use := 0 }) }
    let sealing := Instr.rseal always 64
    let drop := Instr.rdrop always 64
    let pin := Instr.rpin always 64 66
    let unpin := Instr.runpin always 64 66
    let lines := vaLines (tiled regs []) 0 0x80000000 4096
    let jammed := { tiled regs ((9, open') :: (List.range 16).map fun k => (10 + k, { pins with tgt := ⟨0x80800000 + 0x800000 * k, 128⟩ })) with
      l2 := (List.range 16).map fun k => (0x1010000 + 0x10000 * k, { dirty := false, use := 0 }) }
    let lost : Recipe := { tgt := drops, state := .dropped }
    let mine := { lost with users := [.group 1 (tiled regs []).me.pc] }
    (GoodTile (tiled regs []) drops ∧ (∀ r ∈ [open', closed, pins], ∀ s ∈ [tiled regs [(9, r)]], GoodTile s drops ∧ tileOf s 0 0x80000000 = drops ∧ (ctxOf s s).quota = 0 ∧
      findT (ctxOf s s).recipes 9 = some r ∧ recordOf (ctxOf s s) drops = some (9, r))) ∧
    (Enters sealing (fun _ => 0) (tiled regs [(9, open')]) ∧ linesBad (tiled regs [(9, open')]) (vaLines (tiled regs [(9, open')]) 0 0x80000000 4096) = false) ∧
    (Enters sealing (fun _ => 0) full ∧ (∀ l ∈ vaLines full 0 0x80000000 4096, (findT full.l2 l).isSome = true) ∧
      ((ctxOf full full).recipes.find? fun e => e.2.tgt.va == 0x80000000 && e.2.state != .none && e.2.state != .pinned) = some (9, open')) ∧
    (Enters sealing (fun _ => 0) bad ∧ linesBad bad (vaLines bad 0 0x80000000 4096) = true) ∧
    (Enters sealing (fun _ => 0) jammed ∧ GoodTile jammed (tileOf jammed 0 0x80000000) ∧ bypasses jammed 0x1000000 = true ∧ 0x1000000 ∈ lines) ∧
    (open'.byp = false ∧ ∀ l ∈ lines, findT (tiled regs [(9, open')]).l2 l = none → (l2Peers (tiled regs [(9, open')]) l).length +
      (lines.filter fun m => l2Set m == l2Set l && (findT (tiled regs [(9, open')]).l2 m).isNone).length ≤ 16) ∧
    (Enters pin (fun _ => 0) (tiled regs [(9, lost)]) ∧ Enters pin (fun _ => 0) (tiled regs [(9, { lost with state := .recomputing })]) ∧
      Enters pin (fun _ => 0) (tiled regs [(9, mine)]) ∧ recordOf (ctxOf (tiled regs []) (tiled regs [(9, lost)])) drops = some (9, lost) ∧ lost.pinc < 255 ∧
      lost.users.contains (.group 1 (tiled regs []).me.pc) = false ∧ mine.users.contains (.group 1 (tiled regs []).me.pc) = true ∧ missLevel (tiled regs []).me < 4) ∧
    (∀ r ∈ [pins, closed, { open' with state := .dropped }, { open' with state := .recomputing }], Enters drop (fun _ => 0) (tiled regs [(9, r)])) ∧
    (pins.pins = true ∧ closed.pins = false) ∧
    (∀ r ∈ [open', closed, pins], Enters pin (fun _ => 0) (tiled regs [(9, r)]) ∧ r.pinc < 255 ∧ r.state ≠ .failed ∧ r.state ≠ .dropped ∧ r.state ≠ .recomputing) ∧
    (Enters pin (fun _ => 0) (tiled regs []) ∧ recordOf (ctxOf (tiled regs []) (tiled regs [])) drops = none) ∧
    (Enters unpin (fun _ => 0) (tiled regs []) ∧ Enters unpin (fun _ => 0) (tiled regs [(9, pins)]) ∧ pins.unpin.idle = false ∧
      Enters unpin (fun _ => 0) (tiled regs [(9, { pins with pinc := 1 })]) ∧ ({ pins with pinc := 1 } : Recipe).unpin.idle = true) := by
  refine ⟨⟨goodTile_spec (by decide +kernel), fun r hr s hs => ?_⟩, ⟨enters_spec (by decide +kernel), by decide +kernel⟩,
    ⟨enters_spec (by decide +kernel), by decide +kernel, by decide +kernel⟩,
    ⟨enters_spec (by decide +kernel), by decide +kernel⟩, ⟨enters_spec (by decide +kernel), goodTile_spec (by decide +kernel), by decide +kernel, by decide +kernel⟩,
    by decide +kernel,
    ⟨enters_spec (by decide +kernel), enters_spec (by decide +kernel), enters_spec (by decide +kernel), by decide +kernel⟩,
    fun r hr => ?_, by decide +kernel, fun r hr => ?_,
    ⟨enters_spec (by decide +kernel), by decide +kernel⟩,
    enters_spec (by decide +kernel), enters_spec (by decide +kernel), by decide +kernel, enters_spec (by decide +kernel), by decide +kernel⟩
  · simp only [List.mem_cons, List.not_mem_nil, or_false] at hr hs
    rw [hs]
    refine ⟨goodTile_spec ?_, ?_, ?_, ?_, ?_⟩ <;> rcases hr with rfl | rfl | rfl <;> decide +kernel
  · simp only [List.mem_cons, List.not_mem_nil, or_false] at hr
    rcases hr with rfl | rfl | rfl | rfl <;> exact enters_spec (by decide +kernel)
  · simp only [List.mem_cons, List.not_mem_nil, or_false] at hr
    rcases hr with rfl | rfl | rfl <;> exact ⟨enters_spec (by decide +kernel), by decide +kernel⟩

/-! ### Witnesses: matrix commands, barriers, the request engine, pipes -/

/-- A live full plane of BF16, and v64 and on as the operands of a command. -/
def engined (l : List Word) (m : Matrix) : State :=
  { mapped (addresses l) with
    cores := [(0, { tlb := [page], plan := some 0, inited := 1, mat := m })], plans := [(0, { onePlan with stages := [{ w := 2 }] })] }

/-- A matrix instruction enters, and its checks come to this: 0 passes, 1 is illegal, 2 has a bad operand. -/
def commandIs (i : Instr) (n : Nat) (s : State) : Bool :=
  enters i (fun _ => 0) s &&
    match matrixCmd s.me i with
    | none => false
    | some op =>
      match checkCmd (entered i s) 0 0 0 0 s.serial s.me.regs.fmt op with
      | .ok _ => n == 0
      | .error .illegal => n == 1
      | .error .operand => n == 2

/-- R245, R246: every matrix instruction with a command that passes; commands that fail; and a full queue. -/
theorem witness_matrix_commands :
    let plane : Plane := { full := true }
    let m : Matrix := { plane0 := plane }
    let s := engined [0, 8, 0x100, 0x1000, 0x04000000, 0x800000] m
    let full := engined [0, 8, 0x100] { m with queue := List.replicate 32 { id := 1, op := .mswap, fmt := 0, grp := 1, crew := 0, pc := 0 } }
    let mixed := withMe s fun g => { g with regs := { g.regs with fmt := 0x40004000 } }
    (∀ i ∈ [Instr.mldp always 66, .mswap always, .mstr always 65 66 65 none, .mstrp always 65 66 65 (some 66), .mdrn always 68 65 64 64 .f32 true true false false false,
        .mzero always 65, .mdup always 64], commandIs i 0 s = true) ∧
    (∀ i ∈ [Instr.mldp always 67, .mstr always 67 66 65 none, .mdrn always 64 65 64 64 .f32 true true false false false, .mzero always 64, .mzero always 69],
      commandIs i 2 (withMe s fun g => { g with regs := addresses [0, 8, 0x100, 0x1001, 0x04000000, 0x800000] }) = true) ∧
    commandIs (.mstr always 65 66 65 none) 2 (engined [0, 8, 0x100] {}) = true ∧
    commandIs (.mstr always 65 66 65 none) 1 mixed = true ∧
    (commandIs (.mldp always 66) 0 full = true ∧ 32 ≤ (full.core 0).mat.queue.length) := by decide +kernel

/-- R251, R254, R261: legal and illegal operands of MLDP and MZERO, at the ends of their ranges. -/
theorem witness_matrix_checks :
    let kind := fun (fmt : Word) (op : MOp) => match legalCmd fmt op with
      | some (.ok (a, n)) => a + n
      | some (.error .illegal) => 1
      | some (.error .operand) => 2
      | none => 3
    fmtB 0 ≤ 6 ∧ kind 0 (.mldp 0xF0000) = 0x100000 ∧ kind 0 (.mldp 0xF0010) = 2 ∧ kind 0 (.mldp 8) = 2 ∧ fmtB 0x06004000 ≤ 6 ∧
      kind 0x06004000 .mswap = 0 ∧ kind 0 (.mdup 5) = 0 ∧ kind 0 (.mzero 512) = 0 ∧ kind 0 (.mzero 513) = 2 ∧ kind 0 (.mzero 0) = 2 ∧
      kind 0 (.mzero (511 * 1024 + 1)) = 0 ∧ kind 0 (.mzero (511 * 1024 + 2)) = 2 ∧ kind 0 (.mzero (3 * 2 ^ 19 + 2 ^ 21 + 1)) = 2 := by decide +kernel

/-- Local memory with a barrier of one arrival of two expected and minus one pending sectors at 16, and its core. -/
def barrier : Bar := { exp := 2, err := 1, sec := -1, arr := 1, phase := 15 }
def barred (l : List Word) : State :=
  let lm := writeBytes [] 16 (leBytes 16 (2 * 2 ^ 64 + 2 ^ 56 + 0xFFFFFFFF * 2 ^ 24 + 16 + 15))
  { mapped (addresses l) with cores := [(0, { lm := lm, tlb := [page], plan := some 0, inited := 1 })] }

/-- Fields of a barrier, as one truth value. -/
theorem barrier_spec {x : Nat} {b : Bar}
    (h : (decide (x / 2 ^ 64 % 2 ^ 20 = b.exp) && decide (x / 2 ^ 56 % 16 = b.err) && decide ((BitVec.ofNat 32 (x / 2 ^ 24)).toInt = b.sec) &&
      decide (x / 16 % 2 ^ 20 = b.arr) && decide (x % 16 = b.phase)) = true) : BarrierIs x b := by
  simp only [Bool.and_eq_true, decide_eq_true_eq] at h
  obtain ⟨⟨⟨⟨a, b⟩, c⟩, d⟩, e⟩ := h
  exact ⟨a, b, c, d, e⟩

/-- R274 to R279: an initialised barrier, one of a block that is not, an address that is none; operands at the ends of their ranges; BTEST and BWAIT for the
barrier's phase and for another. -/
theorem witness_barriers :
    let s := barred [16, 1048575, 2147483647, 4096, 1048576, 15, 14]
    let a := (s.me.uval 64).toNat
    (s.me.uncommitted = false ∧ Quiet s ∧ GroupsRise s ∧ LocalForm s) ∧
    (Enters (.binit always 64 65) (fun _ => 0) s ∧ a < 1048576 ∧ a % 16 = 0 ∧ 1 ≤ (s.me.uval 65).toNat ∧ (s.me.uval 65).toNat ≤ 1048575) ∧
    (BarrierIs (readLE (s.core 0).lm a 16) barrier ∧ blockInited s 0 a = true) ∧
    (Enters (.arrive always 64 none none) (fun _ => 0) s ∧ Enters (.arrive always 64 (some 65) (some 66)) (fun _ => 0) s ∧
      1 ≤ (s.me.uval 65).toNat ∧ (s.me.uval 65).toNat ≤ 1048575 ∧ (s.me.uval 66).toNat ≤ 2147483647) ∧
    (Enters (.bexp always 64 66) (fun _ => 0) s ∧ (s.me.uval 66).toNat ≤ 2147483647) ∧
    (Enters (.arrive always 67 none none) (fun _ => 0) s ∧ Enters (.bexp always 67 66) (fun _ => 0) s ∧ blockInited s 0 (s.me.uval 67).toNat = false ∧
      (s.me.uval 67).toNat < 1048576 ∧ (s.me.uval 67).toNat % 16 = 0) ∧
    (Enters (.binit always 68 65) (fun _ => 0) s ∧ ¬ (s.me.uval 68).toNat < 1048576) ∧
    (Enters (.btest always 72 64 true false) (fun _ => 0) s ∧ Enters (.btest always 72 64 false false) (fun _ => 0) s ∧
      BarrierIs (leNat (readLocalBytes (entered (.btest always 72 64 true false) s) s.cur 0 a 16)) barrier) ∧
    (Enters (.bwait always 64 69) (fun _ => 0) s ∧ barrier.phase = (s.me.uval 69).toNat % 16 ∧ Enters (.bwait always 64 70) (fun _ => 0) s ∧
      barrier.phase ≠ (s.me.uval 70).toNat % 16) := by
  refine ⟨⟨by decide +kernel, alone_quiet (by decide +kernel), by unfold GroupsRise; decide +kernel, by unfold LocalForm; decide +kernel⟩, ⟨?_, by decide +kernel⟩,
    ⟨barrier_spec (by decide +kernel), by decide +kernel⟩, ⟨?_, ?_, by decide +kernel⟩, ⟨?_, by decide +kernel⟩, ⟨?_, ?_, by decide +kernel⟩,
    ⟨?_, by decide +kernel⟩, ⟨?_, ?_, barrier_spec (by decide +kernel)⟩, ⟨?_, by decide +kernel, ?_, by decide +kernel⟩⟩ <;> exact enters_spec (by decide +kernel)

/-- An entry of the pool, and the index of a pipe, as decidable facts. -/
def entryIs (s : State) (k : Nat) (e : PoolEntry) : Bool := decide ((poolEntry s s.me k).toOption = some e)
def pipeIs (s : State) (idx : BitVec 20) (j : Nat) (pl : Plan) (p : Pipe) : Bool := decide ((pipeAt s s.me idx none).toOption = some (j, pl, p))

theorem ok_of {α ε : Type} {x : Except ε α} {a : α} (h : x.toOption = some a) : x = .ok a := by
  cases x <;> simp_all [Except.toOption]

/-- R280, R282, R294: KICK by the producer group, by another, of an index out of range, with the queue full; LAUNCH of a plan, of another entry, with a
priority out of range, with room and without. R371, R372: PHINT with a save requested and without. -/
theorem witness_kicks_launches_hints :
    let s := mapped (addresses [16383, 7, 8])
    let kicks := fun (n : Nat) => { s with cores := [(0, { tlb := [page], eng := { kicks := List.replicate n { id := 1, index := 0, grp := 1, crew := 0, fmt := 0 } } })] }
    let launches := fun (n : Nat) =>
      { s with cores := [(0, { tlb := [page], launches := List.replicate n { ctx := 0, addr := 0, pri := 0, parent := 0, org := {}, since := 0 } })] }
    let other := withMe s fun g => { g with place := { g.place with gid := 1 } }
    let saving := { s with cores := [(0, { tlb := [page], save := some { since := 0, full := false, move := false, limit := 200000, image := 0 } })] }
    (Enters (.kick always 0 (some 64)) (fun _ => 0) (kicks 63) ∧ (s.me.uval 64).toNat < 16384 ∧ (s.crew s.me.place.crew).prod = s.me.place.gid ∧
      ((kicks 63).core 0).eng.kicks.length < 64) ∧
    (Enters (.kick always 1 (some 64)) (fun _ => 0) s ∧ 16384 ≤ ((1 : BitVec 20).zeroExtend 32 + s.me.uval 64).toNat) ∧
    (Enters (.kick always 1 none) (fun _ => 0) (kicks 64) ∧ 64 ≤ ((kicks 64).core 0).eng.kicks.length) ∧
    (Enters (.kick always 1 none) (fun _ => 0) other ∧ other.me.place.gid ≠ (other.crew other.me.place.crew).prod) ∧
    (Enters (.launch always 2 (some 65)) (fun _ => 0) (launches 3) ∧ poolEntry (launches 3) (launches 3).me 2 = .ok { kind := 6, extent := 0, base := 0x32000 } ∧
      (s.me.uval 65).toNat < 8 ∧ ((launches 3).core 0).launches.length < 4 ∧ Enters (.launch always 2 none) (fun _ => 0) (launches 3)) ∧
    (Enters (.launch always 2 none) (fun _ => 0) (launches 4) ∧ poolEntry (launches 4) (launches 4).me 2 = .ok { kind := 6, extent := 0, base := 0x32000 } ∧
      4 ≤ ((launches 4).core 0).launches.length) ∧
    (Enters (.launch always 2 (some 66)) (fun _ => 0) s ∧ 8 ≤ (s.me.uval 66).toNat) ∧
    (Enters (.launch always 1 none) (fun _ => 0) s ∧ poolEntry s s.me 1 = .ok { kind := 5, extent := 1, base := 0x31000 }) ∧
    (Enters (.phint always 0 none) (fun _ => 0) s ∧ hintOf s s.me 0 none = .ok 0x30000 ∧ (s.core 0).save = none) ∧
    (Enters (.phint always 0 none) (fun _ => 0) saving ∧ hintOf saving saving.me 0 none = .ok 0x30000 ∧ (saving.core 0).save ≠ none ∧
      saving.me.place.slice = none ∧ saving.me.opn = none ∧ saving.me.clo = none) := by
  refine ⟨⟨?_, by decide +kernel⟩, ⟨?_, by decide +kernel⟩, ⟨?_, by decide +kernel⟩, ⟨?_, by decide +kernel⟩,
    ⟨?_, ok_of (by decide +kernel), by decide +kernel, by decide +kernel, ?_⟩, ⟨?_, ok_of (by decide +kernel), by decide +kernel⟩, ⟨?_, by decide +kernel⟩,
    ⟨?_, ok_of (by decide +kernel)⟩, ⟨?_, ok_of (by decide +kernel), by decide +kernel⟩, ⟨?_, ok_of (by decide +kernel), by decide +kernel⟩⟩ <;>
    exact enters_spec (by decide +kernel)

/-- A state whose plan has one pipe of this package and one linked. -/
def piped (l : List Word) (p q : Pipe) : State := { mapped (addresses l) with plans := [(0, { onePlan with pipes := [p, q] })] }

/-- What a group has asked another package about the linked pipe, with what has come for it. -/
def asking (op : Nat) (got : Option (List Nat)) (s : State) : State := withMe s fun g => { g with ask := some { pipe := 1, op := op, slot := 0, no := 9, got := got } }

/-- R285 to R287, R292, R322: PRSV and CTAK of a pipe of the other stage, of a closed pipe, of one with a slot and of one without; and of a linked pipe. -/
theorem witness_slot_tokens :
    let slot := fun (st : SlotState) (seq : Word) => ({ state := st, seq := seq } : Slot)
    let two := fun (a b : Slot) => { onePipe with res := [(0, a), (1, b)] }
    let free := piped [] onePipe linkedPipe
    let none' := piped [] (two (slot (.reserved 0) 1) (slot (.taken 0) 2)) linkedPipe
    let shut := piped [] { onePipe with closedP := true } linkedPipe
    let away := piped [] { onePipe with prod := 1, cons := 1 } { linkedPipe with prod := 1 }
    let ready := piped [] (two (slot .committed 0xFFFFFFFF) (slot .committed 1)) linkedPipe
    let cut := { piped [] onePipe linkedPipe with plans := [(0, { onePlan with forced := true })] }
    (∀ s ∈ [free, none', shut, away, ready, cut], Enters (.prsv always 80 3 none false) (fun _ => 0) s ∧ Enters (.ctak always 80 3 none false) (fun _ => 0) s ∧
      findT s.crews s.me.place.crew = some oneCrew) ∧
    (pipeIs free 3 0 onePlan onePipe = true ∧ ((onePipe.refs.find? fun r => (onePipe.slot r).state == .free) = some ⟨false, 0⟩) ∧
      (∀ r ∈ onePipe.refs, (onePipe.slot r).state ≠ .committed)) ∧
    (let p := two (slot (.reserved 0) 1) (slot (.taken 0) 2); (p.refs.find? fun r => (p.slot r).state == .free) = none ∧
      closedToConsumer none' 0 { onePlan with pipes := [p, linkedPipe] } p = false) ∧
    (let p := two (slot .committed 0xFFFFFFFF) (slot .committed 1);
      pipeIs ready 3 0 { onePlan with pipes := [p, linkedPipe] } p = true ∧ (⟨false, 0⟩ : SlotRef) ∈ p.refs ∧
      ∀ r ∈ p.refs, r ≠ ⟨false, 0⟩ → (p.slot r).state = .committed → 0 < ((p.slot r).seq - 0xFFFFFFFF).toNat ∧ ((p.slot r).seq - 0xFFFFFFFF).toNat < 2 ^ 31) ∧
    (pipeIs cut 3 0 { onePlan with forced := true } onePipe = true ∧ closedToConsumer cut 0 { onePlan with forced := true } onePipe = true) ∧
    (pipeIs away 3 0 { onePlan with pipes := [{ onePipe with prod := 1, cons := 1 }, { linkedPipe with prod := 1 }] } { onePipe with prod := 1, cons := 1 } = true) := by
  refine ⟨fun s hs => ?_, by decide +kernel, by decide +kernel, by decide +kernel, by decide +kernel, by decide +kernel⟩
  simp only [List.mem_cons, List.not_mem_nil, or_false] at hs
  rcases hs with rfl | rfl | rfl | rfl | rfl | rfl <;> exact ⟨enters_spec (by decide +kernel), enters_spec (by decide +kernel), by decide +kernel⟩

/-- R287, R292, R322: a linked pipe of this producer, open: not asked yet, with a free reservation and with none; asked, without an answer, with a slot and with
none; and closed: not asked, asked, and with a slot granted late. -/
theorem witness_linked_tokens :
    let free := piped [] onePipe linkedPipe
    let gone := { linkedPipe with closedP := true }
    let shut := piped [] onePipe gone
    let lone := { linkedPipe with peer := none }
    let i := Instr.prsv always 80 4 none false
    (∀ s ∈ [free, { free with targets := [(1, { free := 0 })] }, asking 0 none free, asking 0 (some [1, 4097, 6]) free, asking 0 (some [0]) free],
      Enters i (fun _ => 0) s ∧ pipeIs s 4 1 onePlan linkedPipe = true ∧ s.me.place.crew = 0) ∧
    (free.me.ask = none ∧ linkedPipe.peer = some 1 ∧ mayLeave free 1 0x10 = true ∧ mayLeave { free with targets := [(1, { free := 0 })] } 1 0x10 = false) ∧
    (Enters i (fun _ => 0) (piped [] onePipe lone) ∧ pipeIs (piped [] onePipe lone) 4 1 { onePlan with pipes := [onePipe, lone] } lone = true ∧
      (piped [] onePipe lone).me.ask = none) ∧
    (∀ s ∈ [shut, asking 0 none shut, asking 0 (some [1, 4097, 6]) shut],
      Enters i (fun _ => 0) s ∧ pipeIs s 4 1 { onePlan with pipes := [onePipe, gone] } gone = true ∧ s.pipe s.me.place.plan 1 = some gone) ∧
    (gone.peer = some 1 ∧ gone.link = true ∧ gone.lside = false ∧ shut.me.ask = none) ∧
    (Enters (.ctak always 80 4 none false) (fun _ => 0) free ∧ linkedPipe.link = true ∧ linkedPipe.lside = false) := by
  refine ⟨fun s hs => ?_, by decide +kernel, ⟨enters_spec (by decide +kernel), by decide +kernel⟩, fun s hs => ?_, by decide +kernel, enters_spec (by decide +kernel),
    by decide +kernel⟩
  · simp only [List.mem_cons, List.not_mem_nil, or_false] at hs
    rcases hs with rfl | rfl | rfl | rfl | rfl <;> exact ⟨enters_spec (by decide +kernel), by decide +kernel⟩
  · simp only [List.mem_cons, List.not_mem_nil, or_false] at hs
    rcases hs with rfl | rfl | rfl <;> exact ⟨enters_spec (by decide +kernel), by decide +kernel⟩

/-- R291, R322: PSTAT of a linked pipe, with an answer and without; R288: a token of its slot. -/
theorem witness_linked_status :
    let free := piped [0x80800005] onePipe { linkedPipe with res := [(0, { state := .reserved 0, seq := 5 })] }
    (∀ m ∈ [PMode.free, .ready, .rfree, .sfree], ∀ got ∈ [none, some [3]], Enters (.pstat always 80 m 4 none false) (fun _ => 0) (asking (2 + statCode m) got free)) ∧
    (pipeIs free 4 1 { onePlan with pipes := [onePipe, { linkedPipe with res := [(0, { state := .reserved 0, seq := 5 })] }] }
      { linkedPipe with res := [(0, { state := .reserved 0, seq := 5 })] } = true ∧ linkedPipe.link = true ∧ linkedPipe.lside = false) ∧
    (∀ m ∈ [PMode.free, .ready, .rfree, .sfree], Enters (.pstat always 80 m 4 none false) (fun _ => 0) free) ∧
    (∀ m ∈ [PMode.tlo, .thi, .hlo, .hhi, .seq], Enters (.pstat always 80 m 0 (some 64) false) (fun _ => 0) free ∧
      ∀ got ∈ [none, some [3]], Enters (.pstat always 80 m 0 (some 64) false) (fun _ => 0) (asking (2 + statCode m) got free)) ∧
    (free.me.ask = none ∧ linkedPipe.peer = some 1 ∧ mayLeave free 1 0x10 = true ∧ (free.pipe 0 1).isSome = true) ∧
    (Enters (.pcmt always 64) (fun _ => 0) free ∧ holding free 0 0 (free.me.uval 64) = .reserved ∧ Quiet free ∧ findT free.crews 0 = some oneCrew) := by
  refine ⟨fun m hm got hg => ?_, by decide +kernel, fun m hm => ?_, fun m hm => ?_, by decide +kernel, enters_spec (by decide +kernel), by decide +kernel,
    alone_quiet (by decide +kernel), by decide +kernel⟩
  · simp only [List.mem_cons, List.not_mem_nil, or_false] at hm hg
    rcases hm with rfl | rfl | rfl | rfl <;> rcases hg with rfl | rfl <;> exact enters_spec (by decide +kernel)
  · simp only [List.mem_cons, List.not_mem_nil, or_false] at hm
    rcases hm with rfl | rfl | rfl | rfl <;> exact enters_spec (by decide +kernel)
  · simp only [List.mem_cons, List.not_mem_nil, or_false] at hm
    rcases hm with rfl | rfl | rfl | rfl | rfl <;> refine ⟨enters_spec (by decide +kernel), fun got hg => ?_⟩ <;>
      (simp only [List.mem_cons, List.not_mem_nil, or_false] at hg; rcases hg with rfl | rfl <;> exact enters_spec (by decide +kernel))

/-- R286, R288, R289, R291: tokens of a slot reserved, taken, discarded and of none, for PCMT, CREL and PSTAT. -/
theorem witness_commits_and_releases :
    let s := piped [0x80000005, 0xC0000806, 0x80001007, 0x80000006]
      { onePipe with depth := 3, res := [(0, { state := .reserved 0, seq := 5 }), (1, { state := .taken 0, seq := 6, share := 8 }), (2, { state := .discarded, seq := 7 })] } linkedPipe
    (s.pipe 0 0).isSome = true ∧ Quiet s ∧ findT s.crews 0 = some oneCrew ∧ oneCrew.plan = s.me.place.plan ∧
    (∀ r ∈ [64, 65, 66, 67], Enters (.pcmt always r) (fun _ => 0) s ∧ Enters (.crel always r) (fun _ => 0) s ∧
      ∀ m ∈ [PMode.tlo, .thi, .hlo, .hhi, .seq], Enters (.pstat always 80 m 0 (some r) false) (fun _ => 0) s) ∧
    (holding s 0 0 (s.me.uval 64) = .reserved ∧ holding s 0 0 (s.me.uval 65) = .taken ∧ holding s 0 0 (s.me.uval 66) = .discarded ∧ holding s 0 0 (s.me.uval 67) = .none) ∧
    (∀ m ∈ [PMode.free, .ready, .rfree, .sfree], Enters (.pstat always 80 m 3 none false) (fun _ => 0) s) ∧
    (Enters (.pstat always 80 .wlo 0 none false) (fun _ => 0) s ∧ Enters (.pstat always 80 .whi 0 none false) (fun _ => 0) s) := by
  refine ⟨by decide +kernel, alone_quiet (by decide +kernel), by decide +kernel, by decide +kernel, fun r hr => ?_, by decide +kernel, fun m hm => ?_,
    enters_spec (by decide +kernel), enters_spec (by decide +kernel)⟩
  · simp only [List.mem_cons, List.not_mem_nil, or_false] at hr
    rcases hr with rfl | rfl | rfl | rfl <;> refine ⟨enters_spec (by decide +kernel), enters_spec (by decide +kernel), fun m hm => ?_⟩ <;>
      (simp only [List.mem_cons, List.not_mem_nil, or_false] at hm; rcases hm with rfl | rfl | rfl | rfl | rfl <;> exact enters_spec (by decide +kernel))
  · simp only [List.mem_cons, List.not_mem_nil, or_false] at hm
    rcases hm with rfl | rfl | rfl | rfl <;> exact enters_spec (by decide +kernel)

/-! ### Witnesses: events of groups and memory -/

/-- Nothing stands in the way: two groups wait on a lane with clauses in memory, the second with the longer wait. -/
def waiting : State :=
  let s := mapped {}
  let hdr := 31 * 2 ^ 59 + 6 * 2 ^ 56 + 2 ^ 52 + 15 * 2 ^ 48 + 15 * 2 ^ 44
  let nop := match encode (.nop always) with | some w => w.toNat | none => 0
  let g : Group := { s.me with status := .waiting, clause := none, pc := 0x40 }
  { s with mem := words [(0x40, hdr), (0x48, nop), (0x50, nop)] tables, groups := [(1, g), (2, { g with w := 3, yielded := true, place := { g.place with slot := 1 } }),
      (3, { g with w := 2, place := { g.place with slot := 2 } })]
           cores := [(0, { tlb := [page], plan := some 0, icache := [0] })] }

/-- R200 to R204: group 3 goes before group 1, which has waited for less, and group 2, which has yielded, is not ready. -/
theorem witness_lane_selection :
    (∀ j ∈ laneGroups waiting 0 0, (waiting.grp j).status ≠ .issuing ∧ (waiting.grp j).opn = none ∧
      ((waiting.grp j).closeReq && (waiting.grp j).shut) = false) ∧ (∀ j ∈ standOn waiting 0 0, (waiting.grp j).debt = 0 ∧ (waiting.grp j).idle = 0) ∧
    GoesFirst waiting ((laneGroups waiting 0 0).filter fun j => stallOf waiting j == none) 3 ∧ (laneGroups waiting 0 0).length = 3 ∧
    (∃ c, locate waiting (waiting.grp 3) = .ok (c, true)) ∧ (waiting.grp 3).pend = none ∧ lateOf waiting 3 = none ∧ mergesAt (waiting.grp 3) (waiting.grp 3).pc = false := by
  refine ⟨by decide +kernel, by decide +kernel, ⟨by decide +kernel, by decide +kernel⟩, by decide +kernel, ?_, by decide +kernel, by decide +kernel, by decide +kernel⟩
  have h : (match locate waiting (waiting.grp 3) with | .ok (_, b) => b | .error _ => false) = true := by decide +kernel
  generalize hl : locate waiting (waiting.grp 3) = x at h ⊢
  match x, h with
  | .ok (c, b), h => exact ⟨c, by rw [show b = true from h]⟩

/-- A group with loads of each source and stores of each kind outstanding. -/
def busy : State :=
  let acc := fun (t : Nat) => ({ t := t, va := 0x1000 + 4 * t, pa := 0x1000 + 4 * t, stream := false, own := [none, some 7, none, none] } : ThreadAcc)
  let s := withMe (mapped {}) fun g => { g with
    loads := [pendingLoad 1 4 false (.data [(0, [1, 2, 3, 4])]), pendingLoad 2 5 false (.remote [(0, [1, 2, 3, 4])] []),
      pendingLoad 3 6 false (.global ((List.range 32).map acc) false), pendingLoad 4 4 true (.data [(0, [1, 2, 3, 4])])]
    stores := [⟨1, 1, 0, .fill 32 0x1000⟩, ⟨2, 1, 0, .writeBack 32 0x1000⟩, ⟨3, 1, 0, .remove 32 0x1000 true⟩, ⟨4, 1, 0, .remove 32 0x1000 false⟩] }
  { s with l2 := [(32, { dirty := true, use := 1 })] }

/-- The running group waits for an LDL of a uniform register, whose data differs between the threads. -/
def unfitting : State :=
  let l := { pendingLoad 4 64 true (.data [(0, [1, 0, 0, 0]), (1, [2, 0, 0, 0])]) with fit := false }
  let w := match encode (.ldl always 64 2 0 .b32 false false) with | some w => w | none => 0
  withMe (mapped {}) fun g => { g with loads := [l], clause := g.clause.map fun c => { c with words := [w, 0] } }

theorem l1_clean {s : State} (h : s.cores.all (fun e => e.2.l1.isEmpty) = true) : ∀ c (x : L1Line), x ∈ (s.core c).l1 → x.bad = [] := by
  intro c x hx
  unfold State.core at hx
  rcases getT_mem {} s.cores c with e | e
  · rw [e] at hx; simp at hx
  · have := List.all_eq_true.mp h _ e
    simp only [List.isEmpty_iff] at this
    rw [this] at hx; simp at hx

/-- R54, R163: every kind of outstanding access can complete; SLEEP expires and MWAIT resumes. -/
theorem witness_accesses_complete :
    (∀ id ∈ [1, 2, 3, 4], ∃ l vals, (busy.me.loads.find? fun l => l.id == id) = some l ∧ busy.me.live = true ∧ busy.me.status ≠ .ended ∧ l.nreg ≤ 4 ∧
      Returned busy 1 l vals ∧ l.hold = (id == 4) ∧ (id = 4 → loadMisfit busy.me.place.shape l vals = none)) ∧
    (∃ l vals i, (unfitting.me.loads.find? fun l => l.id == 4) = some l ∧ unfitting.me.live = true ∧ unfitting.me.status ≠ .ended ∧ l.nreg ≤ 4 ∧
      Returned unfitting 1 l vals ∧ l.src = .data vals ∧ l.hold = true ∧ loadMisfit unfitting.me.place.shape l vals = some 64 ∧
      (unfitting.me.word.bind fun w => (decode w).toOption) = some i) ∧
    (∀ id ∈ [1, 2, 3, 4], ((busy.me.stores.find? fun x => x.id == id).isSome = true)) ∧ tileAt busy 0 0x1000 = none ∧ pinnedLine busy 32 = false ∧
    ownDirty busy.me 32 = false ∧ bypasses busy 32 = false ∧ l1Room busy 0 [32] = true ∧
    (∀ till ∈ [0, 5], ∃ s : State, (s.grp 1).status = .suspended (.sleep till true) ∧ s.now = 4) ∧
    (∃ s : State, (s.grp 1).status = .suspended (.mwait 32)) := by
  refine ⟨fun id h => ?_, ⟨_, _, .ldl always 64 2 0 .b32 false false, rfl, by decide +kernel, by decide +kernel, by decide +kernel, ⟨rfl, rfl⟩, rfl, rfl, by decide +kernel,
      by decide +kernel⟩, by decide +kernel, by decide +kernel, by decide +kernel, by decide +kernel, by decide +kernel, by decide +kernel, fun till _ => ?_, ?_⟩
  · simp only [List.mem_cons, List.not_mem_nil, or_false] at h
    rcases h with rfl | rfl | rfl | rfl
    · exact ⟨_, _, rfl, by decide +kernel, by decide +kernel, by decide +kernel, ⟨rfl, rfl⟩, by decide +kernel, fun h => absurd h (by decide)⟩
    · exact ⟨_, _, rfl, by decide +kernel, by decide +kernel, by decide +kernel, ⟨rfl, rfl, rfl⟩, by decide +kernel, fun h => absurd h (by decide)⟩
    · exact ⟨_, _, rfl, by decide +kernel, by decide +kernel, by decide +kernel,
        ⟨rfl, rfl, l1_clean (by decide +kernel), by decide +kernel, by decide +kernel, rfl⟩, by decide +kernel, fun h => absurd h (by decide)⟩
    · exact ⟨_, _, rfl, by decide +kernel, by decide +kernel, by decide +kernel, ⟨rfl, rfl⟩, by decide +kernel, fun _ => by decide +kernel⟩
  · exact ⟨{ withMe blank fun g => { g with status := .suspended (.sleep till true) } with now := 4 }, by decide +revert +kernel, rfl⟩
  · exact ⟨withMe blank fun g => { g with status := .suspended (.mwait 32) }, by decide +kernel⟩

/-- A group with a closed chunk that has written a line and holds a streaming store, a reduction and a packed reduction; and released ones. -/
def committing : State :=
  let held := fun (op : HeldOp) => ({ ins := 1, va := 0x1000, pa := 0x1000, op := op, pc := 8 } : Held)
  let c : Chunk := { no := 1, start := 8, ckpt := {}, wr := [.glob 32], sd := [(32, [(0, 1), (127, 2)])], vas := [(32, 0x1000)]
                     held := [held (.store [1, 2, 3, 4]), held (.red .addU32 5 0), held (.red .addBf16x2 5 0)] }
  { withMe (mapped {}) fun g => { g with clo := some { c with sq := 2 } } with plans := [] }

def flying : State :=
  let f : Flight := { id := 1, ins := 1, grp := 1, core := 0, ctx := 0, va := 0x1000, pa := 0x1000, op := .store [1, 2, 3, 4], pc := 8, half := 2 }
  { mapped {} with plans := [], flights := [f, { f with id := 2, op := .red .addU32 5 0 }, { f with id := 3, op := .red .addBf16x2 0x3F803F80 0, half := 0 },
      { f with id := 3, op := .red .addBf16x2 0x3F803F80 0, half := 1 }] }

/-- R449, R169, R179: a chunk that may commit; a released store, a reduction and two halves of one that may apply. -/
theorem witness_commits :
    (committing.badSec = [] ∧ committing.me.clo.isSome = true ∧ Quiet { committing with cur := 1 } ∧ ∀ c, committing.me.clo = some c →
      NoHeaders committing ∧ NoneArrived committing ∧ committing.me.exiting = false ∧ committing.me.closeReq = false ∧
      (∀ e ∈ chunkReads 1 committing.me c.no, waitsOnTile committing committing.me e.1 e.2 = none) ∧ (∀ x ∈ committing.me.stores, x.chunk ≠ c.no) ∧
      commitBlocked committing committing.me c = false ∧ c.sd.length ≤ 1 ∧ mayGrant committing (sliceSet committing.me c) = true ∧ committing.hub = [] ∧
      heldByReserved committing 1 c.resv (writeKeys committing committing.me c) 0 [] = false ∧ ∀ e ∈ c.sd, refusesWrite committing committing.me (getT 0 c.vas e.1) = false) ∧
    (flying.badSec = [] ∧ NoneArrived flying ∧ ∀ f ∈ flying.flights, (flying.flights.find? fun o => o.id == f.id && o.half == f.half) = some f ∧ flightBlocked flying f 4 = false ∧
      flightFault flying f = none ∧ streamAhead flying f = false) := by
  refine ⟨⟨by decide +kernel, by decide +kernel, alone_quiet (by decide +kernel), fun c hc => ?_⟩, by decide +kernel, by unfold NoneArrived; decide +kernel, by decide +kernel⟩
  have : c = (committing.me.clo).getD { no := 0, start := 0, ckpt := {} } := by rw [hc]; rfl
  subst this
  exact ⟨by unfold NoHeaders; decide +kernel, by unfold NoneArrived; decide +kernel, by decide +kernel, by decide +kernel, by decide +kernel, by decide +kernel,
    by decide +kernel, by decide +kernel, by decide +kernel, by decide +kernel, by decide +kernel, by decide +kernel⟩

/-- Walks in progress for a page that translates and for one that does not; a full set of the L2; and one whose oldest line is of a sealed tile. -/
def walking : State := { mapped {} with walks := [(4, ⟨0, 0, 0x80000, [0, 1], [1], []⟩), (5, ⟨0, 0, 0x200000000000, [0], [1], [0]⟩)] }
def crowded (old : Nat) (r : Tab Recipe) : State :=
  { tiled [] r with plans := [], l2 := (List.range 16).map (fun k => ((k + 1) * 0x10000, { dirty := false, use := if (k + 1) * 0x10000 = old then 0 else k + 2 })) ++
      [(0x1000000, { dirty := true, use := 1 })] }

/-- R229, R239, R430, R438: walks, evictions of a line alone and of a line of a tile, a line that is no victim, and a sealed tile. -/
theorem witness_walks_and_evictions :
    (findT walking.walks 4 = some ⟨0, 0, 0x80000, [0, 1], [1], []⟩ ∧ ∃ x, walkResult walking ⟨0, 0, 0x80000, [0, 1], [1], []⟩ = .ok x) ∧
    (findT walking.walks 5 = some ⟨0, 0, 0x200000000000, [0], [1], [0]⟩ ∧ ∃ c, walkResult walking ⟨0, 0, 0x200000000000, [0], [1], [0]⟩ = .error c) ∧
    (getT [] walking.missq 0 = [] ∧ upperAt (getT [] walking.wcache 0) 0 0x80000 = none ∧ 0x80000 < 2 ^ 57) ∧
    (evictee (crowded 0x30000 []) 0x30000 = true ∧ sealedTiles (crowded 0x30000 []) 0x30000 = [] ∧ evictee (crowded 0x30000 []) 0x20000 = false) ∧
    (let s := crowded 0 [(9, { tgt := drops, state := .sealed })]
     evictee s 0x1000000 = true ∧ sealedTiles s 0x1000000 = [(0, 9)] ∧ findT (s.ctx 0).recipes 9 = some { tgt := drops, state := .sealed } ∧
      ({ tgt := drops, state := .sealed } : Recipe).pinc = 0 ∧ findT s.ctxs 0 ≠ none ∧ 0x1000000 * 128 / 128 ∈ vaLines s 0 drops.va drops.size) ∧
    (let s := crowded 0 [(9, { tgt := drops, state := .recomputing })]
     findT (s.ctx 0).recipes 9 = some { tgt := drops, state := .recomputing } ∧ 0x1000000 * 128 / 128 ∈ vaLines s 0 drops.va drops.size) ∧
    (∀ c ∈ (crowded 0 []).ctxs, c.2.recipes = []) := by
  refine ⟨⟨by decide +kernel, ?_⟩, ⟨by decide +kernel, ?_⟩, by decide +kernel, by decide +kernel, by decide +kernel, by decide +kernel, by decide +kernel⟩
  · have h : (walkResult walking ⟨0, 0, 0x80000, [0, 1], [1], []⟩).toOption.isSome = true := by decide +kernel
    cases hw : walkResult walking ⟨0, 0, 0x80000, [0, 1], [1], []⟩ with
    | ok x => exact ⟨x, rfl⟩
    | error c => simp [hw, Except.toOption] at h
  · have h : (walkResult walking ⟨0, 0, 0x200000000000, [0], [1], [0]⟩).toOption.isSome = false := by decide +kernel
    cases hw : walkResult walking ⟨0, 0, 0x200000000000, [0], [1], [0]⟩ with
    | error c => exact ⟨c, rfl⟩
    | ok x => simp [hw, Except.toOption] at h

/-! ### Witnesses: events of the engines -/

/-- A command, and a core whose queue starts with it. -/
def command (op : MOp) : MCmd := { id := 7, op := op, fmt := 0, grp := 1, crew := 0, pc := 8 }
def queued (op : MOp) (run : List (MUnit × MCmd)) : State :=
  engined [] { plane0 := { full := true, rows := List.replicate 128 [1, 2] }, queue := [command op], run := run }

/-- Two cores whose queues start with commands of a pair. -/
def paired (a b : MOp) : State :=
  { engined [] {} with cores := [(0, { mat := { plane0 := { full := true }, queue := [command a] } }), (1, { mat := { plane0 := { full := true }, queue := [{ command b with id := 9 }] } })] }

def stream (pair : Bool) (v geo : Word) : MOp := .mstr pair v 0x100 geo none
def drain : MOp := .mdrn 0x04000000 2 0 0 .f32 true true false false false

/-- R253 to R258, R266: a command of each kind that may dispatch; a stream held up by a drain of its region; a pair that agrees. -/
theorem witness_matrix_dispatches :
    (∀ op ∈ [MOp.mldp 0x100, .mdup 5, .mswap, stream false 8 8, .mzero 0x801, drain],
      (queued op []).grp 1 ≠ {} ∧ ((queued op []).core 0).mat.queue = command op :: [] ∧ (command op).op.paired = false ∧ mayDispatch ((queued op []).core 0).mat (command op) = true) ∧
    (let s := queued (stream false 8 8) [(.drain, command drain)]; mayDispatch (s.core 0).mat (command (stream false 8 8)) = false) ∧
    (let s := paired (stream true 8 8) (stream true 8 1032)
     (headPair s 0).isSome = true ∧ sameStream (stream true 8 8) (stream true 8 1032) = true ∧
      mayDispatch (s.core 0).mat (command (stream true 8 8)) = true ∧ mayDispatch (s.core (partner 0)).mat { command (stream true 8 1032) with id := 9 } = true) := by
  decide +kernel

/-- R260 to R263: a load and a drain that are the oldest of their units; a pair without a partner, and one that disagrees. -/
theorem witness_matrix_completes :
    (∀ op ∈ [MOp.mldp 0x100, .mdup 5, .mswap, stream false 8 8, .mzero 0x801, drain], let s := queued .mswap [(op.unit, command op)]
      (command op).sent = false ∧ s.slotWrites = [] ∧ (s.core 0).mat.run[0]? = some (op.unit, command op) ∧ ((s.core 0).mat.run.take 0).all (fun _ => false) = true ∧ (s.grp 1).live = true ∧ (s.grp 1).status ≠ .ended) ∧
    (let s := queued .mswap [(.drain, command drain)]
     drain.isDrain = true ∧ (command drain).slot = none ∧ Memory.wf (s.core 0).lm = true ∧ localHeld s 0 (drainRows 0x04000000 2 .f32) = false ∧ (∀ e ∈ s.groups, e.2.opn = none ∧ e.2.clo = none) ∧
      (geoOf 2).rows ≤ 512 ∧ ((geoOf 2).ncb + 1) * blockBytes .f32 ≤ 16 * ((0x04000000 : Word).toNat / 2 ^ 20)) ∧
    (let s := { engined [] {} with cores := [(0, { mat := { queue := [command (stream true 8 8)] } })] }
     headPair s 0 = none ∧ noCrewOn s (partner 0) = true ∧ ((s.core (partner 0)).mat.queue.any fun x => x.op.paired && x.k == 0) = false ∧
      (s.grp 1).live = true ∧ (s.ctx (s.grp 1).place.ctx).late.length < 1023) ∧
    (let s := paired (stream true 8 8) (stream true 8 16); headPair s 0 = some (command (stream true 8 8), { command (stream true 8 16) with id := 9 }) ∧
      sameStream (stream true 8 8) (stream true 8 16) = false) := by
  decide +kernel

/-- R269, R322: a drain into a slot of another package, whose bytes have gone and are not all there. -/
theorem witness_slot_drain_waits :
    let c := { command drain with slot := some (0, 1, false, 0), sent := true }
    let s := { queued .mswap [(.drain, c)] with slotWrites := [(3, { core := 0, op := 7, sector := none, dst := 1, lkey := 9, slot := 0, off := 0, grp := 1, crew := 0, pc := 8 })] }
    (s.core 0).mat.run[0]? = some (.drain, c) ∧ c.sent = true ∧ (∃ e ∈ s.slotWrites, e.2.core = 0 ∧ e.2.op = c.id) ∧ s.pipe 0 1 = some linkedPipe ∧
      linkedPipe.remote = true := by
  decide +kernel

/-- Records of a copy: from local memory to global memory, and back; the first sends an arrival to the barrier at 16 if `arr` says so. -/
def record (arr out : Bool) : List Byte :=
  leBytes 64 (1 + 2 ^ 8 + (if arr then 2 ^ 17 + 2 ^ 20 else 0) +
    (if out then 0x200 * 2 ^ 128 + 0x1000 * 2 ^ 192 + 2 ^ 296 else 0x1000 * 2 ^ 128 + 0x400 * 2 ^ 192 + 2 ^ 298))

/-- A core with a record at index 2 of its local memory, and a request engine. -/
def requesting (e : Engine) : State :=
  let lm := writeBytes (writeBytes [] 16 (leBytes 16 (2 * 2 ^ 64 + 2 * 16 + 3))) 128 (record false true)
  { mapped {} with cores := [(0, { lm := lm, tlb := [page], plan := some 0, inited := 1, eng := e })] }

def inst (r : List Byte) (left : List Nat) (err : Nat) : Inst := { id := 5, index := 2, recd := r, crew := 0, grp := 1, fmt := 0, need := 0, left := left, err := err }

/-- R331 to R334: a kicked record to fetch, an instance that starts, reading and writing local memory. -/
theorem witness_request_engine :
    (let k : Kick := { id := 4, index := 2, grp := 1, crew := 0, fmt := 0 }
     let s := requesting { kicks := [k] }
     (s.core 0).eng.kicks = k :: [] ∧ atRest s 0 = false ∧ (s.core 0).eng.find 0 2 = none ∧ (s.core 0).eng.cache.length < 128 ∧
      blockInited s 0 (64 * 2) = true ∧ (s.core 0).badRow = [] ∧
      (((s.core 0).eng.waiting ++ (s.core 0).eng.running).all fun i => !(i.crew == k.crew && i.index == k.index)) = true) ∧
    (∀ out ∈ [true, false], let s := requesting { waiting := [inst (record false out) [] 0] }
      ((s.core 0).eng.waiting.find? fun i => i.need == 0) = some (inst (record false out) [] 0) ∧ atRest s 0 = false ∧ (s.core 0).eng.running.length < 16 ∧
      recOk s 0 5 (record false out) = true ∧ recRuns s 0 (inst (record false out) [] 0) = true ∧ recKind (record false out) ≠ 4) := by
  decide +kernel

/-- R334, R337: a sector that lands in global and in local memory. -/
theorem witness_sectors : ∀ out ∈ [true, false], let i := inst (record false out) [0] 0
    let s := requesting { running := [i] }
    ((s.core 0).eng.running.find? fun y => y.id == 5) = some i ∧ 0 ∈ i.left ∧ i.away = [] ∧ recKind i.recd = 1 ∧
      secEnds s i 0 = (if out then (.loc 0x200, .glob 0x1000) else (.glob 0x1000, .loc 0x400)) ∧ (secEnds s i 0).2.isAway = false ∧
      (∀ va ∈ (secEnds s i 0).1.globals ++ (secEnds s i 0).2.globals, findXlat (s.core 0).tlb 0 va = some page) ∧
      endError s 0 0 false (secEnds s i 0).1 = none ∧ endError s 0 0 true (secEnds s i 0).2 = none ∧
      (tileWait 0 0 (.engine 0 5) (secEnds s i 0).1 s).isNone = true ∧
      endHeld s 0 0 (secEnds s i 0).2 = false ∧ endBehind s 0 0 (secEnds s i 0).1 = false ∧ endBehind s 0 0 (secEnds s i 0).2 = false ∧
      banksRefuse (s.core 0) ((secEnds s i 0).1.sectors ++ (secEnds s i 0).2.sectors) = false ∧ NoneArrived s ∧ recBar i.recd = false ∧ (∀ e ∈ s.groups, e.2.opn = none ∧ e.2.clo = none) ∧ s.flights = [] ∧
      Memory.wf (s.core 0).lm = true ∧ ((s.core 0).mat.queue ++ (s.core 0).mat.run.map Prod.snd) = [] ∧
      (enginePlace s 0 0 0x1000).toOption = some page := by
  unfold NoneArrived; decide +kernel

/-- R337: an instance that completes with an arrival and without. -/
theorem witness_instances_complete : ∀ arr ∈ [true, false], let i := inst (record arr true) [] 1
    let s := requesting { running := [i] }
    ((s.core 0).eng.running.find? fun y => y.id == 5) = some i ∧ recKind i.recd ≤ 3 ∧ recBar i.recd = false ∧ recSucc i.recd = [] ∧ ((s.core 0).eng.held.filter fun h => h.isFor 0 2) = [] ∧ i.err < 16 ∧
      Memory.wf (s.core 0).lm = true ∧
      recArr i.recd = arr ∧ (arr = true → recBaddr i.recd = 16 ∧ barrierHeld s 0 0 16 = false ∧ blockInited s 0 16 = true) := by
  decide +kernel

theorem witness_record_barrier : BarrierIs (readLE ((requesting {}).core 0).lm 16 16) { exp := 2, err := 0, sec := 0, arr := 2, phase := 3 } :=
  barrier_spec (by decide +kernel)

/-! ### Witnesses: events of pipes, crews and plans -/

/-- A slot in a state with a number, and a pipe of two such slots and one of its ring. -/
def slotted (st : SlotState) (waits : List Nat) : Pipe :=
  { onePipe with res := [(0, { state := st, seq := 5, share := 8, waits := waits })], ring := [(1, { state := st, seq := 6, share := 8, waits := waits })]
                 opened := 2, ringCap := 2, rcp := true, hi := 2 }

/-- The plan with the pipe `p`, a linked one beside it, and a recipe of a sealed tile where its ring stands on the droppable page. -/
def slots (p : Pipe) (r : Tab Recipe) : State := { piped [] p linkedPipe with ctxs := [(0, { oneCtx with recipes := r })] }

/-- R288, R289, R307, R309, R310, R322: commits and releases whose operations have completed, and that still wait; of a resident slot, of a ring slot with a
sealed tile, and of a slot that another package holds. -/
theorem witness_slot_events :
    let p := slotted (.committing 0) []
    let onDrops : Pipe := { p with mem := { p.mem with ringVa := 0x80000000 - 4096 } }
    let sealed : Recipe := { tgt := drops, state := .sealed }
    let away := piped [] onePipe { linkedPipe with res := [(0, { state := .committing 0, seq := 5 })] }
    let kick : Kick := { id := 7, index := 0, grp := 1, crew := 0, fmt := 0 }
    let held := fun (q : Pipe) => { slots q [] with cores := [(0, { tlb := [page], plan := some 0, eng := { kicks := [kick] } })] }
    (∀ r ∈ [(⟨false, 0⟩ : SlotRef), ⟨true, 1⟩], (p.slot r).state = .committing 0 ∧ opsLive (slots p []) (p.slot r).waits = false ∧ headerHeld (slots p []) 0 p r = false) ∧
    (p.remote = false ∧ ((slots p []).pipe 0 0).isSome = true ∧ recipeAt ((slots p []).ctx 0) (p.tileAddr ⟨true, 1⟩) = none) ∧
    (onDrops.rcp = true ∧ onDrops.tileAddr ⟨true, 1⟩ = 0x80000000 ∧ recipeAt ((slots onDrops [(9, sealed)]).ctx 0) 0x80000000 = some (9, sealed) ∧
      sealed.state = .sealed ∧ sealed.pinc = 0 ∧ onDrops.slot ⟨true, 1⟩ = p.slot ⟨true, 1⟩) ∧
    (linkedPipe.remote = true ∧ linkedPipe.peer = some 1 ∧ mayLeave away 1 0x10 = true ∧ slotDataAway away 1 9 0 = false ∧
      opsLive away [] = false) ∧
    (opsLive (held (slotted (.committing 0) [7])) [7] = true ∧ headerHeld { slots p [] with hub := [{ pa := page.phys (p.hdrAddr ⟨true, 1⟩), bytes := [1] }] } 0 p ⟨true, 1⟩ = true) ∧
    (let q := { slotted (.releasing 0) [] with rcp := false }
     (q.slot ⟨false, 0⟩).state = .releasing 0 ∧ opsLive (slots q []) [] = false ∧ q.links = [] ∧ (slots q []).hub = [] ∧ (slots q []).badSec = [] ∧ q.rcp = false ∧
      (∀ e ∈ (slots q []).groups, e.2.opn = none ∧ e.2.clo = none) ∧ (slots q []).flights = [] ∧
      (walk (slots q []) 0 (q.hdrAddr ⟨false, 0⟩)).toOption = some page ∧ page.write = true ∧
      (let m := writeBytes (slots q []).mem (page.phys (q.hdrAddr ⟨false, 0⟩)) (keptBytes (slots q []) (page.phys (q.hdrAddr ⟨false, 0⟩)) (List.replicate 64 0))
       (walk { slots q [] with mem := m } 0 (q.hdrAddr ⟨false, 0⟩ + 39)).toOption = some page)) ∧
    (let home := { linkedPipe with lside := true, hi := 1, res := [(0, { state := .committed })], depth := 1, depthMode := true }
     linkedPipe.remote = true ∧ home.link = true ∧ { home with relayed := true }.relayed = home.depthMode ∧ home.lside = true ∧ home.peer = some 1 ∧ home.relayed ≠ home.depthMode ∧ onePipe.link = false) ∧
    (opsLive (held (slotted (.releasing 0) [7])) [7] = true) := by
  decide +kernel

/-- A crew whose group has ended, and one whose group still runs. -/
def ended : State := withMe (mapped {}) fun g => { g with status := .ended }

/-- A plan with weight on its way to the sink, of a queue or of none. -/
def sinking (w : Nat) (q : Option Nat) : State := { mapped {} with plans := [(0, { onePlan with inflight := [(w, 3)], sink := 40, queue := q, stat := 0x1000 })] }

/-- A crew that waits for names while the free list of the Den is almost used up. -/
def nameless (next : Nat) : State :=
  { mapped {} with crews := [(0, { oneCrew with waitName := true })], denNext := next, denFree := [3], den := [(3, { gen := 7 })] }

/-- R293, R314 to R316, R345, R388: a crew that may exit and one that may not; weight that does not fill the sink, that does, with a write outstanding and with a
page for the status; a crew with two free names, and with none. -/
theorem witness_crew_events :
    (findT ended.crews 0 = some oneCrew ∧ mayExit ended 0 oneCrew = true ∧ findT ended.plans 0 = some onePlan ∧ (∀ g ∈ oneCrew.groups, (ended.grp g).regs.lmask = 0) ∧
      (ended.core 0).eng.waiting = [] ∧ getT 0 (ended.core 0).eng.discarded 0 = 0 ∧ (ended.ctx 0).late = [] ∧
      (∀ q ∈ onePlan.pipes, ∀ r ∈ q.refs, (q.slot r).state ≠ .reserved 0 ∧ (q.slot r).state ≠ .taken 0) ∧
      (∀ e ∈ ended.crews, e.1 ≠ 0 → ¬ (e.2.plan = 0 ∧ e.2.stage = 0)) ∧ (ended.core 0).save = none ∧ (∀ e ∈ (sinking 60 none).groups, e.2.place.slice = none) ∧
      (∀ r ∈ ({ onePlan with pipes := [onePipe] } : Plan).pipes, r.remote = false) ∧ onePipe.prod = 0 ∧ onePipe.link = false) ∧
    (findT (mapped {}).crews 0 = some oneCrew ∧ mayExit (mapped {}) 0 oneCrew = false) ∧
    (onePlan.tw = 100 ∧ (40 + 59 : Int) ≠ 100 ∧ (40 + 60 : Int) = 100 ∧ writesOut (sinking 60 none) 0 = false ∧
      writesOut (withMe (sinking 60 none) fun g => { g with rem := 1 }) 0 = true) ∧
    (((sinking 60 (some 2)).ctx 0).teardown = false ∧ (sinking 60 (some 2)).hub = [] ∧
      (walk (sinking 60 (some 2)) 0 0x1000).toOption = some page ∧ page.write = true ∧ (sinking 60 (some 2)).flights = [] ∧ ∀ e ∈ (sinking 60 (some 2)).groups, e.2.opn = none ∧ e.2.clo = none) ∧
    (movePending (nameless 1048575) 0 = false ∧ findT (nameless 1048575).crews 0 = some { oneCrew with waitName := true } ∧ freeList (nameless 1048575) = [1048575, 3] ∧ oneCrew.groups.Nodup ∧
      (freeList (nameless 1048575)).Nodup ∧ oneCrew.groups.length ≤ (freeList (nameless 1048575)).length) ∧
    (freeList { nameless 1048576 with denFree := [] } = [] ∧ 0 < oneCrew.groups.length) ∧
    (∃ e ∈ [(0, ({ onePlan with move := some { donor := 0, recv := 1, cores := [0] } } : Plan))], ∃ m, e.2.move = some m ∧ oneCrew.core ∈ m.cores) := by
  refine ⟨by decide +kernel, by decide +kernel, by decide +kernel, by decide +kernel, by decide +kernel, by decide +kernel, _, List.mem_singleton.mpr rfl, _, rfl, by decide⟩

/-- A plan of two stages side by side, whose middle pipe is full. -/
def balanced (n : Nat) (m : Option Move) (r : Option (Nat × List Stage)) : State :=
  let full : Pipe := { onePipe with prod := 0, cons := 1, depth := 1, hi := 1, res := [(0, { state := .committed })] }
  let p : Plan := { onePlan with stages := [{ w := 2 }, { x := 2, w := 1 }], pipes := [full], bper := 1, bstk := 2, streak := [((0, 1), n)], nextSample := 0, move := m, nextRev := r }
  { mapped {} with plans := [(0, p)], now := 5, crews := [], cores := [(0, { tlb := [page] }), (1, { plan := some 0 })] }

/-- R311 to R313: a sample that moves a core and one that does not, one before its time; a move that may be published, one whose cores are still busy; a
revision to come and one that is due. -/
theorem witness_balancer_events :
    let m : Move := { donor := 0, recv := 1, cores := [1] }
    let p := fun (s : State) => (findT s.plans 0).getD { ctx := 0, tag := 0, pri := 0 }
    ((∀ q ∈ (p (balanced 1 none none)).pipes, q.sampling = false ∧ q.remote = false ∧ 0 < q.hi) ∧ (p (balanced 1 none none)).streaks = [((0, 1), 2)] ∧ (p (balanced 0 none none)).streaks = [((0, 1), 1)] ∧ (p (balanced 1 none none)).bper ≠ 0 ∧
      (p (balanced 1 none none)).nextSample ≤ 5 ∧ moveCores ((p (balanced 1 none none)).stage 0) ((p (balanced 1 none none)).stage 1) = [1]) ∧
    (onePlan.bper = 0) ∧ (let q := { onePlan with bper := 1 }; q.nextSample ≤ 0 ∧ q.asking = false ∧ ∃ r ∈ q.pipes, r.remote = true ∧ r.peer ≠ none) ∧
    (let q := { onePlan with bper := 1, asking := true, pipes := [{ linkedPipe with sampling := true }] }; q.asking = true ∧ ∃ r ∈ q.pipes, r.sampling = true) ∧
    (let s := balanced 1 (some m) none; (p s).nextRev = none ∧ (p s).stages[m.donor]? = some { w := 2 } ∧ (p s).stages[m.recv]? = some { x := 2, w := 1 } ∧
      m.cores.Nodup ∧ (p s).pipes.all (fun r => !r.remote) = true) ∧
    (CanGive { w := 2 } { x := 2, w := 1 } ∧ ∀ c, c ∈ m.cores ↔ OnEdge { w := 2 } { x := 2, w := 1 } c) ∧
    (donorStays (balanced 1 (some m) none) m = false ∧ donorStays { balanced 1 (some m) none with crews := [(0, { oneCrew with core := 1 })] } m = true) ∧
    ((balanced 1 (some m) (some (6, []))).now < 6 ∧ 5 ≤ (balanced 1 (some m) (some (5, []))).now ∧ (p (balanced 1 (some m) (some (5, [])))).move = some m) := by
  refine ⟨by decide +kernel, by decide +kernel, by decide +kernel, by decide +kernel, by decide +kernel, ⟨by simp [CanGive, SharesEdge], fun c => ?_⟩, by decide +kernel, by decide +kernel⟩
  constructor
  · intro h
    obtain rfl : c = 1 := by simpa using h
    exact Or.inl ⟨by simp [SharesEdge], 0, by decide, by decide⟩
  · rintro (⟨-, dy, h, rfl⟩ | ⟨h, -⟩)
    · obtain rfl : dy = 0 := by simpa using h
      decide
    · simp [SharesEdge] at h

/-- A crew of the one stage suspended on its own full pipe, in a plan with a probe home or not. -/
def stuck (seen : Option (List (Nat × Nat))) (cap : Nat) (f : Plan → Plan) : State :=
  let p : Pipe := { onePipe with depth := 1, res := [(0, { state := .reserved 0 })], ringCap := cap, probe := seen, ops := 3 }
  let s := withMe (piped [] p linkedPipe) fun g => { g with status := .suspended (.pipe 0 0 true) }
  { s with now := 200000, plans := s.plans.map fun e => (e.1, f e.2) }

/-- R317, R318, R320: a probe that comes home; a probe whose counters have moved, one whose pipe can grow, one that declares a deadlock; a forced drain whose
time is over, and one whose time is not. -/
theorem witness_deadlock_events :
    let s := stuck none 1 id
    let p := fun (s : State) => (findT s.plans 0).getD { ctx := 0, tag := 0, pri := 0 }
    ((p s).forced = false ∧ ((p s).pipes.getD 0 {}).remote = false ∧ ((p s).pipes.getD 0 {}).since + 1000 * (p s).pper ≤ s.now ∧
      ((p s).pipes.getD 0 {}).probed + 1000 * (p s).pper ≤ s.now ∧ (true, 0) ∈ suspendedOn s 0 0 ∧
      0 + 1000 * (p s).pper ≤ s.now ∧
      (let front := ((suspendedOn s 0 0).map fun w => waitedStage (p s) (0, w.1)).eraseDups
       probeWalk s 0 0 (p s) ((p s).pipes.length + front.length + 1) front [0] false = some ([0], true))) ∧
    (((p (stuck (some [(0, 2)]) 1 id)).pipes.getD 0 {}).ops ≠ 2 ∧ ((p (stuck (some [(0, 3)]) 1 id)).pipes.getD 0 {}).ops = 3) ∧
    (growPipe (stuck (some [(0, 3)]) 1 id) 0 [0] = some 0 ∧ ((p (stuck (some [(0, 3)]) 1 id)).pipes.getD 0 {}).opened < ((p (stuck (some [(0, 3)]) 1 id)).pipes.getD 0 {}).ringCap) ∧
    (((p (stuck (some [(0, 3)]) 0 id)).pipes.getD 0 {}).ringCap ≤ ((p (stuck (some [(0, 3)]) 0 id)).pipes.getD 0 {}).opened ∧
      (p (stuck (some [(0, 3)]) 0 fun p => { p with queue := some 2, stat := 0x1000 })).parent = none ∧ ((stuck (some [(0, 3)]) 0 id).ctx 0).teardown = false) ∧
    ((p (stuck none 0 fun p => { p with forced := true })).forced = true ∧ (p (stuck none 0 fun p => { p with forced := true })).forcedAt + 200000 ≤ 200000 ∧
      200000 < (p (stuck none 0 fun p => { p with forced := true, forcedAt := 1 })).forcedAt + 200000) := by
  decide +kernel

/-! ### Witnesses: events of the launch front end, of saves -/

/-- A group with a reserved chunk that has read the line at 0x1000. -/
def reserved : State :=
  let c : Chunk := { no := 1, start := 8, ckpt := {}, resv := some 0, rd := [.glob 32] }
  withMe (mapped {}) fun g => { g with opn := some c }

/-- R476, R477: function 5 has posted a sector that waits for a reserved chunk. -/
theorem witness_posted_behind :
    let y : Posted := { id := 3, fn := 5, pieces := [(0x1000, [1])] }
    let s := { reserved with funcs := [(5, { ctx := some 0 })], posted := [y] }
    s.posted = [y] ∧ y.tail = none ∧ y.pieces = (0x1000, [1]) :: [] ∧ (s.func 5).ctx = some 0 ∧ (s.ctx 0).live = true ∧ windowHeld s 0 (0x1000, [1]) = true ∧
      queueAt s 5 63 = some 63 := by decide +kernel

/-- R341, R342, R348, R474: a page that is a queue, one that is none, a function whose context is gone; a tail that fits the queue and one that does not; a candidate
that has waited for an ageing interval. -/
theorem witness_queue_events :
    let l : Launch := { ctx := 0, addr := 0, org := {}, tag := 0 }
    let s : State := { mapped {} with funcs := [(0, { ctx := some 0 }), (5, { ctx := some 0 }), (6, { ctx := some 9 })], now := 2000
                                      queues := [(3, { en := true, cand := some l, age := 1 })] }
    let x := s.queue 3
    s.posted = [] ∧ queueAt s 0 63 = some 63 ∧ queueAt s 0 64 = none ∧ queueAt s 5 63 = some 63 ∧ (s.func 6).ctx = some 9 ∧ (s.ctx 9).live = false ∧ (s.ctx 0).live = true ∧
      x.lsize = 2 ∧ ((4 : Word) - x.qhead).toNat ≤ 4 ∧ 4 < ((5 : Word) - x.qhead).toNat ∧ x.en = true ∧ (s.queue 63).en = false ∧
      x.cand.isSome = true ∧ x.age ≠ 0 ∧ x.since + 1000 * x.age * (x.aged + 1) ≤ s.now ∧ (s.queue 63).cand = none := by decide +kernel

/-- A plan record with one stage and some pipes at 0x32000, its base table at 0x22000. -/
def planRecord (pipes : Nat) : List (Nat × Nat) :=
  [(0x22000, 0x40), (0x22008, 0x20000), (0x22010, 0x23000), (0x22018, 0x24000), (0x32000, pipes * 2 ^ 8), (0x32020, 2 ^ 24 + 2 ^ 40), (0x32028, 2 ^ 32),
    (0x32068, 16 * 2 ^ 32), (0x32080, 2 ^ 40)]

/-- A queue with a packet at its head, in a context that no crew or plan uses. -/
def fronted (pipes p : Nat) : State :=
  { mapped {} with
    mem := writeBytes (words (planRecord pipes) tables) 0x50000 (leBytes 128 p), crews := [], plans := []
    queues := [(1, { en := true, qbase := 0x50000, qtail := 1, level := 5, lsize := 2 })] }

/-- The same, with no more in memory than page tables and the packet. -/
def headed (p : Nat) : State :=
  { fronted 0 0 with mem := writeBytes (words [(0x10000, 0x11001), (0x11000, 0x12001), (0x12000, 0x31)] []) 0x8000 (leBytes 128 p)
                     queues := [(1, { en := true, qbase := 0x8000, qtail := 1, level := 5, lsize := 2 })] }

/-- Packets: a launch of pool entry `e` from the object at `a` with status address `st`, a drain and an invalidation. -/
def launchPkt (e a st : Nat) : Nat := 1 + e * 2 ^ 332 + 77 * 2 ^ 352 + a * 2 ^ 384 + st * 2 ^ 448
def drainPkt (forced : Nat) : Nat := 2 + forced * 2 ^ 320 + 5 * 2 ^ 352 + 0x1000 * 2 ^ 448
def invalPkt (n a : Nat) : Nat := 3 + n * 2 ^ 320 + a * 2 ^ 384 + 0x1000 * 2 ^ 448

/-- The head of a queue is a packet. -/
def headIs (s : State) (q p : Nat) : Bool := match headOf s q with | .packet x => x == p | _ => false

theorem headIs_spec {s : State} {q p : Nat} (h : headIs s q p = true) : headOf s q = .packet p := by
  unfold headIs at h
  split at h
  · rename_i x hx; rw [hx, eq_of_beq h]
  · exact absurd h (by simp)

/-- R341 to R346: packets of every type. -/
theorem witness_packets :
    ∀ p ∈ [launchPkt 2 0x22000 0x1000, launchPkt 2 0x22000 0x1008, launchPkt 2 0x22008 0x1000, launchPkt 1 0x22000 0x1000, 9 + 0x1000 * 2 ^ 448, drainPkt 0, drainPkt 1,
      drainPkt 1 + 2 ^ 384, invalPkt 1 0, invalPkt 0 0], headOf (headed p) 1 = .packet p := by
  intro p hp
  have h : [launchPkt 2 0x22000 0x1000, launchPkt 2 0x22000 0x1008, launchPkt 2 0x22008 0x1000, launchPkt 1 0x22000 0x1000, 9 + 0x1000 * 2 ^ 448, drainPkt 0, drainPkt 1,
      drainPkt 1 + 2 ^ 384, invalPkt 1 0, invalPkt 0 0].all (fun p => headIs (headed p) 1 p) = true := by decide +kernel
  exact headIs_spec (List.all_eq_true.mp h p hp)

/-- The plan that the record at 0x32000 describes, and the candidate of its launch. -/
def goodLaunch (pipes : Nat) : Launch := launchOf (fronted pipes 0) 1 (launchPkt 2 0x22000 0x1000) 5 0x32000 false

/-- R304, R343 to R347: a packet whose unused fields are zero and one whose are not; a pool entry that is a plan and one that is not; a record that reads, with and
without a pipe, and one that does not; drains of a plan with their tag; invalidations with and without an access in the way. -/
theorem witness_packet_events :
    let s := fronted 0 (launchPkt 2 0x22000 0x1000)
    let bad := { fronted 0 0 with mem := tables }
    let acc : ThreadAcc := { t := 0, va := 5, pa := 5, stream := false, own := [none] }
    let v : Inval := { ctx := 0, va := 0, len := 524288, queue := some 1, stat := 0x1000, tag := 0 }
    (field (launchPkt 2 0x22000 0x1000) 448 64 % 32 = 0 ∧ field (launchPkt 2 0x22000 0x1008) 448 64 % 32 ≠ 0 ∧ field (launchPkt 2 0x22000 0x1000) 704 320 = 0 ∧
      field (launchPkt 2 0x22000 0x1000) 8 296 = 0 ∧ field (launchPkt 2 0x22000 0x1000) 320 12 = 0 ∧ field (launchPkt 2 0x22000 0x1000) 384 64 % 64 = 0 ∧
      (∀ k ∈ [0, 1, 2, 3], field (launchPkt 2 0x22000 0x1000) (512 + 48 * k + 40) 7 = 0 ∧ field (launchPkt 2 0x22000 0x1000) (512 + 48 * k + 16) 16 = 0) ∧
      field (launchPkt 2 0x22008 0x1000) 384 64 % 64 ≠ 0) ∧
    (((s.ctx 0).objects.find? fun o => o.1 == 0x22000) = some (0x22000, 5, false) ∧ (planEntry s 0 0x22000 5 2).toOption = some 0x32000 ∧
      (planEntry s 0 0x22000 5 1).toOption = none ∧ (readPlan bad (goodLaunch 0) 5).toOption = none) ∧
    (field (drainPkt 0) 320 1 = 0 ∧ field (drainPkt 1) 320 1 = 1 ∧ field (drainPkt 1) 321 31 = 0 ∧ field (drainPkt 1) 704 320 = 0 ∧ field (drainPkt 1) 8 312 = 0 ∧
      field (drainPkt 1) 512 192 = 0 ∧ field (drainPkt 1) 384 64 = 0 ∧ field (drainPkt 1 + 2 ^ 384) 384 64 ≠ 0 ∧ onePlan.tag = BitVec.ofNat 32 (field (drainPkt 1) 352 32) ∧
      (∀ e ∈ s.ctxs, e.2.images = []) ∧ ({} : Context).images = [] ∧ onePlan.ctx = (s.queue 1).ctx ∧ onePipe.link = false ∧
      (∀ o ∈ [{ onePipe with cons := 1 }, linkedPipe], o.cons = onePipe.prod → o.link = true ∧ o.lside = false)) ∧
    (field (invalPkt 1 0) 320 32 ≠ 0 ∧ field (invalPkt 1 0) 384 64 % 524288 = 0 ∧ field (invalPkt 1 0) 8 312 = 0 ∧ field (invalPkt 1 0) 704 320 = 0 ∧
      field (invalPkt 1 0) 512 192 = 0 ∧ field (invalPkt 1 0) 352 32 = 0 ∧ field (invalPkt 0 0) 320 32 = 0) ∧
    (staleAccess (mapped {}) v = false ∧ staleAccess (withMe (mapped {}) fun g => { g with loads := [pendingLoad 1 4 false (.global [acc] false)] }) v = true) := by
  decide +kernel

theorem witness_readable_plan : (readPlan (fronted 0 (launchPkt 2 0x22000 0x1000)) (goodLaunch 0) 5).toOption.isSome = true := by decide +kernel

theorem witness_unreadable : headOf { fronted 0 0 with ctxs := [] } 1 = .unreadable := by
  have h : (match headOf { fronted 0 0 with ctxs := [] } 1 with | .unreadable => true | _ => false) = true := by decide +kernel
  generalize headOf { fronted 0 0 with ctxs := [] } 1 = x at h ⊢
  cases x <;> simp_all

/-- A candidate at the head of its queue: for a free core, or one that a plan of a lower priority uses, in a context with a save pool. -/
def chosenOne (pipes : Nat) (r : Tab Crew) : State :=
  let s := fronted pipes 0
  { s with queues := [(1, { s.queue 1 with cand := some (goodLaunch pipes) })], crews := r, plans := if r.isEmpty then [] else [(0, onePlan)]
           ctxs := [(0, { oneCtx with ccb := ⟨0, 4, 0x20000000, 64, 1000, 200, 0, false, false, false⟩ })] }

def onePlace : PipePlace := ⟨0x100000, 0, 0x200000, 0⟩

/-- The candidate of queue 1. -/
def oneCand (pipes : Nat) : Cand := { id := 1, pri := 5, eff := 5, since := 0, parent := none, launch := goodLaunch pipes }

/-- R305, R314, R348 to R350: no candidate, one candidate that may be dispatched, with places for its pipes and without; and one that pre-empts the core's crew. -/
theorem witness_launch_selection :
    let s := chosenOne 1 [(0, oneCrew)]
    ((∀ e ∈ (chosenOne 1 []).plans, e.2.move = none) ∧ (∀ e ∈ (chosenOne 1 []).cores, e.2.launches = []) ∧ (∀ e ∈ s.plans, e.2.move = none) ∧
      (∀ e ∈ s.cores, e.2.launches = []) ∧ (candidatesOf (mapped {})).isEmpty = true) ∧
    mayDispatchTo (chosenOne 1 []) (oneCand 1) = true ∧
    ((oneCand 1).cores = [0] ∧ mayDispatchTo s (oneCand 1) = false ∧ mayPreempt s (oneCand 1) 0 = true ∧ (s.core 0).save = none ∧ (s.core 0).heldFor = none ∧
      (poolPlace (s.ctx (s.core 0).ctx) (fullSize s 0)).isSome = true) := by
  decide +kernel

theorem witness_one_candidate : candidatesOf (chosenOne 1 []) = [oneCand 1] ∧ candidatesOf (chosenOne 1 [(0, oneCrew)]) = [oneCand 1] := ⟨rfl, rfl⟩

/-- What a selection asks of the plan it reads: its pipes have places or none, its stages do not meet and stand in the mesh, its first crew is on core 0. -/
def selects (s : State) (p : Plan) : Bool :=
  (placePipes 0 p.pipes [] s).isNone && (placePipes 0 p.pipes [onePlace] s).isSome &&
    decide (p.stages.Pairwise (fun a b => a.meets b = false)) && decide (∀ st ∈ p.stages, st.x + st.w ≤ 16) && (placedCrews p)[0]? == some (0, 0, 0)

theorem witness_selected_plan : ((readPlan (chosenOne 1 []) (goodLaunch 1) 5).toOption.map (selects (chosenOne 1 []))) = some true := by decide +kernel

/-- A core under a save whose image is number 6, and whose group has this status. -/
def saving (st : Status) (now : Nat) (full : Bool) : State :=
  let im : Image := { id := 6, va := 0x20000000, room := 0x400000, plan := 0, stage := 0, core := 0 }
  let s := withMe (mapped {}) fun g => { g with status := st }
  { s with now := now, ctxs := [(0, { oneCtx with images := [im] })]
           cores := [(0, { tlb := [page], plan := some 0, save := some { since := 0, full := full, move := false, limit := 200000, image := 6 } })] }

/-- The image of a saved crew, its group's record at 0x20001000. -/
def stored : State :=
  let im : Image := { id := 6, va := 0x20000000, room := 0x400000, plan := 0, stage := 0, core := 0, crews := [0], groups := [1], done := true }
  let s := withMe (mapped {}) fun g => { g with status := .saved, image := some 0x20001000 }
  { s with mem := words [(0x20001000, 0x40), (0x20001008, 0xFFFFFFFF), (0x200010D0, 5), (0x20001340, 9)] tables
           ctxs := [(0, { oneCtx with images := [im] })], crews := [(0, { oneCrew with saved := true })], cores := [(0, { tlb := [page] })] }

/-- R349, R415, R416, R420: a deadline passed and one to come; a save that is ready and one that is not; an image with a core to go to, and not to another. -/
theorem witness_save_and_restore :
    (((saving .issuing 200000 false).core 0).save = some { since := 0, full := false, move := false, limit := 200000, image := 6 } ∧
      0 + 200000 ≤ (saving .issuing 200000 false).now ∧ atRest (saving .issuing 200000 false) 0 = false ∧ (saving .issuing 199999 false).now < 0 + 200000 ∧
      stoppable ((saving .waiting 200000 false).grp 1) = true ∧ 1 ∈ coreGroups (saving .waiting 200000 false) 0 ∧
      ((saving .waiting 200000 false).grp 1).entry = .header ∧ (∀ e ∈ (saving .issuing 200000 false).groups, e.2.opn = none ∧ e.2.clo = none)) ∧
    (let s := { waiting with cores := [(0, { tlb := [page], plan := some 0, icache := [0], save := some { since := 0, full := false, move := false, limit := 5, image := 6 } })], now := 9 }
     stoppable (s.grp 1) = true ∧ (s.grp 1).status = .waiting ∧ (s.grp 1).entry = .header ∧ 1 ∈ coreGroups s 0 ∧ atRest s 0 = false ∧
      (match locate s (s.grp 1) with | .ok (c, true) => c.first == 0x48 | _ => false) = true) ∧
    (saveReady (saving .issuing 5 false) 0 = false ∧ saveReady (saving (.suspended (.parked 0x30000)) 5 false) 0 = true ∧
      saveReady (saving (.suspended .stopped) 5 true) 0 = true ∧ (∀ e ∈ (saving (.suspended .stopped) 5 true).groups, e.2.opn = none ∧ e.2.clo = none) ∧
      (((saving .issuing 5 false).ctx 0).images.find? fun m => m.id == 6).isSome = true ∧ onePlan.forced = false ∧ oneCrew.waitName = false) ∧
    ((((allImages stored).find? fun e => e.2.id == 6).map fun e => (e.1, e.2.plan)) = some (0, 0) ∧ findT stored.plans 0 = some onePlan ∧
      (∀ e ∈ allImages stored, e.2.into = none ∧ restoresTo stored e.2 0 = true ∧ restoresTo stored e.2 1 = false ∧ e.2.groups.Nodup) ∧ (stored.core (partner 0)).mat.queue = [] ∧
      onePlan.move = none ∧ (stored.grp 1).image = some 0x20001000) ∧
    (let s := { stored with ctxs := stored.ctxs.map fun e => (e.1, { e.2 with images := e.2.images.map fun im => { im with into := some 0 } }) }
     (∀ e ∈ allImages s, e.2.into = some 0 ∧ e.2.id = 6 ∧ e.2.groups.Nodup) ∧ (∀ e ∈ s.plans, e.2.move = none) ∧ (∀ e ∈ s.ctxs, e.2.teardown = false) ∧
      (({ } : Context).teardown = false) ∧ (s.grp 1).image.isSome = true) := by
  decide +kernel

/-! ### Witnesses: events of deliveries and names, recipes -/

/-- The name of Den entry 3, in generation `gen`, of package `p`; a delivery of one word to `v70` under it, at a stage. -/
def nameOf (p gen : Nat) : Word64 := BitVec.ofNat 64 (2 ^ 56 * p + 2 ^ 32 * 3 + gen)
def post (n : Word64) (st : DlvStage) : Delivery := { name := n, vt := 70, tag := .u, words := [0xABC], sender := 1, spkg := 0, sctx := 0, back := 9, stage := st }

/-- A Den whose entry 3 is in a state, its group resident or saved, with these deliveries on their way; the sender is the running group. -/
def postal (st : DenState) (l : Tab Delivery) : State :=
  let r : Group := { live := true, status := if st = .saved then .saved else .waiting, place := { (named []).me.place with lane := 3, name := nameOf 0 7 } }
  let s := withMe (named []) fun g => { g with dlv := 2 }
  { s with den := [(3, { gen := 7, state := st, grp := 5, fwd := 1 })], groups := s.groups ++ [(5, r)], dlvs := l, now := 1000 }

/-- R360, R361, R391 to R395: a delivery whose name is stale, whose shape does not fit, whose receiver moves, is resident or saved; forwarded ones to a name that still
stands and to one that does not; ones sent back, lately and long ago, to this package and another; ones answered, here and elsewhere. -/
theorem witness_delivery_events :
    let fresh := post (nameOf 0 7) .toDen
    let misfit := { fresh with tag := .g }
    (∀ st ∈ [DenState.resident, .moving, .saved], ∀ d ∈ [post (nameOf 0 8) .toDen, misfit, fresh],
      let s := postal st [(1, { fresh with name := nameOf 0 9 }), (4, d)]
      findT s.dlvs 4 = some d ∧ d.stage = .toDen ∧ (∀ o ∈ s.dlvs, o.2.stage = .toDen → o.1 < 4 → ¬ (o.2.name = d.name ∧ o.2.sender * 256 + o.2.spkg = d.sender * 256 + d.spkg)) ∧
        s.refused = [] ∧ (s.grp 5).image = none ∧ d.words.length ≤ 32 ∧ d.spkg = s.pkg.pkg) ∧
    (staleName (postal .resident []) (nameOf 0 8) = true ∧ staleName (postal .resident []) (nameOf 0 7) = false ∧
      tagOf ((postal .resident []).grp 5).place.shape 70 = .u ∧ ((postal .moving []).denEntry 3).state = .moving ∧ nameIndex (nameOf 0 7) = 3) ∧
    (∀ d ∈ [post (nameOf 0 7) (.forwarded 2), post (nameOf 0 8) (.forwarded 2)],
      ∀ o ∈ (postal .resident [(4, d), (6, { d with stage := .forwarded 3 })]).dlvs, ∀ m ∈ [2, 3], o.2.name = d.name → o.2.stage = .forwarded m → 2 ≤ m) ∧
    (((postal .resident []).denEntry 3).gen = nameGen (nameOf 0 7) ∧ ((postal .resident []).denEntry 3).gen ≠ nameGen (nameOf 0 8)) ∧
    (let s := postal .moving [(4, post (nameOf 0 7) (.refused 500)), (6, post (nameOf 0 7) (.refused 501)), (7, post (nameOf 1 7) (.refused 500))]
     (∀ k ∈ [4, 7], ∀ o ∈ s.dlvs, o.1 < k → sameLink o.2 (post (nameOf (k / 7) 7) (.refused 500)) = true → False) ∧ ¬ s.now < 500 + 500 ∧ s.now < 501 + 500 ∧
       namePkg (nameOf 0 7) = s.pkg.pkg ∧ namePkg (nameOf 1 7) ≠ s.pkg.pkg) ∧
    (let s := postal .resident [(4, post (nameOf 0 7) (.answered 0)), (5, post (nameOf 0 7) (.answered 1)), (6, { post (nameOf 0 7) (.answered 2) with spkg := 1 })]
     (s.grp 1).image = none ∧ (s.grp 1).dlv = 2 ∧ (post (nameOf 0 7) (.answered 0)).spkg = s.pkg.pkg) := by
  decide +kernel

/-- R389, R394: a full count of forwarded deliveries; a state in which a delivery disturbs no chunk. -/
theorem witness_full_entry :
    (let s := { postal .resident [] with den := [(3, { gen := 7, state := .resident, grp := 5, fwd := 255 })] }
     (s.denEntry 3).state = .resident ∧ 255 ≤ (s.denEntry 3).fwd ∧ s.refused = []) ∧
    (((postal .resident []).grp 5).regs.stored = 0 ∧ (((postal .resident []).setGrp 5 { (postal .resident []).grp 5 with regs := { stored := 3 } }).grp 5).regs.stored ≠ 0) ∧
    (postal .saved []).watches = [] ∧ (∀ e ∈ (postal .saved []).groups, e.2.opn = none ∧ e.2.clo = none) := by decide +kernel

/-- A Den entry that ends, watched by register 9 of the running group. -/
def ending (dlv : Nat) : State :=
  let c : Context := { oneCtx with ccb := ⟨0, 4, 0, 0, 200, 200, 0, false, false, false⟩ }
  let s := withMe (named []) fun g => { g with holds := [(9, { held := true, watched := true, since := 5 }), (10, { held := true, since := 5, limit := 200000 })], watch := [(9, 2)] }
  { s with den := [(3, { gen := 7, state := .resident, grp := 5, ending := some 1, watchers := [{ pkg := 0, grp := 1, reg := 9 }] })]
           groups := s.groups ++ [(5, { live := true, status := .ended, dlv := dlv })], now := 200005, ctxs := [(0, c)] }

/-- R388, R399, R400: a name whose group has deliveries out, or none; holds of a context with a watchdog, watched and not. -/
theorem witness_releases_and_watchdog :
    (∀ n ∈ [0, 2], findT (ending n).den 3 = some ((ending n).denEntry 3) ∧ ((ending n).denEntry 3).ending = some 1 ∧ ((ending n).grp 5).dlv = n ∧
      (∀ w ∈ ((ending n).denEntry 3).watchers, watcherMoving (ending n) w = false ∧ w.pkg = (ending n).pkg.pkg ∧ ((ending n).grp w.grp).image = none) ∧
      (ending n).groups.Pairwise (fun a b => a.1 < b.1) ∧ ∀ e ∈ (ending n).groups, e.2.image = none ∧ ∀ h ∈ e.2.holds, h.1 < 128) ∧
    (let s := ending 0
     s.me.live = true ∧ (s.me.holdOf 10).limit ≠ 0 ∧ (s.me.holdOf 10).held = true ∧ (s.me.holdOf 10).watched = false ∧
      (s.me.holdOf 10).since + (s.me.holdOf 10).limit ≤ s.now ∧ (s.grp 5).holds = []) ∧
    (let s := ending 0
     let s := { s with den := s.den ++ [(4, { gen := 1, state := .moving, grp := 1 })] }
     let w : Watcher := { pkg := 0, grp := 1, reg := 9 }
     watcherMoving (withMe s fun g => { g with place := { g.place with name := 2 ^ 34 + 1 } }) w = true) := by
  decide +kernel

/-- A slice at 0x40000: shape map of uniform registers and an entry after its header, at which a clause starts. -/
def sliced (st : TileState) (wants : List (Nat × Nat)) (again : Bool) : State :=
  let r : Recipe := { tgt := drops, src := [source], slice := 0x40000, arg := 77, state := st, wants := wants, again := again }
  { tiled [] [(9, r)] with mem := words [(0x40020, 0x40), (0x40040, 31 * 2 ^ 59)] tables }

/-- The same, with the slice's group at level 0 of core 0. -/
def slicing (status : Status) (fault : Option Flt) (st : TileState) (again : Bool) : State :=
  let s := sliced st [] again
  let l := pendingLoad 3 4 false (.global [{ t := 0, va := 0x80000000, pa := 0x80000000, stream := false, own := [none] }] false)
  let g : Group := { live := true, status := status, pend := fault, place := { lane := 252, slot := 65536, slice := some ⟨9, 0, 0x80000000, 4096, 0, 0⟩ } }
  let s := withMe s fun g => { g with loads := [{ l with chunk := 1 }], opn := some { no := 1, start := 8, ckpt := g.regs } }
  { s with groups := s.groups ++ [(2, g)], serial := 3 }

/-- R425, R426, R429, R432 to R435: a tile that waits for its slice, with a good header and a bad one, and one that does not wait; a slice that has ended with and
without a fault, once and to be run again. -/
theorem witness_recomputation :
    let good := sliced .dropped [(0, 0), (1, 1)] false
    let bad := { good with mem := writeBytes good.mem 0x40047 [0] }
    let f : Flt := { cls := 5, cause := 1, info := 0, addr := 0, fmask := 0, thr := 0, pc := 0x40048, ret := 0x40048 }
    ((sliceOn good 0 0).isNone = true ∧ (sliceHeader good 0 0x40000).toOption = some (0, 0x40040) ∧ (sliceHeader bad 0 0x40000).toOption = none) ∧
    (∀ s ∈ [good, bad], ∃ e ∈ (s.ctx 0).recipes, e.1 = 9 ∧ e.2.state = .dropped ∧ (0, 0) ∈ e.2.wants ∧ (0, 1) ∉ e.2.wants ∧ e.2.src.length ≤ 4) ∧
    (∀ s ∈ [slicing .ended none .recomputing false, slicing .ended none .recomputing true, slicing .ended (some f) .recomputing false, slicing .ended none .unsealed false,
        slicing .ended (some f) .unsealed false], (sliceOn s 0 0).map Prod.fst = some 2 ∧ 2 < s.serial ∧
      (s.grp 2).status = .ended ∧ (findT (s.ctx 0).recipes 9).isSome = true ∧ (s.ctx 0).quota = 0 ∧ vaLines s 0 0x80000000 4096 ≠ []) ∧
    (∀ st ∈ [TileState.recomputing, .unsealed], ((slicing .ended none st false).grp 2).pend = none ∧ ((slicing .ended (some f) st false).grp 2).pend = some f ∧
      (∀ e ∈ ((slicing .ended none st false).ctx 0).recipes, e.2.state = st ∧ e.2.again = false) ∧ ∀ e ∈ ((slicing .ended none st true).ctx 0).recipes, e.2.again = true) ∧
    tileChunks (slicing .ended (some f) .recomputing false) 0 drops = [(1, 1)] := by
  decide +kernel

/-! ### Witnesses: events of the fabric, of the host port and of the package -/

/-- A pod of four packages in a square, of which this is number 0, with its two links up. -/
def pod : State :=
  { mapped {} with pkg := { (mapped {}).pkg with rows := 2 }, ports := [(0, { up := true }), (15, { up := true })] }

/-- A packet of package 1 for this one. -/
def pack (k : Nat) (b : Body) : Packet := { hdrErr := 0, kind := k, src := 1, dst := 0, tenant := 4, ctx := 0, vc := 0, seq := 0, blen := 2, body := b }

/-- R463, R465 to R468, R472: headers with one and two bits in error; a reserved kind; a packet for another package; one seen before; tenants that are not bound. -/
theorem witness_fabric_packets :
    let p := pack 2 (.rst 0x1000 [1, 2, 3, 4] 1 0x40 1)
    let seen := { pod with sources := [(1, { low := 1 })] }
    ((pod.port 0).up = true ∧ inPod pod p.src = true ∧ inPod pod p.dst = true ∧ badKind { p with kind := 7 } = true ∧ badKind p = false ∧ bodyKind p.body = p.kind ∧
      p.kind ≠ 6 ∧ p.dst = pod.pkg.pkg) ∧
    (inPod pod 16 = true ∧ 16 ≠ pod.pkg.pkg ∧ hopOpen pod (nextHop pod { p with dst := 16 }) = true ∧
      pod.transit = [] ∧ hopOpen { pod with ports := [(0, { up := true })] } (nextHop pod { p with dst := 16 }) = false ∧
      (let s := { pod with transit := [(none, { p with dst := 16, seq := 9 })] }
       ∃ e ∈ s.transit, nextHop s e.2 = nextHop s { p with dst := 16 })) ∧
    ((seen.source 1).applied 0 = true ∧ (pod.source 1).applied 0 = false ∧ (0 - (pod.source 1).low).toNat ≤ 64) ∧
    (let first := pack 2 (.rst 0x1002 [1, 2] 1 0x40 1)
     let queue := { pod with parked := [first] }
     let second := { p with seq := 1 }
     mustWait queue second = true ∧ mustWait pod second = true ∧ (∀ q ∈ queue.parked, ¬ (q.src = second.src ∧ q.seq = second.seq)) ∧
      (queue.source 1).applied 1 = false ∧ (1 - (queue.source 1).low).toNat ≤ 64) ∧
    (mustWait pod p = false ∧ (pod.ctx 9).live = false ∧ (pod.ctx 0).live = true ∧ (pod.ctx 0).tenant ≠ some 5) := by decide +kernel

/-- The conditions of `Arrives`, as one truth value. -/
def arrives (s : State) (port : Nat) (p : Packet) : Bool := decide
  ((port < 30 ∧ (s.port port).up = true) ∧ (inPod s p.src = true ∧ inPod s p.dst = true) ∧ (p.hdrErr = 0 ∧ badKind p = false ∧ bodyKind p.body = p.kind) ∧
    p.dst = s.pkg.pkg ∧ ((s.source p.src).applied (BitVec.ofNat 32 p.seq) = false ∧ (BitVec.ofNat 32 p.seq - (s.source p.src).low).toNat ≤ 64) ∧
    ((s.ctx p.ctx).live = true ∧ (s.ctx p.ctx).tenant = some p.tenant) ∧ mustWait s p = false)

theorem arrives_spec {s : State} {port : Nat} {p : Packet} (h : arrives s port p = true) : Arrives s port p := by
  obtain ⟨a, b, c, d, e, f, g⟩ := of_decide_eq_true h
  exact ⟨a, b, c, d, e, f, g⟩

/-- R365, R466 to R468: packets that arrive, of each kind that has an effect of its own here, to a page that may be read and written. -/
theorem witness_packets_arrive :
    (∀ p ∈ [pack 1 (.rld 1 3 0 0x1000 4), pack 2 (.rst 0x1000 [1, 2, 3, 4] 1 0x40 1), pack 4 (.rred 0x1000 .addU32 5 0 1 0x40 1), pack 4 (.rred 0x1000 .addBf16x2 5 0 1 0x40 1),
        pack 3 (.ratom 1 3 0 0x1000 .addU32 5 0 0 0x40), pack 8 (.regput (nameOf 0 7) 70 0 [5] 1 9)], Arrives pod 0 p) ∧
      RemotePage pod 0 0x1000 false page ∧ RemotePage pod 0 0x1000 true page ∧ pod.badSec = [] ∧ pod.flights = [] ∧ pod.reds = [] ∧ pod.parked = [] ∧
      ∀ e ∈ pod.groups, e.2.opn = none ∧ e.2.clo = none := by
  have h : [pack 1 (.rld 1 3 0 0x1000 4), pack 2 (.rst 0x1000 [1, 2, 3, 4] 1 0x40 1), pack 4 (.rred 0x1000 .addU32 5 0 1 0x40 1), pack 4 (.rred 0x1000 .addBf16x2 5 0 1 0x40 1),
      pack 3 (.ratom 1 3 0 0x1000 .addU32 5 0 0 0x40), pack 8 (.regput (nameOf 0 7) 70 0 [5] 1 9)].all (arrives pod 0) = true := by decide +kernel
  have w : (walk pod 0 0x1000) = .ok page := by
    have : (walk pod 0 0x1000).toOption = some page := by decide +kernel
    generalize walk pod 0 0x1000 = x at this ⊢
    cases x <;> simp_all [Except.toOption]
  have q : tileAt pod 0 0x1000 = none ∧ page.write = true ∧ pod.badSec = [] ∧ pod.flights = [] ∧ pod.reds = [] ∧ pod.parked = [] ∧
      ∀ e ∈ pod.groups, e.2.opn = none ∧ e.2.clo = none := by
    decide +kernel
  refine ⟨fun p hp => ?_, ⟨w, fun _ => q.2.1, q.1⟩, ⟨w, fun _ => q.2.1, q.1⟩, q.2.2⟩
  exact arrives_spec (List.all_eq_true.mp h p hp)

/-- R191, R365: a packed reduction of package 1 both of whose halves have taken effect. -/
theorem witness_packed_reduction_arrives :
    let s := { pod with reds := [(1, 0)] }
    Arrives s 0 (pack 4 (.rred 0x1000 .addBf16x2 5 0 1 0x40 1)) ∧ (1, 0) ∈ s.reds ∧ s.flights = [] := by
  exact ⟨arrives_spec (by decide +kernel), by decide +kernel, by decide +kernel⟩

/-- A packet sent to package 1 and not acknowledged, at a time after the send. -/
def unacked (n kind now : Nat) (b : Body) : State :=
  let s := withMe pod fun g => { g with rem := 1 }
  { s with now := now, targets := [(1, { next := 1, made := 1, copies := [{ id := 0, pkt := { pack kind b with src := 0, dst := 1 }, resends := n, waiting := false, numbered := true, taken := true }] })] }

/-- R462 to R465, R471, R472: a copy whose timer runs, has run out, has run out for the last time; an answer's copy; one that no one keeps; links up, down and dry. -/
theorem witness_fabric_senders :
    let rst : Body := .rst 0x1000 [1, 2, 3, 4] 1 0x40 1
    let down := { pod with ports := [(0, { up := false }), (15, { up := true })], pkg := { pod.pkg with cols := 3 } }
    let via := { down with ports := [(0, { up := false }), (1, { up := true })] }
    let back := { via with ports := [(0, { up := true }), (1, { up := true })], targets := [(1, { detour := some 2 })] }
    let dry := { via with ports := [(0, { up := true, buf0 := 0, dry0 := 0 }), (1, { up := true })], now := 50000 }
    let far := { unacked 0 2 5 rst with ports := via.ports, pkg := via.pkg }
    (∀ s ∈ [unacked 0 2 19999 rst, unacked 0 2 20000 rst, unacked 7 2 20000 rst, unacked 8 2 20000 rst, unacked 9 16 20000 (.linkReq 9 0 1 0)],
      ∃ c ∈ (s.target 1).copies, sentCopy s 1 0 = some c ∧ c.sent = 0) ∧
    ((unacked 8 2 20000 rst).me.live = true ∧ (unacked 8 2 20000 rst).me.status ≠ .ended ∧ ((unacked 8 2 20000 rst).ctx 0).late = [] ∧ 1 ≠ pod.pkg.pkg ∧
      accessOf rst = some 1 ∧ accessOf (.linkReq 9 0 1 0) = none ∧ sentCopy pod 1 0 = none ∧ inPod pod 1 = true) ∧
    (detourColumn down 1 = none ∧ wantsDetour down 1 = true ∧ wantsDetour via 1 = true ∧ detourColumn via 1 = some 2 ∧ (via.target 1).detour = none ∧
      wantsDetour dry 1 = true ∧ (detourColumn dry 1).isSome = true ∧ wantsDetour back 1 = false ∧ (back.target 1).detour ≠ none ∧
      wantsDetour pod 1 = false ∧ (pod.target 1).detour = none ∧ detourColumn { back with ports := via.ports } 1 = (back.target 1).detour) ∧
    (wantsDetour far 1 = true ∧ detourColumn far 1 = some 2 ∧ ((far.target 1).copies.map Copy.id).Nodup ∧
      (∀ x ∈ (far.target 1).copies, x.numbered = true ∧ x.waiting = false ∧ x.taken = true) ∧ (far.port (portBetween 0 (colOf 0) 2)).up = true ∧
      (far.target 1).copies.length ≤ (far.port (portBetween 0 (colOf 0) 2)).buf2) ∧
    (0 < 15 ∧ 0 + 1 < pod.pkg.cols) ∧ (15 ≤ 15 ∧ 15 < 30 ∧ 15 - 14 < pod.pkg.rows) := by decide +kernel

/-- R14, R474, R476: window accesses to pages that may be written, may not, are not there; a tile that refuses; a function without a context. -/
theorem witness_host_window :
    let s := { mapped {} with funcs := [(0, { ctx := some 0, wbase := 0x1000 }), (1, { ctx := some 0, wbase := 0x40000000 }), (2, { ctx := some 0, wbase := 0xC0000000 })] }
    let bs : List Byte := List.replicate 32 7
    (∀ fn ∈ [0, 1, 2], (s.func fn).ctx = some 0 ∧ (s.ctx 0).live = true ∧ bs ≠ [] ∧ bs.length ≤ 32 - ((s.func fn).wbase.toNat + 0) % 2 ^ 64 % 32 ∧ 0 + bs.length ≤ 2 ^ 36) ∧
    ((walk s 0 0x1000).toOption = some page ∧ page.write = true ∧ (tileState s 0 0x1000).refusesWrites = false ∧ recipeAt (s.ctx 0) 0x1000 = none ∧ s.badSec = []) ∧
    ((walk s 0 0x40000000).toOption = some streamPage ∧ streamPage.write = false) ∧ ((walk s 0 0xC0000000).toOption = none) ∧ (s.func 5).ctx = none ∧
    (let t := tiled [] [(9, { tgt := drops, state := .sealed })]
     (tileState t 0 0x80000000).refusesWrites = true) ∧
    (let t := { tiled [] [(9, { tgt := drops, state := .dropped })] with funcs := [(0, { ctx := some 0, wbase := 0x80000000 })] }
     (walk t 0 0x80000000).toOption.isSome = true ∧ tileAt t 0 0x80000000 = some (0, 9, { tgt := drops, state := .dropped }) ∧ t.serial = 2 ∧
      TileUser.window 2 ∉ ({ tgt := drops, state := .dropped } : Recipe).users) ∧
    windowHeld { reserved with funcs := s.funcs } 0 (0x1000, bs) = true ∧ s.posted = [] ∧ s.reads = [] ∧ queueAt s 0 0 = some 0 ∧ queueAt s 5 0 = none ∧
    s.flights = [] ∧ (∀ e ∈ s.groups, e.2.opn = none ∧ e.2.clo = none) := by decide +kernel

/-- Functions 0 and 1 with a command posted; contexts 0 (of function 1) and 5 live. -/
def posting (code arg : Nat) : State :=
  let f : Func := { mcmd := BitVec.ofNat 512 (code + 2 ^ 16 * arg), busy := false }
  { mapped {} with funcs := [(0, f), (1, { f with ctx := some 0 }), (2, { f with ctx := some 5 })], ctxs := [(0, { oneCtx with fn := 1 }), (5, { live := true, fn := 2 })] }

/-- The conditions of `Posted`, and of `CounterAsked` beside it, as truth values. -/
def posted (s : State) (fn code : Nat) : Bool :=
  decide (fn < 64 ∧ (s.func fn).busy = false ∧ (s.func fn).mcmd.toNat % 2 ^ 16 = code ∧ s.pkg.meas = true)

def counterAsked (m cls sum unit ctr ctx : Nat) : Bool :=
  decide (m / 2 ^ 72 = 0 ∧ field m 64 8 = ctx ∧ field m 48 16 = ctr ∧ field m 32 16 = unit ∧ field m 25 7 = 0 ∧ field m 24 1 = sum ∧ field m 16 8 = cls)

theorem posted_spec {s : State} {fn code : Nat} (h : posted s fn code = true) : Posted s fn code := by
  simp only [posted, decide_eq_true_eq] at h; exact h

theorem counterAsked_spec {m cls sum unit ctr ctx : Nat} (h : counterAsked m cls sum unit ctr ctx = true) : CounterAsked m cls sum unit ctr ctx := by
  simp only [counterAsked, decide_eq_true_eq] at h; exact h

/-- R362, R405, R423, R478, R479, R482: the commands on contexts given by function 0, by the context's own and by another function; with names that fit and that do not;
in the deployed state and in another; and a function that is busy. -/
theorem witness_context_commands :
    let fits := posting 1 (9 + 2 ^ 8 * 9)
    (∀ c ∈ [1, 3, 4, 5, 6, 0, 9], ∀ fn ∈ [0, 1, 2], posted (posting c 0) fn c = true) ∧
    (posted fits 0 1 = true ∧ field (fits.func 0).mcmd.toNat 16 8 = 9 ∧ field (fits.func 0).mcmd.toNat 24 8 = 9 ∧ fits.pkg.life = .deployed ∧ fits.pkg.pending = none ∧
      (fits.ctx 9).live = false ∧ (fits.func 9).ctx = none ∧ field ((posting 1 (9 + 2 ^ 8 * 7)).func 0).mcmd.toNat 24 8 = 7) ∧
    ((fits.ctx 5).live = true ∧ field ((posting 1 5).func 0).mcmd.toNat 16 8 = 5 ∧ 63 < field ((posting 1 64).func 0).mcmd.toNat 16 8 ∧
      63 < field ((posting 1 (9 + 2 ^ 8 * 64)).func 0).mcmd.toNat 24 8 ∧ field ((posting 1 (9 + 2 ^ 8)).func 0).mcmd.toNat 24 8 = 1 ∧ (fits.func 1).ctx ≠ none) ∧
    ((fits.func 1).ctx = some 0 ∧ field ((posting 1 0).func 1).mcmd.toNat 16 8 = 0 ∧ (fits.func 2).ctx ≠ some 0 ∧ (fits.ctx 0).live = true ∧ (fits.ctx 8).live = false) ∧
    (inPod fits 1 = true ∧ inPod fits 2 = false ∧ ({ fits.pkg with pending := some .returned } : Pkg).pending ≠ none ∧ ({ fits.pkg with life := .returned } : Pkg).life ≠ .deployed ∧
      ∀ w ∈ [((15, ⟨0x10000, 2 ^ 32, true, true⟩) : Nat × Window)], w.1 ≤ 15 ∧ w.2.len ≤ 2 ^ 32) ∧
    ((mapped {}).func 3).busy = true := by decide +kernel

/-- The parts of a request for a counter: class, sum, unit, counter and context. -/
def counterArg (cls sum unit ctr ctx : Nat) : Nat := cls + 2 ^ 8 * sum + 2 ^ 16 * unit + 2 ^ 32 * ctr + 2 ^ 48 * ctx

/-- R479, R493: requests of every class at the edges of their ranges, and beyond them. -/
theorem witness_counter_reads :
    (∀ q ∈ [(0, 0, 255, 0x206, 0), (0, 0, 0, 0x200, 63), (0, 1, 0, 0x206, 0), (1, 0, 29, 4, 0), (2, 0, 0, 6, 0), (2, 0, 0, 4, 0), (2, 0, 0, 0x104, 0), (2, 0, 0, 0x107, 0),
        (2, 0, 0, 0x100, 0), (2, 0, 0, 0x111, 0), (3, 0, 4, 0, 0), (4, 0, 63, 1, 0), (5, 0, 63, 0, 0), (6, 0, 63, 0, 0), (7, 0, 0, 0, 0), (1, 1, 0, 0, 0), (0, 0, 0, 0x207, 0),
        (0, 0, 0, 0, 64), (0, 0, 256, 0, 0), (1, 0, 0, 5, 0), (1, 0, 30, 0, 0), (2, 0, 1, 0, 0), (2, 0, 0, 7, 0), (2, 0, 0, 0x112, 0), (3, 0, 0, 1, 0), (4, 0, 0, 2, 0),
        (4, 0, 64, 0, 0), (5, 0, 0, 1, 0), (6, 0, 64, 0, 0)],
      let s := posting 7 (counterArg q.1 q.2.1 q.2.2.1 q.2.2.2.1 q.2.2.2.2)
      (∀ fn ∈ [0, 1], posted s fn 7 = true ∧ counterAsked (s.func fn).mcmd.toNat q.1 q.2.1 q.2.2.1 q.2.2.2.1 q.2.2.2.2 = true)) ∧
    (let s := posting 7 0
     (s.func 1).ctx = some 0 ∧ (s.ctx 0).tenant = some 4 ∧ queueAt s 1 0 = some 0 ∧ queueAt s 1 64 = none) := by decide +kernel

/-- R320, R422, R478, R479, R481, R482: a context to be torn down, with a plan and a queue, and one with nothing left; firmware that is signed and that is not, a lower
version; tokens in every state of the life cycle. -/
theorem witness_teardown_and_lifecycle :
    let s := posting 2 0
    let down := fun (x : State) => { x with ctxs := [(0, { oneCtx with fn := 1, frames := [(0x8000, 4)], teardown := true })] }
    let gone := { down s with funcs := [(0, { task := some 0 }), (1, { ctx := some 0, task := some 0 })], plans := [], groups := [], cores := [(0, { used := [0], tlb := [page], lm := [(4, 9)], ctx := 0 })] }
    let lives := fun (l : Life) (c : Tab Context) => { posting 8 0 with pkg := { s.pkg with life := l, version := 3 }, ctxs := c }
    ((∀ fn ∈ [0, 1, 2], posted s fn 2 = true) ∧ (s.func 1).ctx = some 0 ∧ (s.func 2).ctx ≠ some 0 ∧ (s.ctx 0).teardown = false ∧ (s.ctx 0).live = true ∧ (s.ctx 7).live = false ∧
      (s.queue 0).ctx = 0 ∧ ∃ e ∈ s.plans, e.2.ctx = 0) ∧
    ((s.func 1).task = none ∧ tornDown { down s with funcs := gone.funcs } 0 = false ∧ tornDown gone 0 = true ∧
      (∀ fn ∈ [0, 1], (gone.func fn).task = some 0) ∧ (gone.ctx 0).live = true ∧ gone.pkg.lynx = true ∧ (gone.ctx 0).frames ≠ [] ∧
      0 ∈ (gone.core 0).used ∧ (gone.core 0).plan = none ∧ page ∈ (gone.core 0).tlb) ∧
    (∀ l ∈ [Life.manufacture, .provisioned, .deployed, .returned], ∀ c ∈ [([] : Tab Context), [(0, oneCtx)]], ∀ fn ∈ [0, 1],
      posted (lives l c) fn 8 = true ∧ ((lives l c).func fn).task = none ∧ (lives l c).pkg.pending = none ∧ (lives l c).pkg.version = 3) ∧
    (oneCtx.live = true ∧ oneCtx.teardown = false ∧ (lives .deployed []).pkg.owner = 1) := by decide +kernel

/-- A package at a time, after a sample. -/
def warmed (n step : Nat) (hot : Option Nat) : State :=
  { mapped {} with now := n, pkg := { (mapped {}).pkg with sampled := some 0, step := step, hot := hot, tdem := 2, pdem := 1, cool := some 0, calm := some (n / 2) } }

/-- R481, R483, R486 to R492: samples a millisecond apart and closer, at the temperatures where their outcomes change; demands of which one may fall; a step that is
due and one that is not; Lynx running and stopped; power before bring-up; a wipe under way and none. -/
theorem witness_package_events :
    let s := warmed 10000000 2 none
    let off := { s with pkg := { s.pkg with up := false, held := false } }
    ((∀ tj ∈ [0, 89, 90, 94, 95, 99], tj < 100) ∧ s.pkg.up = true ∧ s.pkg.lynx = true ∧ 0 + 1000000 ≤ (warmed 1000000 0 none).now ∧ (warmed 999999 0 none).now < 0 + 1000000 ∧
      (warmed 11000000 4 (some 1000000)).pkg.step = 4 ∧ (warmed 11000000 4 (some 1000000)).pkg.hot = some 1000000 ∧
      1000000 + 10000000 ≤ (warmed 11000000 4 (some 1000000)).now ∧ (warmed 10999999 4 (some 1000000)).now < 1000000 + 10000000) ∧
    (s.pkg.cool = some 0 ∧ 0 + 10000000 ≤ s.now ∧ s.pkg.calm = some 5000000 ∧ s.now < 5000000 + 10000000) ∧
    (max s.pkg.tdem s.pkg.pdem = s.pkg.step ∧ max (warmed 5 0 none).pkg.tdem (warmed 5 0 none).pkg.pdem ≠ (warmed 5 0 none).pkg.step) ∧
    (s.pkg.meas = true ∧ ({ s.pkg with lynx := false } : Pkg).lynx = false ∧ off.pkg.up = false ∧ off.pkg.held = false ∧ off.pkg.linking = false ∧ { off.pkg with linking := true }.linking = true) ∧
    (s.pkg.wipe = false ∧ ({ s.pkg with wipe := true, pending := some .returned } : Pkg).up = true) := by decide +kernel

/-- R51, R57, R69: a running group whose word is an instruction, one whose word is none, and an agenda whose head is the running group's. -/
theorem witness_step_runs_decoded :
    (∀ w ∈ ([0, 2 ^ 59 * 30] : List Word64), ∃ s : State, s.agenda = [] ∧ s.me.live = true ∧ s.me.status = .issuing ∧ s.me.hold = none ∧ s.me.debt = 0 ∧ s.me.pend = none ∧ s.me.word = some w) ∧
    (decode 0).toOption.isSome = true ∧ (decode (2 ^ 59 * 30)).toOption = none ∧
    (let u := { blank with agenda := [.issue 1, .issue 1] }
     u.agenda = .issue blank.cur :: [.issue 1] ∧ { u with agenda := [] } = blank ∧ bankOutranked { blank with agenda := [.issue 1] } blank.cur = false) :=
  ⟨fun w hw => ⟨withMe blank fun g => { g with clause := g.clause.map fun c => { c with words := [w] } }, by
      simp only [List.mem_cons, List.not_mem_nil, or_false] at hw
      rcases hw with rfl | rfl <;> decide +kernel⟩,
    by decide +kernel, by decide +kernel, by decide +kernel⟩

/-- R4, R160, R194, R220: a state with memory, two groups and two cores in order, whose step answers a next state. -/
theorem witness_forms_kept :
    let s := { pod with cores := [(0, { lm := [(4, 1)] }), (3, { lm := [(0, 2), (7, 3)] })], groups := pod.groups ++ [(4, {})] }
    Memory.wf s.mem = true ∧ (∀ e ∈ s.cores, Memory.wf e.2.lm = true) ∧ s.groups.Pairwise (fun a b => a.1 < b.1) ∧ s.cores.Pairwise (fun a b => a.1 < b.1) ∧ (match step s with | .next _ => true | _ => false) = true := by
  decide +kernel

/-! ### Results of instructions, by hand from the rules they name -/

/-- What an instruction leaves in a uniform register when `v64` and on hold a list of words. -/
def gives (i : Instr) (l : List Word) (r : Reg) : Option Word :=
  match exec i (lone { v := l.mapIdx fun k w => (2048 + 32 * k, w) }) with
  | .next t => some (t.me.uval r)
  | _ => none

/-- R112. -/
theorem test_iadd_wraps : gives (.iaddA always 80 64 65 false) [0xFFFFFFFF, 2] 80 = some 1 := by decide +kernel

/-- R112. -/
theorem test_isub_wraps : gives (.isub always 80 64 65 false) [0, 1] 80 = some 0xFFFFFFFF := by decide +kernel

/-- R112. -/
theorem test_imul_low_half : gives (.imulA always 80 64 65 false) [0x10001, 0x10001] 80 = some 0x20001 := by decide +kernel

/-- R112: (-1) x 2 = -2. -/
theorem test_imulh_signed : gives (.imulh always 80 64 65 false false) [0xFFFFFFFF, 2] 80 = some 0xFFFFFFFF := by decide +kernel

/-- R112: (2^32 - 1) x 2 = 2^33 - 2. -/
theorem test_imulh_unsigned : gives (.imulh always 80 64 65 true false) [0xFFFFFFFF, 2] 80 = some 1 := by decide +kernel

/-- R112. -/
theorem test_imad_adds : gives (.imad always 80 64 65 66 false) [7, 0xFFFFFFFF, 10] 80 = some 3 := by decide +kernel

/-- R113. -/
theorem test_idiv_by_zero : gives (.idiv always 80 64 65 false false) [9, 0] 80 = some 0xFFFFFFFF := by decide +kernel

/-- R113. -/
theorem test_idiv_corner : gives (.idiv always 80 64 65 false false) [0x80000000, 0xFFFFFFFF] 80 = some 0x80000000 := by decide +kernel

/-- R112, R113: -7 = -3 x 2 - 1. -/
theorem test_irem_sign : gives (.irem always 80 64 65 false false) [0xFFFFFFF9, 2] 80 = some 0xFFFFFFFF := by decide +kernel

/-- R112. -/
theorem test_imin_signed : gives (.imin always 80 64 65 false false) [0xFFFFFFFF, 1] 80 = some 0xFFFFFFFF := by decide +kernel

/-- R112. -/
theorem test_imax_unsigned : gives (.imax always 80 64 65 true false) [0xFFFFFFFF, 1] 80 = some 0xFFFFFFFF := by decide +kernel

/-- R112. -/
theorem test_iabs_least : gives (.iabs always 80 64 false) [0x80000000] 80 = some 0x80000000 := by decide +kernel

/-- R112. -/
theorem test_ineg_one : gives (.ineg always 80 64 false) [1] 80 = some 0xFFFFFFFF := by decide +kernel

/-- R112. -/
theorem test_popc_ones : gives (.popc always 80 64 false) [0xF000000F] 80 = some 8 := by decide +kernel

/-- R112. -/
theorem test_clz_zero : gives (.clz always 80 64 false) [0] 80 = some 32 := by decide +kernel

/-- R112. -/
theorem test_brev_one : gives (.brev always 80 64 false) [1] 80 = some 0x80000000 := by decide +kernel

/-- R114. -/
theorem test_shl_full_width : gives (.shlA always 80 64 65 false) [1, 32] 80 = some 0 := by decide +kernel

/-- R114. -/
theorem test_sar_full_width : gives (.sarA always 80 64 65 false) [0x80000000, 0x80000000] 80 = some 0xFFFFFFFF := by decide +kernel

/-- R114: four bits at 28, the sign of bit 31. -/
theorem test_bfx_signed_top : gives (.bfx always 80 64 65 true false) [0x90000000, 0x41C] 80 = some 0xFFFFFFF9 := by decide +kernel

/-- R114: a width of 33 is taken as 32, bits above 31 are zero. -/
theorem test_bfx_wide : gives (.bfx always 80 64 65 false false) [0x80000000, 0x211F] 80 = some 1 := by decide +kernel

/-- R114: eight bits at 4. -/
theorem test_bfi_field : gives (.bfi always 80 64 65 66 false) [0xAB, 0xFFFFFFFF, 0x804] 80 = some 0xFFFFFABF := by decide +kernel

/-- R115: 0x100000000 + (-1 << 4). -/
theorem test_lea_borrow : gives (.lea always 80 64 66 4 false false) [0, 1, 0xFFFFFFFF] 80 = some 0xFFFFFFF0 := by decide +kernel

/-- R115: 0x100000000 + (-1 << 4). -/
theorem test_lea_high : gives (.lea always 80 64 66 4 false false) [0, 1, 0xFFFFFFFF] 81 = some 0 := by decide +kernel

/-- R145: 2^24 + 1 is halfway, to even. -/
theorem test_fadd_rounds : gives (.faddA always 80 64 65 .rne false) [0x4B800000, 0x3F800000] 80 = some 0x4B800000 := by decide +kernel

/-- R141, R145. -/
theorem test_fadd_up : gives (.faddA always 80 64 65 .rup false) [0x4B800000, 0x3F800000] 80 = some 0x4B800001 := by decide +kernel

/-- R145: x - x is +0 unless rounding down. -/
theorem test_fsub_zero : gives (.fsub always 80 64 65 .rne false) [0x40600000, 0x40600000] 80 = some 0 := by decide +kernel

/-- R83, R145: beyond the largest number. -/
theorem test_fmul_overflow : gives (.fmulA always 80 64 65 .rne false) [0x7F000000, 0x7F000000] 80 = some 0x7F800000 := by decide +kernel

/-- R145: (1 + 2^-12)^2 - (1 + 2^-11) = 2^-24, rounded once. -/
theorem test_ffma_once : gives (.ffma always 80 64 65 66 .rne false) [0x3F800800, 0x3F800800, 0xBF801000] 80 = some 0x33800000 := by decide +kernel

/-- R147. -/
theorem test_fmin_zeros : gives (.fmin always 80 64 65 false) [0, 0x80000000] 80 = some 0x80000000 := by decide +kernel

/-- R150. -/
theorem test_frcp_exact : gives (.frcp always 80 64 .rne false) [0x41000000] 80 = some 0x3E000000 := by decide +kernel

/-- R150. -/
theorem test_frsq_exact : gives (.frsq always 80 64 .rne false) [0x40800000] 80 = some 0x3F000000 := by decide +kernel

/-- R150. -/
theorem test_fexp2_exact : gives (.fexp2 always 80 64 .rne false) [0xC0400000] 80 = some 0x3E000000 := by decide +kernel

/-- R150. -/
theorem test_flog2_exact : gives (.flog2 always 80 64 .rne false) [0x44800000] 80 = some 0x41200000 := by decide +kernel

/-- R152: bf16 3 x 2 above, 0.5 x 0.5 below. -/
theorem test_hmul2_halves : gives (.hmul2 always 80 64 65 .bf16x2 .rne false) [0x40403F00, 0x40003F00] 80 = some 0x40C03E80 := by decide +kernel

/-- R155: the worked case. -/
theorem test_fcvt_worked_case :
    (match exec (.fcvt always 20 21 .bf16 .f32 1 0 .fmt false) (lone { v := [(640, 0x1234), (672, 0x3F808000)] }) with
     | .next t => t.me.elem 20 0 == 0x3F801234 && t.me.regs.flg.getLsbD 4
     | _ => false) = true := by decide +kernel

end Sys2Proof.Tests
end

section
/-! PROOFS. The order of a table's keys, and of a state's tables of groups and of cores: written at a key or mapped, a table keeps it. -/
namespace Sys2Proof.Machine

/-- A table lists each key once, by rising number. -/
def Rising {α : Type} (t : Tab α) : Prop := t.Pairwise fun a b => a.1 < b.1

theorem rising_cons {α : Type} {k : Nat} {v : α} {t : Tab α} : Rising ((k, v) :: t) ↔ (∀ e ∈ t, k < e.1) ∧ Rising t :=
  List.pairwise_cons

theorem mem_keys_setT {α : Type} {t : Tab α} {k : Nat} {v : α} {e : Nat × α} (h : e ∈ t) : ∃ x, (e.1, x) ∈ setT t k v := by
  induction t with
  | nil => cases h
  | cons f t ih =>
    obtain ⟨j, y⟩ := f
    rw [setT]
    split
    · next hk =>
      subst hk
      rcases List.mem_cons.mp h with rfl | h
      · exact ⟨v, List.mem_cons_self ..⟩
      · exact ⟨e.2, List.mem_cons_of_mem _ h⟩
    · split
      · exact ⟨e.2, List.mem_cons_of_mem _ h⟩
      · rcases List.mem_cons.mp h with rfl | h
        · exact ⟨y, List.mem_cons_self ..⟩
        · exact (ih h).imp fun _ => List.mem_cons_of_mem _

/-- Writing an entry at its key neither makes nor mends a fault in the order of a table. -/
@[simp] theorem rising_setT {α : Type} {t : Tab α} {k : Nat} {v : α} : Rising (setT t k v) ↔ Rising t := by
  induction t with
  | nil => simp [setT, Rising]
  | cons e t ih =>
    obtain ⟨j, y⟩ := e
    rw [setT]
    split
    · next hk => rw [hk, rising_cons, rising_cons]
    · next hne =>
      split
      · next hlt =>
        rw [rising_cons, and_iff_right_iff_imp]
        intro h e he
        rcases List.mem_cons.mp he with rfl | he
        · exact hlt
        · exact Nat.lt_trans hlt ((rising_cons.mp h).1 e he)
      · next hge =>
        rw [rising_cons, rising_cons, ih, and_congr_left_iff]
        refine fun _ => ⟨fun h e he => ?_, fun h e he => ?_⟩
        · obtain ⟨x, hx⟩ := mem_keys_setT (k := k) (v := v) he
          exact h (e.1, x) hx
        · rcases mem_setT he with rfl | he
          · exact show j < k by omega
          · exact h e he

@[simp] theorem rising_mapT {α β : Type} {f : Nat → α → β} {t : Tab α} : Rising (mapT f t) ↔ Rising t := by
  have keys : (mapT f t).map Prod.fst = t.map Prod.fst := by
    induction t with
    | nil => rfl
    | cons e t ih => simp [mapT, ih]
  unfold Rising
  rw [← List.pairwise_map (R := (· < ·)), keys, List.pairwise_map]

/-- Whether the table of groups, and that of cores, has strictly rising keys. -/
def State.order (s : State) : Prop × Prop := (Rising s.groups, Rising s.cores)

/-- The order of a state that is written out, as every record update is. -/
@[simp] theorem State.order_mk
    (now phase agenda cur turn fresh serial mem badSec groups cores crews plans ctxs ctr stlb walks missq wcache l2 dir bypass watches flights
    grants beacon resvs den denFree denNext refused dlvs queues invals funcs msix answers hub posted reads ports targets sources outbox parked
    transit freed linksDown slotWrites reds tenants pcnt errLog pkg) :
    State.order ⟨now, phase, agenda, cur, turn, fresh, serial, mem, badSec, groups, cores, crews, plans, ctxs, ctr, stlb, walks, missq, wcache,
    l2, dir, bypass, watches, flights, grants, beacon, resvs, den, denFree, denNext, refused, dlvs, queues, invals, funcs, msix, answers, hub,
    posted, reads, ports, targets, sources, outbox, parked, transit, freed, linksDown, slotWrites, reds, tenants, pcnt, errLog, pkg⟩ = (Rising
    groups, Rising cores) := rfl

@[simp] theorem State.order_fields (s : State) : (Rising s.groups, Rising s.cores) = s.order := rfl

/-- Tables whose order is no worse than another: each that was in order there is in order here. -/
structure NoWorse (o p : Prop × Prop) : Prop where
  groups : o.1 → p.1
  cores : o.2 → p.2

theorem NoWorse.refl (o : Prop × Prop) : NoWorse o o := ⟨id, id⟩

theorem NoWorse.trans {o p q : Prop × Prop} (h : NoWorse o p) (h' : NoWorse p q) : NoWorse o q := ⟨h'.groups ∘ h.groups, h'.cores ∘ h.cores⟩

@[simp] theorem ite_order {c : Prop} [Decidable c] (s t : State) : (if c then s else t).order = if c then s.order else t.order :=
  apply_ite ..

/-- What each step of a fold keeps, the fold keeps. -/
theorem foldl_kept {α β γ : Type} (p : β → γ) {f : β → α → β} (h : ∀ c x, p (f c x) = p c) (l : List α) (c : β) : p (l.foldl f c) = p c := by
  induction l generalizing c with
  | nil => rfl
  | cons x l ih => rw [List.foldl_cons, ih, h]

@[simp] theorem foldl_order {α : Type} {f : State → α → State} (h : ∀ s x, (f s x).order = s.order) (l : List α) (s : State) :
    (l.foldl f s).order = s.order := foldl_kept State.order h l s

@[simp] theorem State.setGrp_groups (s : State) (k : Nat) (g : Group) : (s.setGrp k g).groups = setT s.groups k g := rfl
@[simp] theorem State.setMe_groups (s : State) (g : Group) : (s.setMe g).groups = setT s.groups s.cur g := rfl
@[simp] theorem State.setCore_cores (s : State) (k : Nat) (c : Core) : (s.setCore k c).cores = setT s.cores k c := rfl

end Sys2Proof.Machine
end

section
/-! PROOFS. Every operation on the state leaves the order of the tables of groups and of cores as it was; a reset and a wipe, which empty or filter the tables,
can only mend it. One law for each operation, in the order of the model. -/
namespace Sys2Proof.Machine

/-! ### Chunks and squashes -/

@[simp] theorem State.setGrp_order (s : State) (k : Nat) (g : Group) : (State.setGrp s k g).order = s.order := by simp [State.setGrp]

@[simp] theorem State.setMe_order (s : State) (g : Group) : (State.setMe s g).order = s.order := by simp [State.setMe]

@[simp] theorem State.setCore_order (s : State) (c : Nat) (x : Core) : (State.setCore s c x).order = s.order := by simp [State.setCore]

@[simp] theorem State.setCtx_order (s : State) (c : Nat) (x : Context) : (State.setCtx s c x).order = s.order := s.order_fields

@[simp] theorem State.count_order (s : State) (ctx core code n : Nat) : (State.count s ctx core code n).order = s.order := s.order_fields

@[simp] theorem State.countMe_order (s : State) (code n : Nat) : (State.countMe s code n).order = s.order := s.order_fields

@[simp] theorem dropLines_order (s : State) (k core : Nat) (lines : List Nat) : (dropLines s k core lines).order = s.order := by simp [dropLines]

@[simp] theorem wakeNext_order (k : Nat) (s : State) : (wakeNext k s).order = s.order := by simp [wakeNext]

@[simp] theorem squash_order (counts : Bool) (k no : Nat) (s : State) : (squash counts k no s).order = s.order := by
  unfold squash
  simp only []
  cases (s.grp k).chunks.filter fun c => decide (no ≤ c.no) with
  | nil => rfl
  | cons => simp

@[simp] theorem squashAll_order (counts : Bool) (k : Nat) (s : State) : (squashAll counts k s).order = s.order := by
  unfold squashAll
  split <;> simp

@[simp] theorem broadcast_order (k : Nat) (keys : List Key) (s : State) : (broadcast k keys s).order = s.order := by
  refine foldl_order (fun t e => ?_) ..
  split
  · rfl
  · split <;> simp

@[simp] theorem squashUndo_order (k core : Nat) (bytes : List Nat) (s : State) : (squashUndo k core bytes s).order = s.order := by
  refine foldl_order (fun t e => ?_) ..
  split
  · rfl
  · split <;> simp

@[simp] theorem pointLocal_order (k core a : Nat) (bs : List Byte) (s : State) : (pointLocal k core a bs s).order = s.order := by simp [pointLocal]

@[simp] theorem storeLocalByte_order (k core : Nat) (s : State) (e : Nat × Byte) : (storeLocalByte k core s e).order = s.order := by simp [storeLocalByte]

@[simp] theorem storeLocal_order (k core : Nat) (s : State) (a : Nat) (bs : List Byte) : (storeLocal k core s a bs).order = s.order := by simp [storeLocal]

@[simp] theorem orFlagsFrom_order (no k : Nat) (f : Word) (s : State) : (orFlagsFrom no k f s).order = s.order := by simp [orFlagsFrom]

@[simp] theorem orFlags_order (k : Nat) (f : Word) (s : State) : (orFlags k f s).order = s.order := by simp [orFlags]

/-! ### Memory, caches and translation -/

@[simp] theorem fillL1Tlb_order (s : State) (core : Nat) (x : Xlat) : (fillL1Tlb s core x).order = s.order := by simp [fillL1Tlb]

@[simp] theorem hitFills_order (s : State) (core ctx va : Nat) : (hitFills s core ctx va).order = s.order := by
  unfold hitFills
  split <;> simp

@[simp] theorem fillShared_order (s : State) (die : Nat) (x : Xlat) : (fillShared s die x).order = s.order := s.order_fields

@[simp] theorem startWalk_order (s : State) (core ctx va : Nat) (grp : Option Nat) : (startWalk s core ctx va grp).order = s.order := by
  unfold startWalk
  simp only []
  split <;> simp

@[simp] theorem setDir_order (s : State) (line : Nat) (d : Dir) : (setDir s line d).order = s.order := s.order_fields

@[simp] theorem invalidateL1_order (s : State) (line : Nat) (but : Option Nat) : (invalidateL1 s line but).order = s.order := by simp [invalidateL1]

@[simp] theorem onRecipe_order (ctx rec' : Nat) (f : Recipe → Recipe) (s : State) : (onRecipe ctx rec' f s).order = s.order := by
  unfold onRecipe
  simp only []
  split <;> simp

@[simp] theorem loseLines_order (lines : List Nat) (s : State) : (loseLines lines s).order = s.order := by simp [loseLines]

@[simp] theorem dropTile_order (ctx rec' : Nat) (s : State) : (dropTile ctx rec' s).order = s.order := by
  unfold dropTile
  simp only []
  split <;> simp

@[simp] theorem removeL2_order (line : Nat) (s : State) : (removeL2 line s).order = s.order := by simp [removeL2]

@[simp] theorem evictLine_order (line : Nat) (s : State) : (evictLine line s).order = s.order := by
  unfold evictLine
  split <;> simp

@[simp] theorem makeRoom_order (line : Nat) (s : State) : (makeRoom line s).order = s.order := by
  unfold makeRoom
  split
  · simp
  · split <;> simp

@[simp] theorem touchL2_order (s : State) (line : Nat) (dirty : Bool) : (touchL2 s line dirty).order = s.order := by simp [touchL2]

@[simp] theorem fireWatch_order (line : Nat) (s : State) : (fireWatch line s).order = s.order := by simp [fireWatch]

@[simp] theorem writeGlobal_order (s : State) (pa : Nat) (bs : List Byte) : (writeGlobal s pa bs).order = s.order := s.order_fields

@[simp] theorem dropCopies_order (pa n : Nat) (s : State) : (dropCopies pa n s).order = s.order := by simp [dropCopies]

@[simp] theorem reduceWrite_order (pa : Nat) (bs : List Byte) (s : State) : (reduceWrite pa bs s).order = s.order := by simp [reduceWrite]

@[simp] theorem applyRed_order (s : State) (f : Flight) : (applyRed s f).order = s.order := by
  unfold applyRed
  split <;> simp

@[simp] theorem settleArrived_order (pa n : Nat) (s : State) : (settleArrived pa n s).order = s.order := by
  unfold settleArrived
  split <;> simp

@[simp] theorem pointGlobal_order (k pa : Nat) (bs : List Byte) (s : State) : (pointGlobal k pa bs s).order = s.order := by simp [pointGlobal]

@[simp] theorem homeWrite_order (pa : Nat) (bs : List Byte) (s : State) : (homeWrite pa bs s).order = s.order := by simp [homeWrite]

@[simp] theorem streamWrite_order (pa : Nat) (bs : List Byte) (s : State) : (streamWrite pa bs s).order = s.order := by simp [streamWrite]

@[simp] theorem atomStream_order (pa : Nat) (bs : List Byte) (s : State) : (atomStream pa bs s).order = s.order := by simp [atomStream]

@[simp] theorem hubWrite_order (pa : Nat) (bs : List Byte) (s : State) : (hubWrite pa bs s).order = s.order := by simp [hubWrite]

@[simp] theorem serveOne_order (s : State) (h : HubWrite) : (serveOne s h).order = s.order := by simp [serveOne]

@[simp] theorem serveHub_order (s : State) : (serveHub s).order = s.order := by simp [serveHub]

theorem writeVirtual_order {s t : State} {ctx va : Nat} {bs : List Byte} (h : writeVirtual s ctx va bs = some t) : t.order = s.order := by
  unfold writeVirtual at h
  split at h
  · rw [Option.ite_none_right_eq_some, Option.some.injEq] at h
    obtain ⟨-, rfl⟩ := h
    simp
  · cases h
@[simp] theorem writeVirtual_getD_order (s : State) (ctx va : Nat) (bs : List Byte) : ((writeVirtual s ctx va bs).getD s).order = s.order := by
  cases h : writeVirtual s ctx va bs with
  | none => rfl
  | some t => exact writeVirtual_order h

/-! ### What precedes and follows an instruction -/

@[simp] theorem retire_order (u : Use) (S : Mask) (ws : List Reg) (s : State) : (retire u S ws s).order = s.order := by simp [retire]

@[simp] theorem jumpTo_order (u : Use) (S : Mask) (ws : List Reg) (target : Pc) (s : State) : (jumpTo u S ws target s).order = s.order := by simp [jumpTo]

@[simp] theorem resumeAt_order (u : Use) (S : Mask) (ws : List Reg) (target : Pc) (s : State) : (resumeAt u S ws target s).order = s.order :=
  by simp [resumeAt]

@[simp] theorem holdFor_order (code : Nat) (s : State) : (holdFor code s).order = s.order := by simp [holdFor]

@[simp] theorem suspendAt_order (why : Susp) (s : State) : (suspendAt why s).order = s.order := by simp [suspendAt]

@[simp] theorem sleepPast_order (why : Susp) (u : Use) (S : Mask) (s : State) : (sleepPast why u S s).order = s.order := by simp [sleepPast]

@[simp] theorem closeAndHold_order (s : State) : (closeAndHold s).order = s.order := by simp [closeAndHold]

@[simp] theorem reportWrite_order (ctx va : Nat) (bs : List Byte) (s : State) : (reportWrite ctx va bs s).order = s.order := by
  unfold reportWrite
  split
  · next t h => exact writeVirtual_order h
  · simp

@[simp] theorem addReport_order (ctx : Nat) (bs : List Byte) (s : State) : (addReport ctx bs s).order = s.order := by simp [addReport]

@[simp] theorem countReport_order (crew : Nat) (s : State) : (countReport crew s).order = s.order := by
  unfold countReport
  split <;> simp

@[simp] theorem reportGroup_order (g : Group) (kind cls cause addr : Nat) (pc : Pc) (thr info : Nat) (s : State) (core : Nat := g.place.core) :
    (reportGroup g kind cls cause addr pc thr info s core).order = s.order := by simp [reportGroup]

@[simp] theorem finishGroup_order (k : Nat) (cause : BitVec 2) (s : State) : (finishGroup k cause s).order = s.order := by
  unfold finishGroup
  simp only []
  split <;> simp

@[simp] theorem exitGroup_order (k : Nat) (s : State) : (exitGroup k s).order = s.order := by simp [exitGroup]

@[simp] theorem endGroup_order (k cls cause : Nat) (f : Flt) (s : State) : (endGroup k cls cause f s).order = s.order := by simp [endGroup]

theorem pushEntry_order {k : Nat} {e : StackEntry} {s t : State} (h : pushEntry k e s = .ok t) : t.order = s.order := by
  unfold pushEntry at h
  simp only [] at h
  split at h
  · cases h
  · split at h
    · cases h; simp
    · split at h
      · cases h
      · cases h; simp

theorem popEntry_order {k : Nat} {s t : State} {e : StackEntry} (h : popEntry k s = some (e, t)) : t.order = s.order := by
  unfold popEntry at h
  simp only [] at h
  split at h
  · cases h
  · split at h <;> cases h <;> simp

@[simp] theorem removeThreads_order (k : Nat) (m : Mask) (ret : Bool) (s : State) : (removeThreads k m ret s).order = s.order := by simp [removeThreads]

/-- Whether the order of the tables is `o` in the state that settling a mask leaves. -/
def Settle.KeepsOrder (o : Prop × Prop) : Settle → Prop
  | .stays t | .resumes t _ | .ends t => t.order = o
  | .bad => True
theorem settle_order (k n : Nat) (s : State) : (settle k n s).KeepsOrder s.order := by
  induction n generalizing s with
  | zero => unfold settle; split <;> rfl
  | succ n ih =>
    unfold settle
    split
    · rfl
    · split
      · rfl
      · next e t h =>
        rw [← popEntry_order h]
        split
        · trivial
        · split
          · exact ih t
          · exact State.setGrp_order ..

@[simp] theorem untrapped_order (k cls cause : Nat) (f : Flt) (s : State) : (untrapped k cls cause f s).order = s.order := by
  unfold untrapped
  split <;> simp

@[simp] theorem takeTrap_order (k : Nat) (f : Flt) (s : State) : (takeTrap k f s).order = s.order := by
  unfold takeTrap
  extract_lets g₀ t g c b bytes
  split
  · simp [t]
  · split
    · simp [t]
    · split
      · simp [t]
      · split
        · next h => simp [pushEntry_order h, t]
        · simp [t]

@[simp] theorem raise_order (f : Flt) (s : State) : (raise f s).order = s.order := by simp [raise]

@[simp] theorem raiseAt_order (cls cause : Nat) (info : Word) (S : Mask) (s : State) : (raiseAt cls cause info S s).order = s.order := by simp [raiseAt]

@[simp] theorem illegal_order (S : Mask) (s : State) : (illegal S s).order = s.order := by simp [illegal]

@[simp] theorem shapeFault_order (d : Reg) (S : Mask) (s : State) : (shapeFault d S s).order = s.order := by simp [shapeFault]

@[simp] theorem stackFault_order (cause : Nat) (S : Mask) (s : State) : (stackFault cause S s).order = s.order := by simp [stackFault]

@[simp] theorem meetChunk_order (other : Nat × Nat) (s : State) : (meetChunk other s).order = s.order := by simp [meetChunk]

@[simp] theorem skip_order (u : Use) (s : State) : (skip u s).order = s.order := by simp [skip]

@[simp] theorem meetObstacle_order (o : Obstacle) (S : Mask) (s : State) : (meetObstacle o S s).order = s.order := by
  unfold meetObstacle
  split <;> simp

/-! ### The reconvergence stack -/

@[simp] theorem setActive_order (m : Mask) (s : State) : (setActive m s).order = s.order := by simp [setActive]

theorem joinEntry_order {k n : Nat} {s t : State} {e : StackEntry} (h : joinEntry k n s = .ok (e, t)) : t.order = s.order := by
  induction n generalizing s with
  | zero => cases h
  | succ n ih =>
    unfold joinEntry at h
    split at h
    · cases h
    · next e' u hp =>
      rw [← popEntry_order hp]
      split at h
      · cases h
      · split at h
        · cases h
        · split at h
          · exact ih h
          · cases h; rfl

/-! ### Fetch and clauses -/

@[simp] theorem fillIcache_order (core line : Nat) (s : State) : (fillIcache core line s).order = s.order := by
  unfold fillIcache
  simp only []
  split <;> simp

@[simp] theorem boundaryClose_order (k : Nat) (s : State) : (boundaryClose k s).order = s.order := by
  unfold boundaryClose
  simp only []
  split
  · simp
  · split <;> simp

@[simp] theorem mergeAt_order (k : Nat) (pc : Pc) (n : Nat) (s : State) : (mergeAt k pc n s).order = s.order := by
  induction n generalizing s with
  | zero => rfl
  | succ n ih =>
    unfold mergeAt
    split
    · rfl
    · split
      · split
        · rfl
        · next h => simp [ih, popEntry_order h]
      · rfl

@[simp] theorem dropLate_order (ctx : Nat) (f : LateFault) (s : State) : (dropLate ctx f s).order = s.order := s.order_fields

@[simp] theorem reportLates_order (n : Nat) (s : State) : (reportLates n s).order = s.order := by
  induction n generalizing s with
  | zero => rfl
  | succ n ih => unfold reportLates; split <;> simp [ih]

theorem deliverLate_order (s : State) : (deliverLate s).1.order = s.order := by
  unfold deliverLate
  split
  · rfl
  · simp only []
    split
    · split <;> simp
    · simp

@[simp] theorem enterClause_order (s : State) : (enterClause s).order = s.order := by
  unfold enterClause
  simp only []
  split
  · split <;> simp
  · split
    · split <;> simp
    · next c atHeader _ =>
      have late : (if atHeader then deliverLate s else (s, true)).1.order = s.order := by
        split
        · exact deliverLate_order s
        · rfl
      split <;> next h => simp [h] at late; simp [late]

@[simp] theorem beginSelect_order (core lane : Nat) (s : State) : (beginSelect core lane s).order = s.order := by simp [beginSelect]

@[simp] theorem endYields_order (core lane : Nat) (s : State) : (endYields core lane s).order = s.order := by simp [endYields]

/-! ### Accesses -/

@[simp] theorem noteMiss_order (ctx rec' core level : Nat) (who : Option TileUser) (s : State) : (noteMiss ctx rec' core level who s).order = s.order := by
  unfold noteMiss
  simp only []
  split <;> simp

@[simp] theorem missTiles_order (g : Group) (l : List (TileUser × Nat)) (s : State) : (missTiles g l s).1.order = s.order := by
  refine foldl_kept (fun r : State × _ => r.1.order) (fun r e => ?_) ..
  simp only []
  split <;> simp
theorem order_of_missTiles {g : Group} {l : List (TileUser × Nat)} {s t : State} {b : Bool} (h : missTiles g l s = (t, b)) : t.order = s.order := by
  rw [← missTiles_order g l s, h]

@[simp] theorem passUser_order (who : TileUser) (as : Option TileUser) (s : State) : (passUser who as s).order = s.order := by simp [passUser]

@[simp] theorem dropUser_order (who : TileUser) (s : State) : (dropUser who s).order = s.order := by simp [dropUser]

@[simp] theorem queueLate_order (f : LateFault) (s : State) : (queueLate f s).order = s.order := by simp [queueLate]

@[simp] theorem lateOn_order (core k cls cause addr : Nat) (pc : Pc) (thrs : Mask) (s : State) :
    (lateOn core k cls cause addr pc thrs s).order = s.order := by simp [lateOn]

@[simp] theorem lateStore_order (k cause addr : Nat) (pc : Pc) (thrs : Mask) (s : State) : (lateStore k cause addr pc thrs s).order = s.order :=
  by simp [lateStore]

@[simp] theorem fillHits_order (size : Nat) (vas : List Nat) (s : State) : (fillHits size vas s).order = s.order := by simp [fillHits]

/-- Whether the order of the tables is `o` in the state that the checks of an access leave. -/
def Checked.KeepsOrder (o : Prop × Prop) : Checked → Prop
  | .wait t | .bad t _ | .ok t _ => t.order = o
theorem checkAddrs_order (write own : Bool) (size : Nat) (addrs : List (Nat × Nat)) (s : State) : (checkAddrs write own size addrs s).KeepsOrder s.order := by
  unfold checkAddrs
  simp only []
  split
  · simp [Checked.KeepsOrder]
  · split <;> simp [Checked.KeepsOrder]

@[simp] theorem l1Put_order (core : Nat) (x : L1Line) (ev : Bool) (s : State) : (l1Put core x ev s).order = s.order := by simp [l1Put]

@[simp] theorem fillL1_order (core line : Nat) (ev : Bool) (s : State) : (fillL1 core line ev s).order = s.order := by simp [fillL1]

@[simp] theorem issueLoad_order (d : Reg) (n size : Nat) (sgn fit hold : Bool) (S : Mask) (src : LoadSrc) (s : State)
    (bad : Bool := false) (uni : Bool := s.me.uniMark) : (issueLoad d n size sgn fit hold S src s bad uni).order = s.order := by simp [issueLoad]

@[simp] theorem landLoad_order (k : Nat) (l : Load) (vals : List (Nat × List Byte)) (s : State) : (landLoad k l vals s).order = s.order :=
  by simp [landLoad]

@[simp] theorem poisonIf_order (k : Nat) (l : Load) (bad : Bool) (s : State) : (poisonIf k l bad s).order = s.order := by simp [poisonIf]

@[simp] theorem finishLoad_order (k : Nat) (l : Load) (vals : List (Nat × List Byte)) (bad : Bool) (s : State) : (finishLoad k l vals bad s).order = s.order := by
  unfold finishLoad
  simp only []
  split
  · simp
  · split
    · simp
    · split <;> simp

@[simp] theorem switchOff_order (off : List (Nat × Nat × Nat)) (s : State) : (switchOff off s).order = s.order := by
  unfold switchOff
  split <;> simp

@[simp] theorem healRows_order (core : Nat) (addrs : List Nat) (s : State) : (healRows core addrs s).order = s.order := by simp [healRows]

@[simp] theorem enterBanks_order (core : Nat) (rows : List Nat) (s : State) : (enterBanks core rows s).order = s.order := by simp [enterBanks]

@[simp] theorem holdForBank_order (b : Nat) (s : State) : (holdForBank b s).order = s.order := by simp [holdForBank]

/-! ### Loads and stores -/

@[simp] theorem readKeys_order (ks : List Key) (s : State) : (readKeys ks s).order = s.order := by simp [readKeys]

@[simp] theorem writeLine_order (k core : Nat) (line va : Nat) (bs : List (Nat × Byte)) (who : Nat × Nat) (s : State) :
    (writeLine k core line va bs who s).order = s.order := by simp [writeLine]

@[simp] theorem awaitFill_order (k ins line va : Nat) (s : State) : (awaitFill k ins line va s).order = s.order := by simp [awaitFill]

@[simp] theorem storeCoherent_order (k core ins : Nat) (s : State) (e : OneStore) : (storeCoherent k core ins s e).order = s.order :=
  by simp [storeCoherent]

@[simp] theorem holdStore_order (k ins : Nat) (pc : Pc) (s : State) (e : OneStore) : (holdStore k ins pc s e).order = s.order := by simp [holdStore]

@[simp] theorem performStores_order (coh str : List OneStore) (s : State) : (performStores coh str s).order = s.order := by simp [performStores]

@[simp] theorem storeAll_order (d : Reg) (size : Nat) (acc : List (Nat × Nat × Xlat)) (s : State) : (storeAll d size acc s).order = s.order :=
  (missTiles_order ..).trans (performStores_order ..)

@[simp] theorem storeSome_order (d : Reg) (size : Nat) (acc : List (Nat × Nat × Xlat)) (s : State) : (storeSome d size acc s).order = s.order := by
  unfold storeSome
  split
  · simp
  · split <;> simp

@[simp] theorem poolLoad_order (d : Reg) (S : Mask) (accs : List ThreadAcc) (s : State) : (poolLoad d S accs s).order = s.order := by simp [poolLoad]

@[simp] theorem atomGlobal_order (G : Group) (k : Nat) (op : AOp) (x : Reg) (o : Olds) (e : Nat × Nat × Xlat) : (atomGlobal G k op x o e).s.order = o.s.order := by
  simp [atomGlobal]

@[simp] theorem atomLocal_order (G : Group) (core : Nat) (op : AOp) (x : Reg) (o : Olds) (e : Nat × Nat) : (atomLocal G core op x o e).s.order = o.s.order := by
  simp [atomLocal]

@[simp] theorem leaveCore_order (s : State) : (leaveCore s).order = s.order := s.order_fields

@[simp] theorem park_order (line : Nat) (u : Use) (S : Mask) (s : State) : (park line u S s).order = s.order := by simp [park]

@[simp] theorem prefetch_order (core : Nat) (g : Group) (l2 : Bool) (s : State) (e : Nat × Xlat) : (prefetch core g l2 s e).order = s.order :=
  by simp [prefetch]

@[simp] theorem cacheStores_order (kinds : List StoreKind) (s : State) : (cacheStores kinds s).order = s.order := by simp [cacheStores]

/-! ### Events of groups and memory -/

@[simp] theorem useLine_order (k core : Nat) (ev : Bool) (s : State) (a : ThreadAcc) : (useLine k core ev s a).order = s.order := by
  unfold useLine
  split <;> simp

@[simp] theorem dropBadTiles_order (g : Group) (size : Nat) (acc : List ThreadAcc) (s : State) : (dropBadTiles g size acc s).order = s.order := by
  refine foldl_order (fun t a => ?_) ..
  split
  · split <;> simp
  · rfl

@[simp] theorem failDeep_order (k : Nat) (l : Load) (s : State) : (failDeep k l s).order = s.order := by simp [failDeep]

@[simp] theorem completeGlobal_order (k : Nat) (l : Load) (acc : List ThreadAcc) (ev : Bool) (s : State) : (completeGlobal k l acc ev s).order = s.order := by
  unfold completeGlobal
  simp only []
  split
  · next h => simp [order_of_missTiles h]
  · simp

@[simp] theorem dropStore_order (k id : Nat) (s : State) : (dropStore k id s).order = s.order := by simp [dropStore]

@[simp] theorem removeLine_order (g : Group) (line va : Nat) (l2 : Bool) (s : State) : (removeLine g line va l2 s).order = s.order := by
  unfold removeLine
  simp only []
  split
  · simp
  · split
    · simp
    · split <;> simp

@[simp] theorem ownFilled_order (k line : Nat) (s : State) : (ownFilled k line s).order = s.order := by simp [ownFilled]

@[simp] theorem fetchLine_order (core line : Nat) (s : State) : (fetchLine core line s).order = s.order := by simp [fetchLine]

@[simp] theorem settleLoads_order (k no : Nat) (s : State) : (settleLoads k no s).order = s.order := by simp [settleLoads]

@[simp] theorem commitLine_order (k : Nat) (c : Chunk) (s : State) (e : Nat × Tab Byte) : (commitLine k c s e).order = s.order := by
  unfold commitLine
  simp only []
  split
  · simp
  · simp only [fireWatch_order, ite_order, lateStore_order, ite_self]
    split <;> simp

@[simp] theorem cleanLine_order (k : Nat) (s : State) (line : Nat) : (cleanLine k s line).order = s.order := by simp [cleanLine]

@[simp] theorem release_order (k : Nat) (s : State) (h : Held) : (release k s h).order = s.order := s.order_fields

@[simp] theorem commitChunk_order (k : Nat) (c : Chunk) (s : State) : (commitChunk k c s).order = s.order := by
  unfold commitChunk
  simp

@[simp] theorem closeAtLimit_order (k : Nat) (s : State) : (closeAtLimit k s).order = s.order := by simp [closeAtLimit]

@[simp] theorem dropBadReads_order (g : Group) (no : Nat) (s : State) : (dropBadReads g no s).order = s.order := by simp [dropBadReads]

@[simp] theorem landed_order (f : Flight) (s : State) : (landed f s).order = s.order := s.order_fields

@[simp] theorem arrive_order (f : Flight) (s : State) : (arrive f s).order = s.order := s.order_fields

@[simp] theorem takeRed_order (f : Flight) (n : Nat) (s : State) : (takeRed f n s).order = s.order := by simp [takeRed]

@[simp] theorem walkTouch_order (w : Walk) (s : State) : (walkTouch w s).order = s.order := by simp [walkTouch]

@[simp] theorem serveMisses_order (die n : Nat) (s : State) : (serveMisses die n s).order = s.order := by
  induction n generalizing s with
  | zero => rfl
  | succ n ih =>
    unfold serveMisses
    split
    · rfl
    · simp only []
      split <;> simp [ih]

@[simp] theorem walkEnds_order (w : Walk) (r : Except Nat Xlat) (s : State) : (walkEnds w r s).order = s.order := by
  unfold walkEnds
  split <;> simp

/-! ### The pod -/

@[simp] theorem emit_order (h : Nat × Nat) (pkt : Packet) (s : State) : (emit h pkt s).order = s.order := s.order_fields

@[simp] theorem takeBuf_order (h : Nat × Nat) (s : State) : (takeBuf h s).order = s.order := by simp [takeBuf]

@[simp] theorem issueOn_order (h : Nat × Nat) (pkt : Packet) (s : State) : (issueOn h pkt s).order = s.order := by simp [issueOn]

@[simp] theorem leave_order (dst : Nat) (s : State) (c : Copy) : (leave dst s c).order = s.order := by simp [leave]

@[simp] theorem pump_order (dst : Nat) (s : State) : (pump dst s).order = s.order := by simp [pump]

@[simp] theorem sendPacket_order (dst kind tenant ctx ictx : Nat) (body : Body) (s : State) :
    (sendPacket dst kind tenant ctx ictx body s).order = s.order := by simp [sendPacket]

@[simp] theorem sendFor_order (ctx dst kind : Nat) (body : Body) (s : State) : (sendFor ctx dst kind body s).order = s.order := by simp [sendFor]

@[simp] theorem sendBack_order (p : Packet) (kind : Nat) (body : Body) (s : State) : (sendBack p kind body s).order = s.order := by simp [sendBack]

@[simp] theorem passOn_order (held : Option (Nat × Nat)) (p : Packet) (s : State) : (passOn held p s).order = s.order := by simp [passOn]

@[simp] theorem sendAck_order (p : Packet) (body : Body) (s : State) : (sendAck p body s).order = s.order := by simp [sendAck]

/-! ### Barriers -/

@[simp] theorem wakePast_order (k : Nat) (s : State) : (wakePast k s).order = s.order := by simp [wakePast]

@[simp] theorem wakeAt_order (k : Nat) (s : State) : (wakeAt k s).order = s.order := by simp [wakeAt]

@[simp] theorem wakeBarrier_order (core a phase : Nat) (s : State) : (wakeBarrier core a phase s).order = s.order := by
  refine foldl_order (fun t e => ?_) ..
  split <;> simp

@[simp] theorem updateBarrier_order (k core a : Nat) (f : Bar → Bar) (s : State) : (updateBarrier k core a f s).order = s.order := by simp [updateBarrier]

@[simp] theorem initBarrier_order (k core a n : Nat) (s : State) : (initBarrier k core a n s).order = s.order := by simp [initBarrier]

@[simp] theorem onEngine_order (core : Nat) (f : Engine → Engine) (s : State) : (onEngine core f s).order = s.order := by simp [onEngine]

@[simp] theorem State.onPipe_order (s : State) (plan j : Nat) (f : Pipe → Pipe) : (State.onPipe s plan j f).order = s.order := by
  unfold State.onPipe
  split <;> simp

@[simp] theorem onPlanPipes_order (plan : Nat) (f : Pipe → Pipe) (s : State) : (onPlanPipes plan f s).order = s.order := by
  unfold onPlanPipes
  split <;> simp

@[simp] theorem wakePipe_order (plan j : Nat) (producer : Bool) (s : State) : (wakePipe plan j producer s).order = s.order := by simp [wakePipe]

@[simp] theorem slotFreed_order (plan j : Nat) (s : State) : (slotFreed plan j s).order = s.order := by
  unfold slotFreed
  simp only []
  split <;> simp

/-! ### Tiles -/

@[simp] theorem order_withErrLog (s : State) (l : List LogEntry) : ({ s with errLog := l } : State).order = s.order := s.order_fields
@[simp] theorem logError_order (what addr : Nat) (s : State) : (logError what addr s).order = s.order := order_withErrLog ..

@[simp] theorem tidy_order (ctx : Nat) (s : State) : (tidy ctx s).order = s.order := s.order_fields

@[simp] theorem dropRef_order (ctx : Nat) (s : State) (t : TileRef) : (dropRef ctx s t).order = s.order := by
  unfold dropRef
  split <;> simp

@[simp] theorem dropRefs_order (ctx rec' : Nat) (s : State) : (dropRefs ctx rec' s).order = s.order := by
  unfold dropRefs
  split <;> simp

@[simp] theorem fillLines_order (ctx va n : Nat) (s : State) : (fillLines ctx va n s).order = s.order := by simp [fillLines]

@[simp] theorem freeRecipe_order (ctx rec' : Nat) (s : State) : (freeRecipe ctx rec' s).order = s.order := by
  unfold freeRecipe
  simp only []
  split <;> simp

@[simp] theorem addRef_order (ctx : Nat) (s : State) (t : TileRef) : (addRef ctx s t).order = s.order := by
  unfold addRef
  simp only []
  split <;> simp

@[simp] theorem zeroRange_order (ctx va n : Nat) (s : State) : (zeroRange ctx va n s).order = s.order := by
  refine foldl_order (fun t i => ?_) ..
  split <;> simp

/-! ### Pipes -/

@[simp] theorem charge_order (u : Use) (S : Mask) (s : State) : (charge u S s).order = s.order := by simp [charge]

@[simp] theorem reportEngine_order (core crew kind cls cause addr info : Nat) (s : State) :
    (reportEngine core crew kind cls cause addr info s).order = s.order := by simp [reportEngine]

@[simp] theorem enterLaunch_order (core : Nat) (l : Pending) (s : State) : (enterLaunch core l s).order = s.order := by simp [enterLaunch]

@[simp] theorem tellPeer_order (ctx : Nat) (p : Pipe) (op who slot : Nat) (s : State) : (tellPeer ctx p op who slot s).order = s.order := by
  unfold tellPeer
  split <;> simp

@[simp] theorem dropAsk_order (k : Nat) (s : State) : (dropAsk k s).order = s.order := by
  unfold dropAsk
  simp only []
  split
  · simp
  · split
    · simp
    · split <;> simp

theorem askPeer_order {j : Nat} {p : Pipe} {op slot : Nat} {s t : State} (h : askPeer j p op slot s = some t) : t.order = s.order := by
  unfold askPeer at h
  split at h
  · cases h
  · rw [Option.ite_none_right_eq_some, Option.some.injEq] at h
    obtain ⟨-, rfl⟩ := h
    simp

@[simp] theorem onCrew_order (k : Nat) (f : Crew → Crew) (s : State) : (onCrew k f s).order = s.order := by
  unfold onCrew
  split <;> simp

@[simp] theorem borrowFor_order (crew : Nat) (s : State) : (borrowFor crew s).order = s.order := by
  unfold borrowFor
  simp only []
  split
  · simp
  · split <;> simp

@[simp] theorem writeHeader_order (ctx : Nat) (p : Pipe) (r : SlotRef) (seq : Word) (share : Nat) (s : State) :
    (writeHeader ctx p r seq share s).order = s.order := by
  unfold writeHeader
  split
  · next t h => exact writeVirtual_order h
  · rfl

@[simp] theorem postCommit_order (j : Nat) (p : Pipe) (r : SlotRef) (w : Word) (s : State) : (postCommit j p r w s).order = s.order := by simp [postCommit]

@[simp] theorem setDropped_order (ctx : Nat) (p : Pipe) (r : SlotRef) (d : Bool) (s : State) : (setDropped ctx p r d s).order = s.order := by
  unfold setDropped
  simp only []
  split <;> simp

@[simp] theorem dropCommitted_order (ctx : Nat) (p : Pipe) (r : SlotRef) (s : State) : (dropCommitted ctx p r s).order = s.order := by
  unfold dropCommitted
  split <;> simp

@[simp] theorem linkReply_order (ctx : Nat) (q : Pipe) (dst op who : Nat) (val : List Nat) (s : State) :
    (linkReply ctx q dst op who val s).order = s.order := by simp [linkReply]

@[simp] theorem serveLinks_order (plan j n : Nat) (s : State) : (serveLinks plan j n s).order = s.order := by
  induction n generalizing s with
  | zero => rfl
  | succ n ih =>
    unfold serveLinks
    split
    · split <;> simp [ih]
    · rfl

@[simp] theorem freeSlot_order (plan j ctx : Nat) (p : Pipe) (r : SlotRef) (s : State) : (freeSlot plan j ctx p r s).order = s.order := by
  unfold freeSlot
  simp only []
  split <;> simp

@[simp] theorem applyThrottle_order (plan : Nat) (s : State) : (applyThrottle plan s).order = s.order := by
  unfold applyThrottle
  split <;> simp

/-! ### The matrix engine -/

@[simp] theorem enqueueCmd_order (core id grp crew : Nat) (fmt : Word) (pc : Pc) (op : MOp) (t : MTake) (s : State) :
    (enqueueCmd core id grp crew fmt pc op t s).order = s.order := by simp [enqueueCmd]

@[simp] theorem clearRegion_order (q : Geo) (core : Nat) (s : State) : (clearRegion q core s).order = s.order := by simp [clearRegion]

@[simp] theorem engineAsk_order (core ctx va : Nat) (s : State) : (engineAsk core ctx va s).1.order = s.order := by
  unfold engineAsk
  split
  · rfl
  · split
    · simp
    · split <;> simp

theorem engineReady_order {core ctx : Nat} {vas : List Nat} {s t : State} {b : Bool} (h : engineReady core ctx vas s = (t, b)) : t.order = s.order := by
  have ready : (engineReady core ctx vas s).1.order = s.order := by
    refine foldl_kept (fun r : State × _ => r.1.order) (fun r va => ?_) ..
    exact engineAsk_order core ctx va r.1
  rwa [h] at ready

@[simp] theorem forgetFails_order (core ctx : Nat) (vas : List Nat) (s : State) : (forgetFails core ctx vas s).order = s.order := by simp [forgetFails]

@[simp] theorem enginePut_order (va : Nat) (bs : List Byte) (x : Xlat) (s : State) : (enginePut va bs x s).order = s.order := by simp [enginePut]

@[simp] theorem putPieces_order (core ctx : Nat) (ps : List (Nat × List Byte)) (s : State) : (putPieces core ctx ps s).1.order = s.order := by
  refine foldl_kept (fun r : State × _ => r.1.order) (fun r e => ?_) ..
  split <;> simp

@[simp] theorem sendSlotData_order (ctx : Nat) (w : SlotWrite) (s : State) (e : Nat × List Byte) : (sendSlotData ctx w s e).order = s.order :=
  by simp [sendSlotData]

@[simp] theorem startCmd_order (core : Nat) (c : MCmd) (f : Word) (s : State) : (startCmd core c f s).order = s.order := by simp [startCmd]

@[simp] theorem onMatrix_order (core : Nat) (f : Matrix → Matrix) (s : State) : (onMatrix core f s).order = s.order := by simp [onMatrix]

@[simp] theorem dispatchCmd_order (core src : Nat) (c sc : MCmd) (s : State) : (dispatchCmd core src c sc s).order = s.order := by
  unfold dispatchCmd
  generalize c.op = x, sc.op = y
  cases x <;> cases y <;> simp

@[simp] theorem dispatchPair_order (core : Nat) (a b : MCmd) (s : State) : (dispatchPair core a b s).order = s.order := by simp [dispatchPair]

@[simp] theorem cmdGone_order (grp : Nat) (s : State) : (cmdGone grp s).order = s.order := by simp [cmdGone]

@[simp] theorem countDiscard_order (core crew : Nat) (s : State) : (countDiscard core crew s).order = s.order := by simp [countDiscard]

@[simp] theorem engineUpdate_order (core crew a : Nat) (f : Bar → Bar) (s : State) : (engineUpdate core crew a f s).order = s.order :=
  by simp [engineUpdate]

@[simp] theorem drainArrival_order (core : Nat) (c : MCmd) (vx : Word) (bar cancel : Bool) (s : State) :
    (drainArrival core c vx bar cancel s).order = s.order := by simp [drainArrival]

@[simp] theorem drainLocal_order (core : Nat) (vd : Word) (out : Elem) (blocks : List (Nat × Nat × List Byte)) (s : State) :
    (drainLocal core vd out blocks s).order = s.order := by simp [drainLocal]

theorem finishDrain_order {core : Nat} {c : MCmd} {vd geo vx vs : Word} {out : Elem} {relu clr bias bar : Bool} {s t : State} {f : Word}
    (h : finishDrain core c vd geo vx vs out relu clr bias bar s = some (t, f)) : t.order = s.order := by
  unfold finishDrain at h
  simp only [] at h
  split at h
  · cases h
  · split at h
    · cases h; simp
    · split at h
      · split at h <;> cases h; simp
      · split at h
        · cases h; simp
        · split at h
          · cases h; simp
          · split at h <;> cases h
            simp only [drainArrival_order, ite_order, clearRegion_order, ite_self]
            split <;> simp

theorem finishCmd_order {core : Nat} {c : MCmd} {s t : State} {f : Word} (h : finishCmd core c s = some (t, f)) : t.order = s.order := by
  unfold finishCmd at h
  split at h
  · split at h <;> cases h
    next hd => exact finishDrain_order hd
  · cases h; rfl

@[simp] theorem sendDrain_order (core k : Nat) (c : MCmd) (dst lkey : Nat) (r : SlotRef) (s : State) : (sendDrain core k c dst lkey r s).order = s.order := by
  unfold sendDrain
  split <;> simp

@[simp] theorem discardCmd_order (core cause : Nat) (c : MCmd) (s : State) : (discardCmd core cause c s).order = s.order := by simp [discardCmd]

@[simp] theorem resetPairs_order (core : Nat) (s : State) : (resetPairs core s).order = s.order := by simp [resetPairs]

/-! ### The request engine -/

@[simp] theorem instUpdate_order (core : Nat) (i : Inst) (f : Bar → Bar) (s : State) : (instUpdate core i f s).order = s.order := by simp [instUpdate]

@[simp] theorem discardArrival_order (core crew : Nat) (sender : Option Inst) (s : State) : (discardArrival core crew sender s).order = s.order := by
  unfold discardArrival
  split <;> simp

@[simp] theorem holdArrival_order (core : Nat) (h : HeldArrival) (sender : Option Inst) (s : State) : (holdArrival core h sender s).order = s.order :=
  by simp [holdArrival]

@[simp] theorem arriveAt_order (core : Nat) (h : HeldArrival) (r : CachedRec) (sender : Option Inst) (s : State) : (arriveAt core h r sender s).order = s.order := by
  unfold arriveAt
  simp only []
  split <;> simp

@[simp] theorem arrival_order (core : Nat) (h : HeldArrival) (sender : Option Inst) (s : State) : (arrival core h sender s).order = s.order := by
  unfold arrival
  split <;> simp

@[simp] theorem recordError_order (core : Nat) (i : Inst) (s : State) : (recordError core i s).order = s.order := by simp [recordError]

@[simp] theorem sendCommand_order (core : Nat) (i : Inst) (s : State) : (sendCommand core i s).order = s.order := by
  unfold sendCommand
  split
  · simp
  · split <;> simp

@[simp] theorem startInst_order (core : Nat) (i : Inst) (s : State) : (startInst core i s).order = s.order := by simp [startInst]

@[simp] theorem withIndex_order (core : Nat) (i : Inst) (n : Nat) (s : State) : (withIndex core i n s).2.order = s.order := by
  unfold withIndex
  simp only []
  split <;> simp

@[simp] theorem touchEnd_order (core ctx : Nat) (s : State) (e : End) : (touchEnd core ctx s e).order = s.order := by
  unfold touchEnd
  split
  · split <;> simp
  · rfl

@[simp] theorem writeEnd_order (core ctx : Nat) (i : Inst) (sec err : Nat) (bs : List Byte) (s : State) (e : End) :
    (writeEnd core ctx i sec err bs s e).order = s.order := by
  unfold writeEnd
  split
  · simp
  · split <;> simp
  · simp
  · rfl

@[simp] theorem landSector_order (core n err : Nat) (rep : Option (Nat × Nat)) (i : Inst) (s : State) : (landSector core n err rep i s).order = s.order := by
  unfold landSector
  split <;> simp

theorem tileWait_order {core ctx : Nat} {who : TileUser} {e : End} {s t : State} (h : tileWait core ctx who e s = some t) : t.order = s.order := by
  unfold tileWait at h
  split at h
  · split at h
    · split at h
      · cases h; simp
      · rw [Option.ite_none_right_eq_some, Option.some.injEq] at h
        obtain ⟨-, rfl⟩ := h
        simp
    · cases h
  · cases h

@[simp] theorem recLaunch_order (core : Nat) (i : Inst) (s : State) : (recLaunch core i s).order = s.order := by
  unfold recLaunch
  simp only []
  split <;> simp

@[simp] theorem instArrival_order (core : Nat) (i : Inst) (s : State) : (instArrival core i s).order = s.order := by simp [instArrival]

@[simp] theorem sendArrivals_order (core : Nat) (i : Inst) (s : State) : (sendArrivals core i s).order = s.order := by simp [sendArrivals]

@[simp] theorem removeInst_order (core : Nat) (i : Inst) (s : State) : (removeInst core i s).order = s.order := by simp [removeInst]

@[simp] theorem takeHeld_order (core : Nat) (s : State) (h : HeldArrival) : (takeHeld core s h).order = s.order := by simp [takeHeld]

@[simp] theorem resumeHeld_order (core crew n : Nat) (s : State) : (resumeHeld core crew n s).order = s.order := by simp [resumeHeld]

@[simp] theorem completeInst_order (core : Nat) (i : Inst) (s : State) : (completeInst core i s).order = s.order := by simp [completeInst]

/-! ### System instructions -/

@[simp] theorem ownTrap_order (u : Use) (S : Mask) (cls : Nat) (info : Word) (ret : Pc) (s : State) : (ownTrap u S cls info ret s).order = s.order :=
  by simp [ownTrap]

@[simp] theorem denState_order (k : Nat) (st : DenState) (s : State) : (denState k st s).order = s.order := by
  unfold denState
  simp only []
  split <;> simp

@[simp] theorem parkAt_order (hint : Nat) (u : Use) (S : Mask) (s : State) : (parkAt hint u S s).order = s.order := by simp [parkAt]

/-! ### Images -/

@[simp] theorem putRange_order (ctx n va : Nat) (bs : List Byte) (s : State) : (putRange ctx n va bs s).order = s.order := by
  induction n generalizing va bs s with
  | zero => rfl
  | succ n ih => unfold putRange; simp [ih]

@[simp] theorem putBytes_order (ctx va : Nat) (bs : List Byte) (s : State) : (putBytes ctx va bs s).order = s.order := putRange_order ..

@[simp] theorem pokeRecord_order (k byte : Nat) (bs : List Byte) (s : State) : (pokeRecord k byte bs s).order = s.order := by
  unfold pokeRecord
  split <;> simp

@[simp] theorem pokeHold_order (k : Nat) (r : Reg) (s : State) : (pokeHold k r s).order = s.order := by simp [pokeHold]

@[simp] theorem pokeWords_order (k : Nat) (vt : Reg) (ws : List Word) (s : State) : (pokeWords k vt ws s).order = s.order := by
  unfold pokeWords
  split <;> simp

@[simp] theorem pokeFlags_order (k : Nat) (f : Word) (s : State) : (pokeFlags k f s).order = s.order := by
  unfold pokeFlags
  split <;> simp

/-! ### Names and deliveries -/

@[simp] theorem onDen_order (i : Nat) (f : DenEntry → DenEntry) (s : State) : (onDen i f s).order = s.order := s.order_fields

@[simp] theorem countPkg_order (code n : Nat) (s : State) : (countPkg code n s).order = s.order := s.order_fields

@[simp] theorem wakeHeld_order (k : Nat) (r : Reg) (s : State) : (wakeHeld k r s).order = s.order := by simp [wakeHeld]

@[simp] theorem unwatch_order (k : Nat) (r : Reg) (n : Word64) (s : State) : (unwatch k r n s).order = s.order := by simp [unwatch]

@[simp] theorem freeWatch_order (k : Nat) (r : Reg) (s : State) : (freeWatch k r s).order = s.order := by
  unfold freeWatch
  split <;> simp

@[simp] theorem poisonReg_order (k : Nat) (r : Reg) (cause : BitVec 2) (s : State) : (poisonReg k r cause s).order = s.order := by simp [poisonReg]

@[simp] theorem wakeSleeper_order (k : Nat) (s : State) : (wakeSleeper k s).order = s.order := by
  unfold wakeSleeper
  split <;> simp

@[simp] theorem land_order (k : Nat) (vt : Reg) (ws : List Word) (s : State) : (land k vt ws s).order = s.order := by simp [land]

@[simp] theorem holdReg_order (vr : Reg) (s : State) : (holdReg vr s).order = s.order := by simp [holdReg]

@[simp] theorem watchReg_order (vr : Reg) (n : Word64) (s : State) : (watchReg vr n s).order = s.order := by simp [watchReg]

@[simp] theorem armReg_order (vr : Reg) (n : Option Word64) (s : State) : (armReg vr n s).order = s.order := by
  unfold armReg
  split <;> simp

@[simp] theorem sendDelivery_order (k : Nat) (d : Delivery) (s : State) : (sendDelivery k d s).order = s.order := by simp [sendDelivery]

@[simp] theorem forgetRefusal_order (d : Delivery) (s : State) : (forgetRefusal d s).order = s.order := s.order_fields

@[simp] theorem noteRefusal_order (d : Delivery) (s : State) : (noteRefusal d s).order = s.order := by simp [noteRefusal]

@[simp] theorem answerAway_order (d : Delivery) (b : Body) (s : State) : (answerAway d b s).order = s.order := by simp [answerAway]

@[simp] theorem refuse_order (k : Nat) (d : Delivery) (s : State) : (refuse k d s).order = s.order := by simp [refuse]

@[simp] theorem answer_order (k : Nat) (d : Delivery) (outcome : Nat) (s : State) : (answer k d outcome s).order = s.order := s.order_fields

@[simp] theorem acknowledge_order (d : Delivery) (outcome : Nat) (s : State) : (acknowledge d outcome s).order = s.order := by simp [acknowledge]

@[simp] theorem poisonWatcher_order (ctx : Nat) (name : Word64) (cause : BitVec 2) (s : State) (w : Watcher) :
    (poisonWatcher ctx name cause s w).order = s.order := by simp [poisonWatcher]

/-! ### Recipes -/

@[simp] theorem quotaDrop_order (ctx n : Nat) (s : State) : (quotaDrop ctx n s).order = s.order := by
  induction n generalizing s with
  | zero => rfl
  | succ n ih =>
    unfold quotaDrop
    simp only []
    split
    · rfl
    · split <;> simp [ih]

@[simp] theorem afterSeal_order (ctx : Nat) (s : State) : (afterSeal ctx s).order = s.order := quotaDrop_order ..

@[simp] theorem sealTile_order (ctx key : Nat) (s : State) : (sealTile ctx key s).order = s.order := by
  unfold sealTile
  simp only []
  split <;> simp

@[simp] theorem pinLine_order (s : State) (line : Nat) : (pinLine s line).order = s.order := by simp [pinLine]

@[simp] theorem pinLines_order (ctx : Nat) (t : TileRef) (s : State) : (pinLines ctx t s).order = s.order := by simp [pinLines]

@[simp] theorem ensureRecord_order (ctx : Nat) (t : TileRef) (s : State) : (ensureRecord ctx t s).2.order = s.order := by
  unfold ensureRecord
  simp only []
  split <;> simp

@[simp] theorem addPin_order (ctx : Nat) (t : TileRef) (s : State) : (addPin ctx t s).order = s.order := by
  simp [addPin]

@[simp] theorem clearTile_order (ctx : Nat) (t : TileRef) (s : State) : (clearTile ctx t s).order = s.order := by simp [clearTile]

@[simp] theorem undoRecipe_order (ctx : Nat) (t : TileRef) (accepted : Bool) (s : State) : (undoRecipe ctx t accepted s).order = s.order := by
  unfold undoRecipe
  split <;> simp

@[simp] theorem putRecipe_order (ctx key : Nat) (f : Recipe → Recipe) (s : State) : (putRecipe ctx key f s).order = s.order := s.order_fields

@[simp] theorem refuseRecipe_order (ctx : Nat) (t : TileRef) (s : State) : (refuseRecipe ctx t s).order = s.order := by
  simp [refuseRecipe]

@[simp] theorem attachRecipe_order (ctx : Nat) (b : Block) (slice : Nat) (arg : Word) (core d : Nat) (pool : Nat × Nat) (s : State) :
    (attachRecipe ctx b slice arg core d pool s).order = s.order := by
  simp [attachRecipe]

@[simp] theorem startSlice_order (ctx key core level : Nat) (e : Recipe) (s : State) : (startSlice ctx key core level e s).order = s.order := by
  simp [startSlice]

@[simp] theorem takeAll_order (ctx key : Nat) (e : Recipe) (s : State) : (takeAll ctx key e s).order = s.order := by simp [takeAll]

@[simp] theorem dropSlice_order (k : Nat) (s : State) : (dropSlice k s).order = s.order := by simp [dropSlice]

@[simp] theorem failTile_order (ctx key : Nat) (t : TileRef) (f : Recipe → Recipe) (s : State) : (failTile ctx key t f s).order = s.order :=
  by simp [failTile]

@[simp] theorem tileError_order (ctx : Nat) (e : Recipe) (s : State) : (tileError ctx e s).order = s.order := s.order_fields

@[simp] theorem hitTile_order (ctx rcp : Nat) (s : State) : (hitTile ctx rcp s).order = s.order := by
  unfold hitTile
  split
  · simp
  · split <;> simp

@[simp] theorem freeTile_order (ctx key : Nat) (s : State) : (freeTile ctx key s).order = s.order := by simp [freeTile]

/-! ### Remote accesses -/

@[simp] theorem sendRemote_order (kind : Nat) (dst : Nat) (b : Body) (s : State) : (sendRemote kind dst b s).order = s.order := by simp [sendRemote]

@[simp] theorem moreRemote_order (n : Nat) (s : State) : (moreRemote n s).order = s.order := by simp [moreRemote]

@[simp] theorem gotThread_order (grp load thr : Nat) (bs : List Byte) (s : State) (bad : Bool := false) :
    (gotThread grp load thr bs s bad).order = s.order := by simp [gotThread]

@[simp] theorem failRemote_order (grp load : Nat) (thrs : Mask) (cls cause : Nat) (pc : Pc) (va : Nat) (s : State) :
    (failRemote grp load thrs cls cause pc va s).order = s.order := by simp [failRemote]

@[simp] theorem remoteDone_order (grp dst copy : Nat) (s : State) : (remoteDone grp dst copy s).order = s.order := by simp [remoteDone]

@[simp] theorem loseWatch_order (grp : Nat) (r : Reg) (s : State) : (loseWatch grp r s).order = s.order := by simp [loseWatch]

@[simp] theorem loseDelivery_order (k : Nat) (s : State) : (loseDelivery k s).order = s.order := by
  unfold loseDelivery
  split <;> simp

@[simp] theorem sectorAnswered_order (w : SlotWrite) (sec err cause : Nat) (s : State) : (sectorAnswered w sec err cause s).order = s.order :=
  by simp [sectorAnswered]

@[simp] theorem slotWritten_order (piece cause va : Nat) (s : State) : (slotWritten piece cause va s).order = s.order := by
  unfold slotWritten
  split
  · simp
  · split <;> simp

@[simp] theorem linkAnswer_order (src ctx lkey op who : Nat) (val : List Nat) (s : State) : (linkAnswer src ctx lkey op who val s).order = s.order := by
  unfold linkAnswer
  split
  · simp
  · split
    · simp
    · split
      · simp only []
        split <;> simp
      · split <;> simp

@[simp] theorem reportLink_order (grp : Nat) (s : State) : (reportLink grp s).order = s.order := by simp [reportLink]

@[simp] theorem reportPipe_order (ctx lkey : Nat) (s : State) : (reportPipe ctx lkey s).order = s.order := by simp [reportPipe]

@[simp] theorem failLinkReq_order (p : Packet) (lkey op who : Nat) (s : State) : (failLinkReq p lkey op who s).order = s.order := by
  unfold failLinkReq
  split
  · simp
  · split
    · split <;> simp
    · simp

@[simp] theorem failData_order (lkey piece : Nat) (p : Packet) (s : State) : (failData lkey piece p s).order = s.order := by
  unfold failData
  split
  · simp
  · split <;> simp

@[simp] theorem failPacket_order (cause : Nat) (p : Packet) (s : State) : (failPacket cause p s).order = s.order := by
  unfold failPacket
  split <;> simp

@[simp] theorem freeCopy_order (dst : Nat) (c : Copy) (s : State) : (freeCopy dst c s).order = s.order := by
  unfold freeCopy
  split <;> simp

@[simp] theorem failCopy_order (cause dst : Nat) (c : Copy) (s : State) : (failCopy cause dst c s).order = s.order := by simp [failCopy]

/-! ### The fabric -/

/-- The state that an application leaves, whether it has happened or waits. -/
def Applied.state : Applied → State
  | .ok t | .error t => t
@[simp] theorem Applied.state_ok (t : State) : Applied.state (.ok t) = t := rfl
@[simp] theorem Applied.state_error (t : State) : Applied.state (.error t) = t := rfl

@[simp] theorem respond_order (p : Packet) (b : Body) (s : State) : (respond p b s).order = s.order := by simp [respond]

@[simp] theorem respondFault_order (p : Packet) (grp load thrs cls cause pc va : Nat) (s : State) :
    (respondFault p grp load thrs cls cause pc va s).order = s.order := by simp [respondFault]

theorem remoteTile_order {s t : State} {ctx va : Nat} {who : TileUser} {x : Xlat} (h : remoteTile s ctx va who x = some t) : t.order = s.order := by
  unfold remoteTile at h
  split at h
  · split at h
    · cases h; simp
    · rw [Option.ite_none_right_eq_some, Option.some.injEq] at h
      obtain ⟨-, rfl⟩ := h
      simp
  · cases h

@[simp] theorem applyRld_order (p : Packet) (grp load thr va size : Nat) (s : State) : (applyRld p grp load thr va size s).state.order = s.order := by
  unfold applyRld
  split
  · simp
  · split
    · next h => simp [remoteTile_order h]
    · simp

@[simp] theorem applyWrite_order (pa : Nat) (bs : List Byte) (x : Xlat) (s : State) : (applyWrite pa bs x s).state.order = s.order := by
  unfold applyWrite
  split
  · simp
  · split <;> simp
theorem order_of_applyWrite_ok {pa : Nat} {bs : List Byte} {x : Xlat} {s t : State} (h : applyWrite pa bs x s = .ok t) : t.order = s.order := by
  rw [← applyWrite_order pa bs x s, h, Applied.state_ok]
theorem order_of_applyWrite_error {pa : Nat} {bs : List Byte} {x : Xlat} {s t : State} (h : applyWrite pa bs x s = .error t) : t.order = s.order := by
  rw [← applyWrite_order pa bs x s, h, Applied.state_error]

@[simp] theorem applyRst_order (p : Packet) (va : Nat) (bs : List Byte) (grp pc thrs : Nat) (s : State) :
    (applyRst p va bs grp pc thrs s).state.order = s.order := by
  unfold applyRst
  split
  · simp
  · split <;> simp

@[simp] theorem applyRatom_order (p : Packet) (grp load thr va : Nat) (op : AOp) (x y : Word64) (fmt : Word) (pc : Nat) (s : State) :
    (applyRatom p grp load thr va op x y fmt pc s).state.order = s.order := by
  unfold applyRatom
  split
  · simp
  · simp only []
    split
    · next h => simp [remoteTile_order h]
    · split
      · simp
      · split
        · next h => simp [order_of_applyWrite_ok h]
        · next h => simp [order_of_applyWrite_error h]

@[simp] theorem enterHalves_order (p : Packet) (va pa : Nat) (op : AOp) (x : Word64) (fmt : Word) (thrs : Nat) (s : State) :
    (enterHalves p va pa op x fmt thrs s).order = s.order := s.order_fields

@[simp] theorem applyRred_order (p : Packet) (va : Nat) (op : AOp) (x : Word64) (fmt : Word) (grp pc thrs : Nat) (s : State) :
    (applyRred p va op x fmt grp pc thrs s).state.order = s.order := by
  unfold applyRred
  split
  · split <;> simp
  · split
    · simp
    · split
      · simp
      · split <;> simp

@[simp] theorem applyRegput_order (p : Packet) (name : Word64) (vt tag : Nat) (ws : List Word) (k grp : Nat) (s : State) :
    (applyRegput p name vt tag ws k grp s).order = s.order := s.order_fields

@[simp] theorem applyWatch_order (p : Packet) (name : Word64) (grp reg : Nat) (on : Bool) (s : State) :
    (applyWatch p name grp reg on s).order = s.order := by simp [applyWatch]

@[simp] theorem applyPoison_order (name : Word64) (grp reg cause : Nat) (s : State) : (applyPoison name grp reg cause s).state.order = s.order := by
  unfold applyPoison
  simp only []
  split
  · simp
  · split <;> simp

@[simp] theorem commitLinked_order (plan j : Nat) (pl : Plan) (q : Pipe) (r : SlotRef) (s : State) : (commitLinked plan j pl q r s).order = s.order :=
  by simp [commitLinked]

@[simp] theorem relayLinked_order (ctx lkey : Nat) (depth : Bool) (s : State) : (relayLinked ctx lkey depth s).order = s.order := by simp [relayLinked]

@[simp] theorem ite_applied_state {c : Prop} [Decidable c] (a b : Applied) : (if c then a else b).state = if c then a.state else b.state := apply_ite ..

@[simp] theorem applyLinkReq_order (p : Packet) (lkey op who slot : Nat) (s : State) : (applyLinkReq p lkey op who slot s).state.order = s.order := by
  unfold applyLinkReq
  split
  · simp
  · split <;> simp

@[simp] theorem applyLinkData_order (p : Packet) (lkey slot off piece : Nat) (bs : List Byte) (s : State) :
    (applyLinkData p lkey slot off piece bs s).state.order = s.order := by
  unfold applyLinkData
  split
  · simp
  · simp only []
    split
    · simp
    · split
      · simp
      · split
        · next h => simp [order_of_applyWrite_ok h]
        · next h => simp [order_of_applyWrite_error h]

@[simp] theorem applyBody_order (p : Packet) (s : State) : (applyBody p s).state.order = s.order := by
  unfold applyBody
  cases p.body
  case denAck | denRefuse =>
    simp only []
    split <;> simp
  all_goals simp

@[simp] theorem accept_order (p : Packet) (s : State) : (accept p s).order = s.order := by simp [accept]

@[simp] theorem ackPacket_order (dst seq : Nat) (s : State) : (ackPacket dst seq s).order = s.order := by
  unfold ackPacket
  split <;> simp

@[simp] theorem denyPacket_order (dst seq : Nat) (s : State) : (denyPacket dst seq s).order = s.order := by
  unfold denyPacket
  split <;> simp

@[simp] theorem onPort_order (k : Nat) (f : Port → Port) (s : State) : (onPort k f s).order = s.order := s.order_fields

@[simp] theorem failAnswer_order (b : Body) (s : State) : (failAnswer b s).order = s.order := by
  unfold failAnswer
  split <;> simp

@[simp] theorem deliver_order (checked : Bool) (p : Packet) (s : State) : (deliver checked p s).state.order = s.order := by
  unfold deliver
  split
  · simp
  · simp
  · simp only []
    split
    · simp
    · split
      · simp
      · split
        · simp
        · have h := applyBody_order p s
          split <;> next ha => simpa [ha] using h

@[simp] theorem headerError_order (port : Nat) (bad : Bool) (s : State) : (headerError port bad s).order = s.order := s.order_fields

theorem checkHeader_order {port : Nat} {p : Packet} {s t : State} (h : checkHeader port p s = some t) : t.order = s.order := by
  unfold checkHeader at h
  split at h
  · cases h
  · split at h <;> cases h <;> simp

@[simp] theorem keepPacket_order (p : Packet) (s : State) : (keepPacket p s).order = s.order := by simp [keepPacket]

@[simp] theorem takePacket_order (p : Packet) (s : State) : (takePacket p s).order = s.order := by
  unfold takePacket
  split
  · simp
  · have h := deliver_order true p s
    split <;> next hd => simpa [hd] using h

@[simp] theorem retryParked_order (src seq : Nat) (s : State) : (retryParked src seq s).order = s.order := by
  unfold retryParked
  split <;> simp

@[simp] theorem retryTransit_order (src dst seq : Nat) (s : State) : (retryTransit src dst seq s).order = s.order := by
  unfold retryTransit
  split <;> simp

@[simp] theorem freeBuffer_order (port : Nat) (p : Packet) (s : State) : (freeBuffer port p s).order = s.order := s.order_fields

@[simp] theorem receiveFrom_order (port : Nat) (p : Packet) (s : State) : (receiveFrom port p s).order = s.order := by
  unfold receiveFrom
  split
  · rfl
  · split
    · simp
    · next h => simp [checkHeader_order h]

@[simp] theorem resend_order (dst : Nat) (c : Copy) (n : Nat) (s : State) : (resend dst c n s).order = s.order := s.order_fields

@[simp] theorem reroute_order (dst : Nat) (detour : Option Nat) (s : State) : (reroute dst detour s).order = s.order := by simp [reroute]

@[simp] theorem returnBuf_order (port vc : Nat) (s : State) : (returnBuf port vc s).order = s.order := by simp [returnBuf]

@[simp] theorem replayLink_order (port : Nat) (s : State) : (replayLink port s).order = s.order := by simp [replayLink]

@[simp] theorem hearLink_order (a b : Nat) (up : Bool) (s : State) : (hearLink a b up s).order = s.order := s.order_fields

/-! ### Crews -/

@[simp] theorem onPlan_order (k : Nat) (f : Plan → Plan) (s : State) : (onPlan k f s).order = s.order := by
  unfold onPlan
  split <;> simp

@[simp] theorem onCore_order (k : Nat) (f : Core → Core) (s : State) : (onCore k f s).order = s.order := by simp [onCore]

@[simp] theorem takeIndex_order (s : State) : (takeIndex s).2.order = s.order := by
  unfold takeIndex
  split <;> rfl

@[simp] theorem takeName_order (s : State) (k : Nat) : (takeName s k).order = s.order := by
  simp [takeName]

@[simp] theorem takeNames_order (crew : Nat) (s : State) : (takeNames crew s).order = s.order := by simp [takeNames]

@[simp] theorem tellLive_order (plan stage : Nat) (s : State) : (tellLive plan stage s).order = s.order := by
  unfold tellLive
  split <;> simp

@[simp] theorem startCrew_order (plan stage core c weight : Nat) (s : State) : (startCrew plan stage core c weight s).order = s.order := by
  unfold startCrew
  split <;> simp

@[simp] theorem startOn_order (plan stage core : Nat) (weights : List Nat) (s : State) : (startOn plan stage core weights s).order = s.order := by
  unfold startOn
  split <;> simp

@[simp] theorem sendVector_order (fn v : Nat) (s : State) : (sendVector fn v s).order = s.order := s.order_fields

@[simp] theorem writeStatus_order (ctx stat q : Nat) (bs : List Byte) (s : State) : (writeStatus ctx stat q bs s).order = s.order := by
  unfold writeStatus
  simp only []
  split
  · next h => split <;> simp [writeVirtual_order h]
  · simp

@[simp] theorem planStatus_order (code : Nat) (p : Plan) (s : State) : (planStatus code p s).order = s.order := by
  unfold planStatus
  split <;> simp

@[simp] theorem freeRange_order (ctx va n : Nat) (s : State) : (freeRange ctx va n s).order = s.order := by simp [freeRange]

@[simp] theorem closePipe_order (ctx : Nat) (s : State) (q : Pipe) : (closePipe ctx s q).order = s.order := by simp [closePipe]

@[simp] theorem completePlan_order (plan : Nat) (p : Plan) (s : State) : (completePlan plan p s).order = s.order := by simp [completePlan]

@[simp] theorem returnWeight_order (plan w d : Nat) (s : State) : (returnWeight plan w d s).order = s.order := by simp [returnWeight]

@[simp] theorem requestSave_order (core : Nat) (move : Bool) (s : State) : (requestSave core move s).order = s.order := by
  unfold requestSave
  simp only []
  split
  · simp
  · split
    · simp
    · split <;> simp

@[simp] theorem requestMoves_order (s : State) : (requestMoves s).order = s.order := by
  refine foldl_order (fun t e => ?_) ..
  split <;> simp

@[simp] theorem requestTeardowns_order (s : State) : (requestTeardowns s).order = s.order := by simp [requestTeardowns]

@[simp] theorem dropImages_order (ctx : Nat) (f : Image → Bool) (s : State) : (dropImages ctx f s).order = s.order := by simp [dropImages]

@[simp] theorem freeImage_order (ctx id : Nat) (s : State) : (freeImage ctx id s).order = s.order := by simp [freeImage]

@[simp] theorem reportQueued_order (s : State) (k : Nat) : (reportQueued s k).order = s.order := by simp [reportQueued]

@[simp] theorem reportEnded_order (s : State) (k : Nat) : (reportEnded s k).order = s.order := by simp [reportEnded]

@[simp] theorem reportLmask_order (s : State) (k : Nat) : (reportLmask s k).order = s.order := by simp [reportLmask]

@[simp] theorem discardInst_order (core : Nat) (s : State) (i : Inst) : (discardInst core s i).order = s.order := by simp [discardInst]

@[simp] theorem returnReserved_order (plan : Nat) (s : State) (e : Nat × SlotRef) : (returnReserved plan s e).order = s.order := by
  unfold returnReserved
  split <;> simp

@[simp] theorem releaseTaken_order (plan crew : Nat) (s : State) (e : Nat × SlotRef) : (releaseTaken plan crew s e).order = s.order :=
  by simp [releaseTaken]

@[simp] theorem closeProduced_order (plan stage : Nat) (s : State) : (closeProduced plan stage s).order = s.order := by
  unfold closeProduced
  split <;> simp

@[simp] theorem vacateCore_order (core : Nat) (s : State) : (vacateCore core s).order = s.order := by
  unfold vacateCore
  simp only []
  split
  · simp
  · split <;> simp

@[simp] theorem removeCrew_order (crew : Nat) (discard : Bool) (s : State) : (removeCrew crew discard s).order = s.order := by simp [removeCrew]

@[simp] theorem exitReports_order (k : Nat) (c : Crew) (res taken : Nat) (s : State) : (exitReports k c res taken s).order = s.order :=
  by simp [exitReports]

@[simp] theorem exitCrew_order (k : Nat) (c : Crew) (s : State) : (exitCrew k c s).order = s.order := by simp [exitCrew]

/-! ### Saves and restores -/

@[simp] theorem stopGroup_order (s : State) (k : Nat) : (stopGroup s k).order = s.order := by
  unfold stopGroup
  simp only []
  split <;> simp

@[simp] theorem writeRecord_order (ctx va saved : Nat) (s : State) (k : Nat) : (writeRecord ctx va saved s k).order = s.order := by simp [writeRecord]

@[simp] theorem writeRecords_order (ctx : Nat) (full : Bool) (ks : List Nat) (va : Nat) (s : State) : (writeRecords ctx full ks va s).order = s.order := by
  induction ks generalizing va s with
  | nil => rfl
  | cons k ks ih => unfold writeRecords; simp [ih]

@[simp] theorem writeImage_order (core : Nat) (full : Bool) (im : Image) (s : State) : (writeImage core full im s).order = s.order := by
  simp [writeImage]

@[simp] theorem endSaved_order (s : State) (g : Nat) : (endSaved s g).order = s.order := by simp [endSaved]

@[simp] theorem endSavedCrew_order (s : State) (k : Nat) : (endSavedCrew s k).order = s.order := by simp [endSavedCrew]

@[simp] theorem endImage_order (ctx : Nat) (im : Image) (s : State) : (endImage ctx im s).order = s.order := by simp [endImage]

@[simp] theorem saveCore_order (core : Nat) (v : Saving) (im : Image) (s : State) : (saveCore core v im s).order = s.order := by
  unfold saveCore
  simp only []
  split <;> simp

@[simp] theorem restoreGroup_order (core lane slot : Nat) (s : State) (k : Nat) : (restoreGroup core lane slot s k).order = s.order := by
  unfold restoreGroup
  simp only []
  split <;> simp

@[simp] theorem restoreGroups_order (core per : Nat) (gs : List Nat) (s : State) : (restoreGroups core per gs s).order = s.order := by simp [restoreGroups]

@[simp] theorem restoreImage_order (ctx : Nat) (im : Image) (p : Plan) (core : Nat) (s : State) : (restoreImage ctx im p core s).order = s.order :=
  by simp [restoreImage]

@[simp] theorem beginRestore_order (ctx : Nat) (im : Image) (core : Nat) (s : State) : (beginRestore ctx im core s).order = s.order :=
  by simp [beginRestore]

/-! ### Plans -/

@[simp] theorem refuseLinks_order (plan : Nat) (s : State) (j : Nat) : (refuseLinks plan s j).order = s.order := by
  unfold refuseLinks
  split <;> simp

@[simp] theorem afterClose_order (plan : Nat) (s : State) (j : Nat) : (afterClose plan s j).order = s.order := by
  unfold afterClose
  split <;> simp

@[simp] theorem orderlyDrain_order (plan : Nat) (s : State) : (orderlyDrain plan s).order = s.order := by
  unfold orderlyDrain
  split <;> simp

@[simp] theorem dropSlotRecipes_order (ctx : Nat) (s : State) (q : Pipe) : (dropSlotRecipes ctx s q).order = s.order := by
  unfold dropSlotRecipes
  split
  · rfl
  · refine foldl_order (fun t r => ?_) ..
    split <;> simp

@[simp] theorem returnLinked_order (plan : Nat) (s : State) : (returnLinked plan s).order = s.order := by
  unfold returnLinked
  split
  · rfl
  · refine foldl_order (fun t e => ?_) ..
    split <;> simp

@[simp] theorem forcedDrain_order (plan : Nat) (tdown : Bool) (s : State) : (forcedDrain plan tdown s).order = s.order := by
  unfold forcedDrain
  split <;> simp

@[simp] theorem endLive_order (s : State) (k : Nat) : (endLive s k).order = s.order := by simp [endLive]

@[simp] theorem endCrew_order (s : State) (k : Nat) : (endCrew s k).order = s.order := by simp [endCrew]

@[simp] theorem askFills_order (plan : Nat) (p : Plan) (s : State) : (askFills plan p s).order = s.order := by simp [askFills]

@[simp] theorem startMoved_order (plan recv n : Nat) (s : State) (core : Nat) : (startMoved plan recv n s core).order = s.order := by simp [startMoved]

@[simp] theorem deadlockFault_order (plan : Nat) (s : State) : (deadlockFault plan s).order = s.order := by
  unfold deadlockFault
  split
  · simp
  · split <;> simp

@[simp] theorem growSlot_order (plan j : Nat) (s : State) : (growSlot plan j s).order = s.order := by simp [growSlot]

/-! ### Launches -/

@[simp] theorem onQueue_order (q : Nat) (f : Queue → Queue) (s : State) : (onQueue q f s).order = s.order := s.order_fields

@[simp] theorem takeTail_order (fn page : Nat) (v : Word) (s : State) : (takeTail fn page v s).order = s.order := by
  unfold takeTail
  split <;> simp

@[simp] theorem onFunc_order (fn : Nat) (f : Func → Func) (s : State) : (onFunc fn f s).order = s.order := s.order_fields

@[simp] theorem windowError_order (fn : Nat) (s : State) : (windowError fn s).order = s.order := s.order_fields

@[simp] theorem windowSector_order (fn ctx : Nat) (s : State) (e : Nat × List Byte) : (windowSector fn ctx s e).order = s.order := by
  unfold windowSector
  split <;> simp

theorem postSectors_order (fn ctx : Nat) (ps : List (Nat × List Byte)) (s : State) : (postSectors fn ctx ps s).2.order = s.order := by
  induction ps generalizing s with
  | nil => rfl
  | cons e es ih => unfold postSectors; split <;> simp [ih]

@[simp] theorem servePost_order (s : State) (x : Posted) : (servePost s x).order = s.order := by
  unfold servePost
  split
  · simp
  · split
    · simp
    · split
      · rfl
      · next ctx _ =>
        have h := postSectors_order x.fn ctx x.pieces s
        split <;> next hp => simpa [hp] using h

@[simp] theorem servePosted_order (s : State) : (servePosted s).order = s.order := by simp [servePosted]

@[simp] theorem post_order (x : Posted) (s : State) : (post x s).order = s.order := by simp [post]

@[simp] theorem retirePacket_order (q : Nat) (s : State) : (retirePacket q s).order = s.order := s.order_fields

@[simp] theorem releaseHeld_order (id : Nat) (s : State) : (releaseHeld id s).order = s.order := by simp [releaseHeld]

@[simp] theorem endPacket_order (q stat : Nat) (code : Nat) (tag : Word) (s : State) : (endPacket q stat code tag s).order = s.order := by simp [endPacket]

@[simp] theorem disableQueue_order (q : Nat) (s : State) : (disableQueue q s).order = s.order := s.order_fields

theorem withStat_order {q p : Nat} {s k : State} (h : k.order = s.order) : (withStat q p s k).order = s.order := by
  unfold withStat
  split
  · simp
  · exact h

@[simp] theorem objectOf_order (s : State) (ctx table : Nat) : (objectOf s ctx table).2.order = s.order := by
  unfold objectOf
  split <;> simp

@[simp] theorem readLaunch_order (q p : Nat) (s : State) : (readLaunch q p s).order = s.order := by
  unfold readLaunch
  simp only []
  split
  · simp
  · split
    · simp
    · split <;> simp

@[simp] theorem drainTagged_order (ctx : Nat) (tag : Word) (forced : Bool) (s : State) : (drainTagged ctx tag forced s).order = s.order :=
  by simp [drainTagged]

@[simp] theorem dropXlats_order (v : Inval) (s : State) : (dropXlats v s).order = s.order := by simp [dropXlats]

@[simp] theorem startInval_order (v : Inval) (s : State) : (startInval v s).order = s.order := by simp [startInval]

@[simp] theorem wakeLaunches_order (core : Nat) (s : State) : (wakeLaunches core s).order = s.order := by simp [wakeLaunches]

@[simp] theorem keepPending_order (core : Nat) (keep : Pending → Bool) (s : State) : (keepPending core keep s).order = s.order := by simp [keepPending]

@[simp] theorem popPending_order (core : Nat) (s : State) : (popPending core s).order = s.order := by simp [popPending]

@[simp] theorem failChild_order (core parent : Nat) (s : State) : (failChild core parent s).order = s.order := by simp [failChild]

@[simp] theorem dropBad_order (core n : Nat) (s : State) : (dropBad core n s).order = s.order := by
  induction n generalizing s with
  | zero => rfl
  | succ n ih => unfold dropBad; split <;> simp [ih]

@[simp] theorem dropBadChildren_order (s : State) : (dropBadChildren s).order = s.order := foldl_order (fun _ _ => dropBad_order ..) ..

@[simp] theorem preempt_order (c : Cand) (s : State) : (preempt c s).order = s.order := by simp [preempt]

@[simp] theorem placePipe_order (ctx : Nat) (q : Pipe) (x : PipePlace) (s : State) : (placePipe ctx q x s).2.order = s.order := by
  simp [placePipe]

theorem placePipes_order {ctx : Nat} {qs rs : List Pipe} {xs ys : List PipePlace} {s t : State} (h : placePipes ctx qs xs s = some (rs, ys, t)) :
    t.order = s.order := by
  induction qs generalizing rs xs ys s t with
  | nil => cases h; rfl
  | cons q qs ih =>
    unfold placePipes at h
    split at h
    · obtain ⟨⟨r, y, u⟩, hu, he⟩ := Option.map_eq_some_iff.mp h
      cases he
      exact ih hu
    · split at h
      · cases h
      · split at h
        · cases h
        · simp only [] at h
          split at h
          · next hp =>
            split at h <;> cases h
            exact (ih hp).trans (placePipe_order ..)
          · cases h

@[simp] theorem startCrews_order (plan tw total : Nat) (l : List (Nat × Nat × Nat)) (k : Nat) (s : State) : (startCrews plan tw total l k s).order = s.order := by
  induction l generalizing k s with
  | nil => rfl
  | cons e l ih => unfold startCrews; simp [ih]

@[simp] theorem startPlan_order (p : Plan) (s : State) : (startPlan p s).order = s.order := startCrews_order ..

@[simp] theorem leaveQueue_order (c : Cand) (s : State) : (leaveQueue c s).order = s.order := by simp [leaveQueue]

@[simp] theorem failCand_order (c : Cand) (code : Nat) (s : State) : (failCand c code s).order = s.order := by simp [failCand]

@[simp] theorem dispatchCand_order (c : Cand) (places : List PipePlace) (s : State) : (dispatchCand c places s).2.order = s.order := by
  unfold dispatchCand
  split
  · simp
  · split
    · simp
    · next h => simp [placePipes_order h]

@[simp] theorem selectOne_order (a : Select) (c : Cand) : (selectOne a c).s.order = a.s.order := by
  unfold selectOne
  split
  · rfl
  · simp only []
    split <;> simp

/-! ### The host port -/

/-- The state that a read of a host leaves, whether it has been answered or waits. -/
def readState {α : Type} : Except State (α × State) → State
  | .ok (_, t) | .error t => t
@[simp] theorem readState_ok {α : Type} (x : α) (t : State) : readState (.ok (x, t)) = t := rfl
@[simp] theorem readState_error {α : Type} (t : State) : readState (α := α) (.error t) = t := rfl
theorem readSector_order (s : State) (id ctx : Nat) (e : Nat × List Byte) : (readState (readSector s id ctx e)).order = s.order := by
  unfold readSector
  split
  · rfl
  · split
    · next h => simp [remoteTile_order h]
    · simp

theorem readSectors_order (id ctx : Nat) (es : List (Nat × List Byte)) (s : State) : (readState (readSectors id ctx es s)).order = s.order := by
  induction es generalizing s with
  | nil => rfl
  | cons e es ih =>
    have h := readSector_order s id ctx e
    unfold readSectors
    split
    · next he => rwa [he] at h
    · next he => rwa [he] at h
    · next bs t he =>
      rw [he] at h
      have ht := (ih t).trans h
      split
      · next hr => rwa [hr] at ht
      · exact ht

@[simp] theorem answerRead_order (fn : Nat) (abort : Bool) (bs : List Byte) (s : State) : (answerRead fn abort bs s).order = s.order := s.order_fields

@[simp] theorem readBar_order (fn bar off len : Nat) (s : State) : (readBar fn bar off len s).order = s.order := s.order_fields

@[simp] theorem serveRead_order (s : State) (r : HostRead) : (serveRead s r).order = s.order := by
  unfold serveRead
  simp only []
  split
  · simp
  · split
    · simp
    · next ctx _ =>
      have h := readSectors_order r.id ctx (sectorPieces (r.len + 1) r.va (List.replicate r.len 0)) s
      split <;> next hr => rw [hr] at h; simpa using h

@[simp] theorem serveReads_order (s : State) : (serveReads s).order = s.order := by simp [serveReads]

@[simp] theorem serveHost_order (s : State) : (serveHost s).order = s.order := by simp [serveHost]

@[simp] theorem finishCommand_order (fn code result value : Nat) (s : State) : (finishCommand fn code result value s).order = s.order := s.order_fields

@[simp] theorem onCtx_order (c : Nat) (f : Context → Context) (s : State) : (onCtx c f s).order = s.order := s.order_fields

@[simp] theorem zeroCounters_order (ctx : Nat) (s : State) : (zeroCounters ctx s).order = s.order := s.order_fields

@[simp] theorem abandonSave_order (s : State) (core : Nat) : (abandonSave s core).order = s.order := by
  unfold abandonSave
  simp only []
  split <;> simp

@[simp] theorem disableQueues_order (ctx : Nat) (s : State) : (disableQueues ctx s).order = s.order := by simp [disableQueues]

@[simp] theorem failChildren_order (ctx : Nat) (s : State) : (failChildren ctx s).order = s.order := by simp [failChildren]

@[simp] theorem beginTeardown_order (ctx : Nat) (s : State) : (beginTeardown ctx s).order = s.order := by simp [beginTeardown]

@[simp] theorem wipeFrames_order (frames : List (Nat × Nat)) (s : State) : (wipeFrames frames s).order = s.order := s.order_fields

@[simp] theorem reportLeft_order (ctx : Nat) (s : State) : (reportLeft ctx s).order = s.order := by simp [reportLeft]

@[simp] theorem writeFinals_order (ctx : Nat) (s : State) : (writeFinals ctx s).order = s.order := by simp [writeFinals]

@[simp] theorem endTeardown_order (ctx : Nat) (s : State) : (endTeardown ctx s).order = s.order := by
  simp [endTeardown]

@[simp] theorem stepTeardown_order (ctx : Nat) (s : State) : (stepTeardown ctx s).order = s.order := by simp [stepTeardown]

/-! ### Errors, reset and power -/

@[simp] theorem markCore_order (core : Nat) (s : State) : (markCore core s).order = s.order := by simp [markCore]

@[simp] theorem l1Error_order (core line : Nat) (s : State) : (l1Error core line s).order = s.order := by
  unfold l1Error
  split
  · rfl
  · split
    · simp
    · split <;> simp

@[simp] theorem regError_order (core addr : Nat) (s : State) : (regError core addr s).order = s.order := by
  unfold regError
  simp only []
  split <;> simp

@[simp] theorem tableError_order (which addr : Nat) (s : State) : (tableError which addr s).order = s.order := by
  unfold tableError
  split
  · simp
  · split <;> simp

@[simp] theorem sectorError_order (addr : Nat) (s : State) : (sectorError addr s).order = s.order := by simp [sectorError]

@[simp] theorem badError_order (st : Struct) (core addr : Nat) (s : State) : (badError st core addr s).order = s.order := by
  unfold badError
  split <;> simp

theorem noWorse_resetPackage_order (s : State) : NoWorse s.order (resetPackage s).order :=
  ⟨fun _ => List.Pairwise.nil, fun h => List.pairwise_map.mpr (h.filter _)⟩

theorem noWorse_wipeAll_order (s : State) : NoWorse s.order (wipeAll s).order := ⟨fun _ => List.Pairwise.nil, rising_mapT.mpr⟩

@[simp] theorem fenceCores_order (failed : List Nat) (s : State) : (fenceCores failed s).order = s.order := by simp [fenceCores]

@[simp] theorem openMailboxes_order (all : Bool) (s : State) : (openMailboxes all s).order = s.order := by simp [openMailboxes]

theorem noWorse_bringUp_order (measured : Bool) (pkg : Nat) (failed : List Nat) (s : State) : NoWorse s.order (bringUp measured pkg failed s).order := by
  simpa [bringUp] using noWorse_wipeAll_order s

theorem noWorse_tripPackage_order (s : State) : NoWorse s.order (tripPackage s).order :=
  noWorse_resetPackage_order _

@[simp] theorem reopenMailboxes_order (s : State) : (reopenMailboxes s).order = s.order := foldl_order (fun _ _ => onFunc_order ..) ..

/-! ### Time -/

@[simp] theorem payDebts_order (n : Nat) (ks : List Nat) (s : State) : (payDebts n ks s).2.order = s.order := by
  refine foldl_kept (fun r : _ × State => r.2.order) (fun r k => ?_) ..
  simp only []
  split <;> simp

@[simp] theorem payIdle_order (n : Nat) (ks : List Nat) (s : State) : (payIdle n ks s).2.order = s.order := by
  refine foldl_kept (fun r : _ × State => r.2.order) (fun r k => ?_) ..
  simp only []
  split <;> simp

@[simp] theorem heldOn_order (n core lane : Nat) (s : State) : (heldOn n core lane s).order = s.order := by
  unfold heldOn
  split <;> simp

@[simp] theorem chargeLane_order (n core lane : Nat) (s : State) : (chargeLane n core lane s).order = s.order := by
  unfold chargeLane
  simp only []
  split
  · simp
  · split <;> simp

@[simp] theorem chargeCore_order (n core : Nat) (s : State) : (chargeCore n core s).order = s.order := by simp [chargeCore]

@[simp] theorem ageGroups_order (n : Nat) (s : State) : (ageGroups n s).order = s.order := by simp [ageGroups]

@[simp] theorem drainBanks_order (n : Nat) (s : State) : (drainBanks n s).order = s.order := by simp [drainBanks]

@[simp] theorem selectNothing_order (lanes : List (Nat × Nat)) (s : State) : (selectNothing lanes s).order = s.order := by simp [selectNothing]

@[simp] theorem passTime_order (ns : Nat) (s : State) : (passTime ns s).order = s.order := by simp [passTime]

@[simp] theorem letTime_order (n : Nat) (s : State) : (letTime n s).order = s.order := by
  induction n generalizing s with
  | zero => rfl
  | succ n ih =>
    unfold letTime
    split
    · rfl
    · split <;> simp [ih]

end Sys2Proof.Machine
end

section
/-! PROOFS. What an instruction, an event or a step goes on with has its tables in order if the state before had (R4, R194). -/
namespace Sys2Proof.Machine

/-- The order of the tables of a state that an outcome goes on with is no worse than `o`; a stop has no next state. -/
structure KeepsOrder (o : Prop × Prop) (r : Res) : Prop where
  noWorse : ∀ t, r = .next t → NoWorse o t.order

@[simp] theorem keepsOrder_next {o : Prop × Prop} {t : State} : KeepsOrder o (.next t) ↔ NoWorse o t.order :=
  ⟨fun h => h.noWorse t rfl, fun h => ⟨fun _ e => by cases e; exact h⟩⟩
@[simp] theorem keepsOrder_fault {o : Prop × Prop} {r : Fault} : KeepsOrder o (.fault r) := ⟨fun _ e => nomatch e⟩
@[simp] theorem ite_keepsOrder {o : Prop × Prop} {c : Prop} [Decidable c] {r r' : Res} :
    KeepsOrder o (if c then r else r') ↔ if c then KeepsOrder o r else KeepsOrder o r' := by split <;> rfl

theorem keepsOrder_ite {o : Prop × Prop} {c : Prop} [Decidable c] {r r' : Res} (h : KeepsOrder o r) (h' : KeepsOrder o r') :
    KeepsOrder o (if c then r else r') := by
  split <;> assumption

/-- The same of what the checks before an instruction end in. -/
def Pre.KeepsOrder (o : Prop × Prop) : Pre → Prop
  | .stop r => Machine.KeepsOrder o r
  | .go t _ => NoWorse o t.order

section
variable {o : Prop × Prop} {s : State} (h : NoWorse o s.order)
include h

theorem enter_keeps (u : Use) (rows : Group → Nat) (S : Mask) : (enter u rows S s).KeepsOrder o := by
  unfold enter
  split
  · split <;> simp [Pre.KeepsOrder, h]
  · simp only []
    split <;> simp [Pre.KeepsOrder, h]

theorem prelude_keeps (i : Instr) (rows : Group → Nat) : (prelude i rows s).KeepsOrder o := by
  unfold prelude
  extract_lets g u S t
  have ht : NoWorse o t.order := by simp [t, h]
  split
  · exact keepsOrder_fault
  · split
    · split <;> simp [Pre.KeepsOrder, h]
    · repeat (split; · simp [Pre.KeepsOrder, h, ht])
      exact enter_keeps ht ..

theorem prelude_stop {i : Instr} {rows : Group → Nat} {r : Res} (hp : prelude i rows s = .stop r) : KeepsOrder o r := by
  have := prelude_keeps h i rows
  rwa [hp] at this

theorem prelude_go {i : Instr} {rows : Group → Nat} {t : State} {S : Mask} (hp : prelude i rows s = .go t S) : NoWorse o t.order := by
  have := prelude_keeps h i rows
  rwa [hp] at this

theorem finishWrite_keepsOrder (u : Use) (d : Reg) (r : Nat → Word) (S : Mask) (fit : Bool) : KeepsOrder o (finishWrite u d r S fit s) := by
  unfold finishWrite
  split <;> simp [h]

theorem vecOp_keeps (i : Instr) (d : Reg) (fit : Bool) (f : Group → Mask → Nat → Word) : KeepsOrder o (vecOp i d fit f s) := by
  unfold vecOp
  split
  · next hp => exact prelude_stop h hp
  · next hp => exact finishWrite_keepsOrder (prelude_go h hp) ..

theorem predOp_keeps (i : Instr) (p : Pred) (f : Group → Mask → Nat → Bool) : KeepsOrder o (predOp i p f s) := by
  unfold predOp
  split
  · next hp => exact prelude_stop h hp
  · next hp => simp [prelude_go h hp]

theorem floatOp_keeps (i : Instr) (d : Reg) (fit : Bool) (f : Group → Nat → FRes) : KeepsOrder o (floatOp i d fit f s) := by
  unfold floatOp
  split
  · next hp => exact prelude_stop h hp
  · next hp =>
    simp only []
    split <;> simp [prelude_go h hp]

theorem compareOp_keeps (i : Instr) (p : Pred) (c : FCond) (k : Comb) (q : Pred) (f : Group → Nat → FVal × FVal) :
    KeepsOrder o (compareOp i p c k q f s) := by
  unfold compareOp
  split
  · next hp => exact prelude_stop h hp
  · next hp => simp [prelude_go h hp]

theorem groupOp_keeps {i : Instr} {f : Use → Mask → State → Res} (hf : ∀ u S t, NoWorse o t.order → KeepsOrder o (f u S t)) :
    KeepsOrder o (groupOp i f s) := by
  unfold groupOp
  split
  · next hp => exact prelude_stop h hp
  · next hp => exact hf _ _ _ (prelude_go h hp)

theorem finishAfter_keeps (u : Use) (S : Mask) (ws : List Reg) {t : State} (ht : NoWorse o t.order) : KeepsOrder o (finishAfter u S ws s t) := by
  have hs := settle_order t.cur (stkDepth t.me.regs + 1) t
  unfold finishAfter
  split <;> next he => rw [he] at hs; simp_all [Settle.KeepsOrder]

theorem withAddrs_keeps {write own : Bool} {size : Nat} {addrs : List (Nat × Nat)} {k : List (Nat × Nat × Xlat) → State → Res}
    (hk : ∀ acc t, NoWorse o t.order → KeepsOrder o (k acc t)) : KeepsOrder o (withAddrs write own size addrs k s) := by
  have hc := checkAddrs_order write own size addrs s
  unfold withAddrs
  split <;> next he => rw [he] at hc; simp_all [Checked.KeepsOrder]

theorem pushAll_keeps (S : Mask) (es : List StackEntry) {k : State → Res} {t : State} (ht : NoWorse o t.order) (hk : ∀ t, NoWorse o t.order → KeepsOrder o (k t)) :
    KeepsOrder o (pushAll S es s k t) := by
  induction es generalizing t with
  | nil => exact hk t ht
  | cons e es ih =>
    unfold pushAll
    split
    · next hp => exact ih (pushEntry_order hp ▸ ht)
    · simp [h]
    · simp [h]

theorem branchOn_keeps (u : Use) (B F : Mask) (target : Pc) (ws : List Reg) {t : State} (ht : NoWorse o t.order) :
    KeepsOrder o (branchOn u B F target ws s t) := by
  unfold branchOn
  extract_lets g S next go
  have hgo (t : State) (ht : NoWorse o t.order) : KeepsOrder o (go t) := by simp [go, ht]
  split
  · simp [ht]
  · split
    · simp [ht]
    · split
      · split
        · exact hgo _ (by simp [ht])
        · exact pushAll_keeps h _ _ ht hgo
      · exact pushAll_keeps h _ _ ht hgo

theorem removeThen_keeps (m : Mask) (ret : Bool) {k : State → Res} (hk : ∀ t, NoWorse o t.order → KeepsOrder o (k t)) : KeepsOrder o (removeThen m ret k s) := by
  unfold removeThen
  split
  · simp [h]
  · exact hk _ (by simp [h])

theorem afterLoad_keeps (u : Use) (S : Mask) (hold : Bool) {t : State} (ht : NoWorse o t.order) : KeepsOrder o (afterLoad u S hold s t) := by
  unfold afterLoad
  split
  · simp [ht]
  · exact finishAfter_keeps h u S [] ht

theorem cacheAddrs_keeps (own : Bool) (n : Reg) (off : BitVec 24) (S : Mask) {k : List (Nat × Xlat) → State → Res}
    (hk : ∀ acc t, NoWorse o t.order → KeepsOrder o (k acc t)) : KeepsOrder o (cacheAddrs own n off S k s) := by
  unfold cacheAddrs
  extract_lets g addrs outside looks missed t
  have ht : NoWorse o t.order := by simp [t, h]
  clear_value outside
  split
  · simp [h]
  · split
    · simp [ht]
    · exact hk _ _ ht

theorem cacheOp_keeps (i : Instr) (n : Reg) (off : BitVec 24) (kind : Group → Nat × Xlat → List StoreKind) : KeepsOrder o (cacheOp i n off kind s) := by
  refine groupOp_keeps h fun u S t ht => cacheAddrs_keeps ht _ _ _ _ fun acc t ht => ?_
  split <;> simp [ht]

theorem barrierOp_keeps (i : Instr) (ok : Group → Bool) (vb : Reg) (needs : Bool) {f : Group → State → State}
    (hf : ∀ G t, (f G t).order = t.order) : KeepsOrder o (barrierOp i ok vb needs f s) := by
  refine groupOp_keeps h fun u S t ht => ?_
  simp [operandFault, hf, ht]

theorem matrixOp_keeps (i : Instr) (op : Group → MOp) : KeepsOrder o (matrixOp i op s) := by
  refine groupOp_keeps h fun u S t ht => ?_
  simp only []
  split
  · simp [ht]
  · simp [ht]
  · split <;> simp [ht]

theorem reserveRemote_keeps (u : Use) (d : Reg) (j : Nat) (p : Pipe) (S : Mask) (fit : Bool) : KeepsOrder o (reserveRemote u d j p S fit s) := by
  unfold reserveRemote
  simp only []
  split
  · exact finishWrite_keepsOrder (by simp [h]) ..
  · exact finishWrite_keepsOrder (by simp [h]) ..
  · simp [h]
  · split
    · next hp => simp [askPeer_order hp, h]
    · simp [h]

theorem statFrom_keeps (u : Use) (d : Reg) (m : PMode) (j : Nat) (p : Pipe) (r : SlotRef) (S : Mask) (fit : Bool) :
    KeepsOrder o (statFrom u d m j p r S fit s) := by
  unfold statFrom
  simp only []
  split
  · exact finishWrite_keepsOrder h ..
  · split
    · exact finishWrite_keepsOrder (by simp [h]) ..
    · simp [h]
    · split
      · next hp => simp [askPeer_order hp, h]
      · simp [h]

theorem failSector_keeps (core ctx n : Nat) (vas : List Nat) (e : Nat × Option (Nat × Nat)) (i : Inst) : KeepsOrder o (failSector core ctx n vas e i s) := by
  simp [failSector, h]

theorem moveSector_keeps (core ctx n : Nat) (src dst : End) (i : Inst) : KeepsOrder o (moveSector core ctx n src dst i s) := by
  unfold moveSector
  simp only []
  split
  · exact failSector_keeps h ..
  · split
    · next hw => simp [tileWait_order hw, h]
    · split
      · simp [h]
      · simp [h]

theorem withTiles_keeps (ts : List TileRef) (S : Mask) {k : Res} (hk : KeepsOrder o k) : KeepsOrder o (withTiles ts S s k) := by
  unfold withTiles
  split
  · simp [recipeFault, h]
  · split
    · simp [h]
    · exact hk

theorem afterSend_keeps (u : Use) (S : Mask) : KeepsOrder o (afterSend u S s) := by
  simp [afterSend, h]

theorem withRemote_keeps (i : Instr) (write : Bool) (size : Nat) (vp vo : Reg) (kind : Nat) {k : Use → Mask → List RemAcc → State → Res}
    (hk : ∀ u S acc t, NoWorse o t.order → KeepsOrder o (k u S acc t)) : KeepsOrder o (withRemote i write size vp vo kind k s) := by
  unfold withRemote
  split
  · simp [finishSend, h]
  · refine groupOp_keeps h fun u S t ht => ?_
    simp only []
    split
    · simp [ht]
    · split
      · simp [ht]
      · exact hk _ _ _ _ ht

theorem command_keeps (fn code : Nat) {k : Nat × (State → State)} (hk : ∀ t, (k.2 t).order = t.order) : KeepsOrder o (command fn code s k) := by
  simp [command, hk, h]

theorem execBra_keeps (g : Guard) (off : Word) : KeepsOrder o (execBra g off s) := by
  unfold execBra
  split
  · next hp => exact prelude_stop h hp
  · next hp => exact branchOn_keeps (prelude_go h hp) _ _ _ _ _ (prelude_go h hp)

theorem execBrd_keeps (g : Guard) (off : Word) : KeepsOrder o (execBrd g off s) := by
  unfold execBrd
  split
  · next hp => exact prelude_stop h hp
  · next hp =>
    have ht := prelude_go h hp
    simp only []
    split
    · exact pushAll_keeps ht _ _ ht fun t ht => by simp [ht]
    · split <;> exact pushAll_keeps ht _ _ ht fun t ht => by simp [ht]

theorem execJoin_keeps : KeepsOrder o (execJoin s) := by
  unfold execJoin
  split
  · next hp => exact prelude_stop h hp
  · next hp =>
    have ht := prelude_go h hp
    simp only []
    split
    · simp [ht]
    · next hj =>
      have hu := joinEntry_order hj
      split
      · exact finishAfter_keeps ht _ _ _ (by simp [hu, ht])
      · simp [hu, ht]

theorem execLoop_keeps (g : Guard) (va : Reg) (off : Word) (fit : Bool) : KeepsOrder o (execLoop g va off fit s) := by
  unfold execLoop
  split
  · next hp => exact prelude_stop h hp
  · next hp =>
    have ht := prelude_go h hp
    simp only []
    split
    · simp [ht]
    · exact branchOn_keeps ht _ _ _ _ _ (by simp [ht])

theorem execCall_keeps (g : Guard) (off : Word) : KeepsOrder o (execCall g off s) := by
  unfold execCall
  split
  · next hp => exact prelude_stop h hp
  · next hp =>
    have ht := prelude_go h hp
    simp only []
    split
    · simp [ht]
    · exact pushAll_keeps ht _ _ ht fun t ht => by simp [ht]

theorem execRet_keeps (g : Guard) : KeepsOrder o (execRet g s) := by
  unfold execRet
  split
  · next hp => exact prelude_stop h hp
  · next hp =>
    have ht := prelude_go h hp
    simp only []
    split
    · simp [ht]
    · split
      · split
        · simp [ht]
        · next he =>
          have hu := popEntry_order he
          split
          · simp [ht]
          · split
            · simp [ht]
            · split
              · exact finishAfter_keeps ht _ _ _ (by simp [hu, ht])
              · simp [hu, ht]
      · exact removeThen_keeps ht _ _ fun t ht => by simp [ht]

theorem execExit_keeps (g : Guard) : KeepsOrder o (execExit g s) := by
  unfold execExit
  split
  · next hp => exact prelude_stop h hp
  · next hp =>
    have ht := prelude_go h hp
    simp only []
    split
    · simp [ht]
    · exact removeThen_keeps ht _ _ fun u hu => finishAfter_keeps ht _ _ _ hu

theorem execNop_keeps (g : Guard) : KeepsOrder o (execNop g s) := groupOp_keeps h fun u S t ht => by simp [ht]

theorem execYield_keeps (g : Guard) : KeepsOrder o (execYield g s) := groupOp_keeps h fun u S t ht => by simp [ht]

theorem op2_keeps (i : Instr) (d a b : Reg) (fit : Bool) (f : Word → Word → Word) : KeepsOrder o (op2 i d a b fit f s) := vecOp_keeps h ..

theorem op1_keeps (i : Instr) (d a : Reg) (fit : Bool) (f : Word → Word) : KeepsOrder o (op1 i d a fit f s) := vecOp_keeps h ..

theorem execLea_keeps (g : Guard) (d a b : Reg) (n : BitVec 5) (u fit : Bool) : KeepsOrder o (execLea g d a b n u fit s) := by
  refine groupOp_keeps h fun u S t ht => ?_
  simp only []
  split <;> simp [ht]

theorem execRedg_keeps (g : Guard) (d a : Reg) (op : RedgOp) (scan fit : Bool) : KeepsOrder o (execRedg g d a op scan fit s) := by
  refine groupOp_keeps h fun u S t ht => ?_
  simp only []
  split <;> simp [ht]

theorem execQcvt_keeps (g : Guard) (d a b c : Reg) (upd : Bool) (r : Rnd) (fit : Bool) : KeepsOrder o (execQcvt g d a b c upd r fit s) := by
  refine groupOp_keeps h fun u S t ht => ?_
  simp only []
  split <;> simp [ht]

theorem undecoded_keeps : KeepsOrder o (undecoded s) := by
  unfold undecoded
  simp only []
  split
  · simp
  · split <;> simp [h]

theorem execIssueSelect_keeps (core lane : Nat) : KeepsOrder o (execIssueSelect core lane s) := by
  unfold execIssueSelect
  simp only []
  split
  · simp [h]
  · split <;> simp [h]

theorem execLdg_keeps (g : Guard) (d n : Reg) (off : BitVec 24) (sz : Size) (sgn ev fit : Bool) : KeepsOrder o (execLdg g d n off sz sgn ev fit s) := by
  refine groupOp_keeps h fun u S t ht => withAddrs_keeps ht fun acc t ht => ?_
  simp only []
  split
  · simp [ht]
  · exact afterLoad_keeps ht _ _ _ (by simp [ht])

theorem execStg_keeps (g : Guard) (d n : Reg) (off : BitVec 24) (sz : Size) : KeepsOrder o (execStg g d n off sz s) := by
  refine groupOp_keeps h fun u S t ht => ?_
  refine withAddrs_keeps ht fun acc t ht => ?_
  simp only []
  split
  · simp [ht]
  · split <;> simp [ht]

theorem execLdl_keeps (g : Guard) (d n : Reg) (off : BitVec 24) (sz : Size) (sgn fit : Bool) : KeepsOrder o (execLdl g d n off sz sgn fit s) := by
  unfold execLdl
  simp only []
  split
  · next hp => exact prelude_stop h hp
  · next hp =>
    have ht := prelude_go h hp
    split
    · simp [ht]
    · split
      · simp [ht]
      · split
        · exact afterLoad_keeps ht _ _ _ (by simp [ht])
        · split
          · simp [ht]
          · split
            · exact finishAfter_keeps ht _ _ _ (by simp [ht])
            · exact afterLoad_keeps ht _ _ _ (by simp [ht])

theorem execStl_keeps (g : Guard) (d n : Reg) (off : BitVec 24) (sz : Size) : KeepsOrder o (execStl g d n off sz s) := by
  unfold execStl
  simp only []
  split
  · next hp => exact prelude_stop h hp
  · next hp =>
    have ht := prelude_go h hp
    split
    · simp [ht]
    · split
      · simp [ht]
      · split
        · simp [ht]
        · exact finishAfter_keeps ht _ _ _ (by simp [ht])

theorem execLdk_keeps (g : Guard) (d : Reg) (idx : BitVec 20) (hr : Option Reg) (wn : Wn) (fit : Bool) : KeepsOrder o (execLdk g d idx hr wn fit s) := by
  refine groupOp_keeps h fun u S t ht => ?_
  simp only []
  split
  · simp [ht]
  · next npool va _ =>
    have hc := checkAddrs_order false false 4 [(lowest S, va + 16 * poolIndex t.me idx hr + 4 * wn.bits.toNat)] t
    split
    · simp [ht]
    · split <;> next he => rw [he] at hc; simp_all [Checked.KeepsOrder]

theorem execAtomg_keeps (g : Guard) (d n x : Reg) (off : BitVec 24) (op : AOp) (fit : Bool) : KeepsOrder o (execAtomg g d n x off op fit s) := by
  refine groupOp_keeps h fun u S t ht => withAddrs_keeps ht fun acc t ht => ?_
  simp only []
  split
  · next hm => simp [order_of_missTiles hm, ht]
  · next hm =>
    have atoms (w : State) (G : Group) (k : Nat) : (acc.foldl (atomGlobal G k op x) { s := w, vals := [] }).s.order = w.order :=
      foldl_kept (fun r : Olds => r.s.order) (fun c e => atomGlobal_order G k op x c e) ..
    simp [atoms, order_of_missTiles hm, ht]

theorem execAtoml_keeps (g : Guard) (d n x : Reg) (off : BitVec 24) (op : AOp) (fit : Bool) : KeepsOrder o (execAtoml g d n x off op fit s) := by
  refine groupOp_keeps h fun u S t ht => ?_
  have atoms (l : List (Nat × Nat)) (w : State) (G : Group) (core : Nat) : (l.foldl (atomLocal G core op x) { s := w, vals := [] }).s.order = w.order :=
    foldl_kept (fun r : Olds => r.s.order) (fun c e => atomLocal_order G core op x c e) ..
  simp only []
  split
  · simp [ht]
  · split
    · simp [ht]
    · split
      · simp [ht]
      · exact finishAfter_keeps ht _ _ _ (by split <;> simp [atoms, ht])

theorem execRed_keeps (g : Guard) (n x : Reg) (off : BitVec 24) (op : AOp) : KeepsOrder o (execRed g n x off op s) := by
  refine groupOp_keeps h fun u S t ht => withAddrs_keeps ht fun acc t ht => ?_
  simp [ht]

theorem execFence_keeps (g : Guard) (sc : Scope) : KeepsOrder o (execFence g sc s) := groupOp_keeps h fun u S t ht => by simp [ht]

theorem execChunk_keeps (g : Guard) : KeepsOrder o (execChunk g s) := groupOp_keeps h fun u S t ht => by simp [ht]

theorem execMwait_keeps (g : Guard) (n : Reg) (off : BitVec 24) (vc : Option Reg) : KeepsOrder o (execMwait g n off vc s) := by
  refine groupOp_keeps h fun u S t ht => withAddrs_keeps ht fun acc t ht => ?_
  split
  · next hm => simp [order_of_missTiles hm, ht]
  · next hm => split <;> simp [order_of_missTiles hm, ht]

theorem execPfg_keeps (g : Guard) (n : Reg) (off : BitVec 24) (l2 : Bool) : KeepsOrder o (execPfg g n off l2 s) := by
  refine groupOp_keeps h fun u S t ht => cacheAddrs_keeps ht _ _ _ _ fun acc t ht => ?_
  simp [ht]

theorem execLoadComplete_keeps (grp idx : Nat) : KeepsOrder o (execLoadComplete grp idx s) := by
  unfold execLoadComplete
  simp only []
  split
  · simp [h]
  · split <;> simp [h]

theorem execStoreComplete_keeps (grp idx : Nat) : KeepsOrder o (execStoreComplete grp idx s) := by
  unfold execStoreComplete
  simp only []
  split
  · simp [h]
  · split
    · split
      · next hm => simp [order_of_missTiles hm, h]
      · simp [h]
    · split <;> simp [h]
    · simp [h]
    · simp [h]

theorem execChunkCommit_keeps (grp : Nat) : KeepsOrder o (execChunkCommit grp s) := by
  unfold execChunkCommit
  simp only []
  split
  · simp [h]
  · split
    · next hm => split <;> simp [order_of_missTiles hm, h]
    · simp [h]

theorem execStreamStoreApply_keeps (k : Nat) : KeepsOrder o (execStreamStoreApply k s) := by
  unfold execStreamStoreApply
  split
  · simp [h]
  · split
    · simp [h]
    · split
      · simp [h]
      · split <;> simp [h]

theorem execReductionApply_keeps (k half : Nat) : KeepsOrder o (execReductionApply k half s) := by
  unfold execReductionApply
  split
  · simp [h]
  · split
    · simp [h]
    · split
      · simp [h]
      · split
        · simp [h]
        · split <;> simp [h]

theorem execMwaitResume_keeps (grp : Nat) : KeepsOrder o (execMwaitResume grp s) := by
  unfold execMwaitResume
  simp only []
  split <;> simp [h]

theorem execPageWalkComplete_keeps (k : Nat) : KeepsOrder o (execPageWalkComplete k s) := by
  unfold execPageWalkComplete
  split <;> simp [h]

theorem execL2Evict_keeps (line : Nat) : KeepsOrder o (execL2Evict line s) := by simp [execL2Evict, h]

theorem operandFault_keeps (S : Mask) : KeepsOrder o (operandFault S s) := by simp [operandFault, h]

theorem execBinit_keeps (g : Guard) (vb vn : Reg) : KeepsOrder o (execBinit g vb vn s) := barrierOp_keeps h _ _ _ _ fun G t => by simp

theorem execArrive_keeps (g : Guard) (vb : Reg) (vn vs : Option Reg) : KeepsOrder o (execArrive g vb vn vs s) := barrierOp_keeps h _ _ _ _ fun G t => by simp

theorem execBexp_keeps (g : Guard) (vb vs : Reg) : KeepsOrder o (execBexp g vb vs s) := barrierOp_keeps h _ _ _ _ fun G t => by simp

theorem execBtest_keeps (g : Guard) (vd vb : Reg) (sec fit : Bool) : KeepsOrder o (execBtest g vd vb sec fit s) := by
  refine groupOp_keeps h fun u S t ht => ?_
  simp only []
  split
  · simp [operandFault, ht]
  · exact finishWrite_keepsOrder ht ..

theorem execBwait_keeps (g : Guard) (vb vp : Reg) : KeepsOrder o (execBwait g vb vp s) := by
  refine groupOp_keeps h fun u S t ht => ?_
  simp [operandFault, ht]

theorem execKick_keeps (g : Guard) (idx : BitVec 20) (hr : Option Reg) : KeepsOrder o (execKick g idx hr s) := by
  refine groupOp_keeps h fun u S t ht => ?_
  simp [operandFault, ht]

theorem execLaunch_keeps (g : Guard) (idx : BitVec 20) (hr : Option Reg) : KeepsOrder o (execLaunch g idx hr s) := by
  refine groupOp_keeps h fun u S t ht => ?_
  simp only []
  split <;> simp [operandFault, ht]

theorem pipeFault_keeps (S : Mask) : KeepsOrder o (pipeFault S s) := by simp [pipeFault, h]

theorem execPrsv_keeps (g : Guard) (vd : Reg) (idx : BitVec 20) (hr : Option Reg) (fit : Bool) : KeepsOrder o (execPrsv g vd idx hr fit s) := by
  refine groupOp_keeps h fun u S t ht => ?_
  simp only []
  split
  · simp [ht]
  · split
    · simp [pipeFault, ht]
    · split
      · exact finishWrite_keepsOrder (by simp [ht]) ..
      · split
        · exact reserveRemote_keeps ht ..
        · split
          · simp [ht]
          · exact finishWrite_keepsOrder (by simp [ht]) ..

theorem execCtak_keeps (g : Guard) (vd : Reg) (idx : BitVec 20) (hr : Option Reg) (fit : Bool) : KeepsOrder o (execCtak g vd idx hr fit s) := by
  refine groupOp_keeps h fun u S t ht => ?_
  simp only []
  split
  · simp [ht]
  · split
    · simp [pipeFault, ht]
    · split
      · exact finishWrite_keepsOrder (by simp [ht]) ..
      · split
        · exact finishWrite_keepsOrder ht ..
        · simp [ht]

theorem execPcmt_keeps (g : Guard) (vt : Reg) : KeepsOrder o (execPcmt g vt s) := by
  refine groupOp_keeps h fun u S t ht => ?_
  simp only []
  split
  · simp [pipeFault, ht]
  · split
    · simp [pipeFault, ht]
    · split <;> simp [pipeFault, ht]

theorem execCrel_keeps (g : Guard) (vt : Reg) : KeepsOrder o (execCrel g vt s) := by
  refine groupOp_keeps h fun u S t ht => ?_
  simp only []
  split
  · simp [pipeFault, ht]
  · split
    · simp [pipeFault, ht]
    · split <;> simp [pipeFault, ht]

theorem execPstat_keeps (g : Guard) (vd : Reg) (m : PMode) (idx : BitVec 20) (hr : Option Reg) (fit : Bool) : KeepsOrder o (execPstat g vd m idx hr fit s) := by
  have atPipe {t : State} (ht : NoWorse o t.order) (u : Use) (S : Mask) : KeepsOrder o (match pipeAt t t.me idx hr with
      | .error (cls, cause) => .next (raiseAt cls cause 0 S t)
      | .ok (j, _, p) => statFrom u vd m j p ⟨false, 0⟩ S fit t) := by
    split
    · simp [ht]
    · exact statFrom_keeps ht ..
  have atToken {t : State} (ht : NoWorse o t.order) (u : Use) (S : Mask) (x : Holding) (p : Option Pipe) (k : SlotRef) (j : Nat) : KeepsOrder o (match x, p with
      | .reserved, some p => statFrom u vd m j p k S fit t
      | .taken, some p => statFrom u vd m j p k S fit t
      | _, _ => pipeFault S t) := by
    split
    · exact statFrom_keeps ht ..
    · exact statFrom_keeps ht ..
    · simp [pipeFault, ht]
  refine groupOp_keeps h fun u S t ht => ?_
  cases m
  case wlo | whi => exact finishWrite_keepsOrder ht ..
  case free | ready | rfree | sfree => exact atPipe ht ..
  all_goals exact atToken ht ..

theorem execPcmtTakeEffect_keeps (plan pipe slot : Nat) : KeepsOrder o (execPcmtTakeEffect plan pipe slot s) := by
  unfold execPcmtTakeEffect
  simp only []
  split
  · split
    · split
      · simp [h]
      · split
        · split <;> simp [h]
        · simp [h]
    · simp [h]
  · simp [h]

theorem execCrelTakeEffect_keeps (plan pipe slot : Nat) : KeepsOrder o (execCrelTakeEffect plan pipe slot s) := by
  unfold execCrelTakeEffect
  simp only []
  split
  · split <;> simp [h]
  · simp [h]

theorem execThrottleRelay_keeps (plan pipe : Nat) : KeepsOrder o (execThrottleRelay plan pipe s) := by
  unfold execThrottleRelay
  split <;> simp [h]

theorem execMatrixDispatch_keeps (core : Nat) : KeepsOrder o (execMatrixDispatch core s) := by
  unfold execMatrixDispatch
  split
  · simp [h]
  · split
    · split <;> simp [h]
    · simp [h]

theorem execMatrixComplete_keeps (core k : Nat) : KeepsOrder o (execMatrixComplete core k s) := by
  unfold execMatrixComplete
  simp only []
  split
  · simp [h]
  · split
    · simp [h]
    · split
      · next he => simp [engineReady_order he, h]
      · next he =>
        have ht := (engineReady_order he).symm ▸ h
        split
        · simp [ht]
        · split
          · simp [ht]
          · split
            · simp [ht]
            · next hf => simp [finishCmd_order hf, ht]

theorem execMstrpPairDiscard_keeps (core : Nat) : KeepsOrder o (execMstrpPairDiscard core s) := by
  unfold execMstrpPairDiscard
  split
  · simp [h]
  · split
    · simp [h]
    · split <;> simp [h]

theorem execRecordFetch_keeps (core : Nat) : KeepsOrder o (execRecordFetch core s) := by
  unfold execRecordFetch
  split <;> simp [h]

theorem execInstanceStart_keeps (core : Nat) : KeepsOrder o (execInstanceStart core s) := by
  unfold execInstanceStart
  simp only []
  split <;> simp [h]

theorem execSectorLand_keeps (core inst sec : Nat) : KeepsOrder o (execSectorLand core inst sec s) := by
  unfold execSectorLand
  split
  · simp [h]
  · split
    · simp [h]
    · split
      · simp [h]
      · exact failSector_keeps h ..
      · simp only []
        split
        · next he => simp [engineReady_order he, h]
        · next he => exact moveSector_keeps (by simp [engineReady_order he, h]) ..

theorem execInstanceComplete_keeps (core inst : Nat) : KeepsOrder o (execInstanceComplete core inst s) := by
  unfold execInstanceComplete
  split <;> simp [h]

theorem execSetfmt_keeps (g : Guard) (a : Reg) : KeepsOrder o (execSetfmt g a s) := groupOp_keeps h fun u S t ht => by simp [ht]

theorem execCsrw_keeps (g : Guard) (n : WCreg) (a : Reg) (op : CsrOp) : KeepsOrder o (execCsrw g n a op s) := by
  refine groupOp_keeps h fun u S t ht => ?_
  simp only []
  split <;> simp [ht]

theorem execTrap_keeps (g : Guard) (imm : Word) : KeepsOrder o (execTrap g imm s) := groupOp_keeps h fun u S t ht => by simp [ht]

theorem execBkpt_keeps (g : Guard) (imm : Word) : KeepsOrder o (execBkpt g imm s) := groupOp_keeps h fun u S t ht => by simp [ht]

theorem execRett_keeps : KeepsOrder o (execRett s) := by
  unfold execRett
  split
  · next hp => exact prelude_stop h hp
  · next hp =>
    have ht := prelude_go h hp
    simp only []
    split
    · simp [ht]
    · next he =>
      have hu := popEntry_order he
      split
      · simp [ht]
      · split
        · simp [ht]
        · split
          · exact finishAfter_keeps ht _ _ _ (by simp [hu, ht])
          · simp [hu, ht]

theorem execTfence_keeps (g : Guard) : KeepsOrder o (execTfence g s) := groupOp_keeps h fun u S t ht => by simp [ht]

theorem execPhint_keeps (g : Guard) (idx : BitVec 20) (hr : Option Reg) : KeepsOrder o (execPhint g idx hr s) := by
  refine groupOp_keeps h fun u S t ht => ?_
  simp only []
  split
  · simp [ht]
  · split <;> simp [ht]

theorem execSleep_keeps (g : Guard) (imm : Word) (dlv : Bool) : KeepsOrder o (execSleep g imm dlv s) := groupOp_keeps h fun u S t ht => by simp [ht]

theorem execSleepExpire_keeps (grp : Nat) : KeepsOrder o (execSleepExpire grp s) := by
  unfold execSleepExpire
  simp only []
  split <;> simp [h]

theorem execPmcr_keeps (g : Guard) (d : Reg) (code : Word) (hi fit : Bool) : KeepsOrder o (execPmcr g d code hi fit s) :=
  groupOp_keeps h fun _ _ _ ht => finishWrite_keepsOrder ht ..

theorem execGname_keeps (g : Guard) (d : Reg) (fit : Bool) : KeepsOrder o (execGname g d fit s) := by
  refine groupOp_keeps h fun u S t ht => ?_
  split <;> simp [ht]

theorem execArm_keeps (g : Guard) (vr : Reg) (vn : Option Reg) : KeepsOrder o (execArm g vr vn s) := groupOp_keeps h fun u S t ht => by simp [ht]

theorem execArmif_keeps (g : Guard) (vr : Reg) (vn : Option Reg) : KeepsOrder o (execArmif g vr vn s) := groupOp_keeps h fun u S t ht => by simp [ht]

theorem execHoldq_keeps (g : Guard) (d : Reg) (vr : Option Reg) (fit : Bool) : KeepsOrder o (execHoldq g d vr fit s) :=
  groupOp_keeps h fun _ _ _ ht => finishWrite_keepsOrder ht ..

theorem execRegput_keeps (g : Guard) (vt vn vs : Reg) : KeepsOrder o (execRegput g vt vn vs s) := groupOp_keeps h fun u S t ht => by simp [ht]

theorem execDeliveryArrive_keeps (k : Nat) : KeepsOrder o (execDeliveryArrive k s) := by
  unfold execDeliveryArrive
  split
  · simp [h]
  · simp only []
    repeat (split; · simp [h])
    simp [h]

theorem execDeliveryLand_keeps (k : Nat) : KeepsOrder o (execDeliveryLand k s) := by
  unfold execDeliveryLand
  split
  · simp [h]
  · split <;> simp [h]

theorem execDeliveryResend_keeps (k : Nat) : KeepsOrder o (execDeliveryResend k s) := by
  unfold execDeliveryResend
  split
  · simp [h]
  · split <;> simp [h]

theorem execDeliveryAck_keeps (k : Nat) : KeepsOrder o (execDeliveryAck k s) := by
  unfold execDeliveryAck
  split
  · simp [h]
  · split <;> simp [h]

theorem execNameRelease_keeps (idx : Nat) : KeepsOrder o (execNameRelease idx s) := by
  unfold execNameRelease
  split
  · simp [h]
  · split <;> simp [h]

theorem execHoldWatchdog_keeps : KeepsOrder o (execHoldWatchdog s) := by simp [execHoldWatchdog, h]

theorem recipeFault_keeps (cause : Nat) (S : Mask) : KeepsOrder o (recipeFault cause S s) := by simp [recipeFault, h]

theorem execRseal_keeps (g : Guard) (vt : Reg) : KeepsOrder o (execRseal g vt s) := by
  refine groupOp_keeps h fun u S t ht => ?_
  simp only []
  split
  · simp [recipeFault, ht]
  · refine withTiles_keeps ht _ _ ?_
    split <;> simp [recipeFault, ht]

theorem execRdrop_keeps (g : Guard) (vt : Reg) : KeepsOrder o (execRdrop g vt s) := by
  refine groupOp_keeps h fun u S t ht => ?_
  simp only []
  split
  · simp [recipeFault, ht]
  · refine withTiles_keeps ht _ _ ?_
    split <;> simp [recipeFault, ht]

theorem execRpin_keeps (g : Guard) (vt vz : Reg) : KeepsOrder o (execRpin g vt vz s) := by
  refine groupOp_keeps h fun u S t ht => withTiles_keeps ht _ _ ?_
  split <;> simp [recipeFault, ht]

theorem execRunpin_keeps (g : Guard) (vt vz : Reg) : KeepsOrder o (execRunpin g vt vz s) := by
  refine groupOp_keeps h fun u S t ht => withTiles_keeps ht _ _ ?_
  split <;> simp [ht]

theorem execRcpdef_keeps (g : Guard) (d vh vb : Reg) (idx : BitVec 20) (fit : Bool) : KeepsOrder o (execRcpdef g d vh vb idx fit s) := by
  refine groupOp_keeps h fun u S t ht => ?_
  simp only []
  split
  · simp [ht]
  · split
    · simp [ht]
    · split
      · simp [ht]
      · split
        · simp [ht]
        · split
          · simp [ht]
          · refine withTiles_keeps ht _ _ (keepsOrder_ite ?_ (keepsOrder_ite ?_ (keepsOrder_ite ?_ (keepsOrder_ite ?_ ?_))))
            · simp [recipeFault, ht]
            · simp [recipeFault, ht]
            · simp [ht]
            · exact finishWrite_keepsOrder (by simp [ht]) ..
            · exact finishWrite_keepsOrder (by simp [ht]) ..

theorem execRecomputeStart_keeps (ctx rcp core level : Nat) : KeepsOrder o (execRecomputeStart ctx rcp core level s) := by
  unfold execRecomputeStart
  split <;> simp [h]

theorem execRecomputeComplete_keeps (core level : Nat) : KeepsOrder o (execRecomputeComplete core level s) := by
  unfold execRecomputeComplete
  simp only []
  split
  · simp [h]
  · split
    · simp [h]
    · split
      · simp [h]
      · split <;> simp [h]

theorem execRecomputeFail_keeps (core level : Nat) : KeepsOrder o (execRecomputeFail core level s) := by
  unfold execRecomputeFail
  simp only []
  split
  · simp [h]
  · split
    · split
      · simp [h]
      · split <;> simp [h]
    · simp [h]

theorem execSealedTileError_keeps (ctx rcp : Nat) : KeepsOrder o (execSealedTileError ctx rcp s) := by
  unfold execSealedTileError
  split <;> simp [h]

theorem execRld_keeps (g : Guard) (d vp vo : Reg) (sz : Size) (sgn fit : Bool) : KeepsOrder o (execRld g d vp vo sz sgn fit s) := by
  refine withRemote_keeps h _ _ _ _ _ _ fun u S acc t ht => ?_
  split
  · simp [ht]
  · simp only []
    split
    · simp [ht]
    · exact afterSend_keeps (by simp [ht]) ..

theorem execRst_keeps (g : Guard) (d vp vo : Reg) (sz : Size) : KeepsOrder o (execRst g d vp vo sz s) := by
  refine withRemote_keeps h _ _ _ _ _ _ fun u S acc t ht => ?_
  split
  · simp [ht]
  · exact afterSend_keeps (by simp [ht]) ..

theorem execRatom_keeps (g : Guard) (d vp vo vx : Reg) (op : AOp) (fit : Bool) : KeepsOrder o (execRatom g d vp vo vx op fit s) := by
  refine withRemote_keeps h _ _ _ _ _ _ fun u S acc t ht => ?_
  split
  · simp [ht]
  · exact afterSend_keeps (by simp [ht]) ..

theorem execRred_keeps (g : Guard) (vp vo vx : Reg) (op : AOp) : KeepsOrder o (execRred g vp vo vx op s) := by
  refine withRemote_keeps h _ _ _ _ _ _ fun u S acc t ht => ?_
  exact afterSend_keeps (by simp [ht]) ..

theorem execFabricPacketReceive_keeps (port : Nat) (pkt : Packet) : KeepsOrder o (execFabricPacketReceive port pkt s) := by
  unfold execFabricPacketReceive
  split
  · split
    · have hd := deliver_order false pkt { s with outbox := s.outbox.erase (port, pkt) }
      split <;> next he => rw [he] at hd; simp_all
    · simp [h]
  · simp [h]

theorem execE2eTimeout_keeps (dst seq : Nat) : KeepsOrder o (execE2eTimeout dst seq s) := by
  unfold execE2eTimeout
  split <;> simp [h]

theorem execE2eAck_keeps (dst seq : Nat) : KeepsOrder o (execE2eAck dst seq s) := by simp [execE2eAck, h]

theorem execRouteDetour_keeps (dst : Nat) : KeepsOrder o (execRouteDetour dst s) := by
  unfold execRouteDetour
  simp only []
  split
  · simp [h]
  · split <;> simp [h]

theorem execLinkTrain_keeps (port : Nat) (ok : Bool) : KeepsOrder o (execLinkTrain port ok s) := by simp [execLinkTrain, h]

theorem execNamedCrewStart_keeps (crew : Nat) : KeepsOrder o (execNamedCrewStart crew s) := by simp [execNamedCrewStart, h]

theorem execSinkArrival_keeps (plan : Nat) : KeepsOrder o (execSinkArrival plan s) := by
  unfold execSinkArrival
  split
  · simp [h]
  · split <;> simp [h]

theorem execCrewExit_keeps (crew : Nat) : KeepsOrder o (execCrewExit crew s) := by
  unfold execCrewExit
  split <;> simp [h]

theorem execHintDeadline_keeps (core : Nat) : KeepsOrder o (execHintDeadline core s) := by
  unfold execHintDeadline
  simp only []
  split <;> simp [h]

theorem execSaveComplete_keeps (core : Nat) : KeepsOrder o (execSaveComplete core s) := by
  unfold execSaveComplete
  simp only []
  split
  · simp [h]
  · split <;> simp [h]

theorem execRestore_keeps (image core : Nat) : KeepsOrder o (execRestore image core s) := by
  unfold execRestore
  split
  · simp [h]
  · split <;> simp [h]

theorem execForcedDrainTimeout_keeps (plan : Nat) : KeepsOrder o (execForcedDrainTimeout plan s) := by
  unfold execForcedDrainTimeout
  split <;> simp [h]

theorem execBalancerSample_keeps (plan : Nat) : KeepsOrder o (execBalancerSample plan s) := by
  unfold execBalancerSample
  split <;> simp [h]

theorem execPlanRevisionPublish_keeps (plan : Nat) : KeepsOrder o (execPlanRevisionPublish plan s) := by
  unfold execPlanRevisionPublish
  split
  · simp [h]
  · split <;> simp [h]

theorem execPlanRevisionApply_keeps (plan : Nat) : KeepsOrder o (execPlanRevisionApply plan s) := by
  unfold execPlanRevisionApply
  split
  · simp [h]
  · split <;> simp [h]

theorem execShadowProbe_keeps (plan pipe : Nat) : KeepsOrder o (execShadowProbe plan pipe s) := by
  unfold execShadowProbe
  simp only []
  split
  · split
    · simp [h]
    · split <;> simp [h]
  · simp [h]

theorem execDeadlockDeclare_keeps (plan pipe : Nat) : KeepsOrder o (execDeadlockDeclare plan pipe s) := by
  unfold execDeadlockDeclare
  simp only []
  split
  · split
    · simp [h]
    · split
      · simp [h]
      · split <;> simp [h]
  · simp [h]

theorem execQtailWrite_keepsOrder (fn page : Nat) (v : Word) : KeepsOrder o (execQtailWrite fn page v s) := by
  unfold execQtailWrite
  split <;> simp [h]

theorem execQcfgWrite_keepsOrder (fn page : Nat) (v : Word64) : KeepsOrder o (execQcfgWrite fn page v s) := by
  unfold execQcfgWrite
  split <;> simp [h]

theorem execLaunchPacket_keeps (q : Nat) : KeepsOrder o (execLaunchPacket q s) := by
  unfold execLaunchPacket
  split
  · simp [h]
  · simp [h]
  · split
    · simp [h]
    · rw [keepsOrder_next, withStat_order (by simp)]
      exact h

theorem execDrainPacket_keeps (q : Nat) : KeepsOrder o (execDrainPacket q s) := by
  unfold execDrainPacket
  split
  · split
    · simp [h]
    · rw [keepsOrder_next, withStat_order (by simp)]
      exact h
  · simp [h]

theorem execInvalidatePacket_keeps (q : Nat) : KeepsOrder o (execInvalidatePacket q s) := by
  unfold execInvalidatePacket
  split
  · split
    · simp [h]
    · rw [keepsOrder_next, withStat_order (by simp)]
      exact h
  · simp [h]

theorem execInvalidationComplete_keeps (k : Nat) : KeepsOrder o (execInvalidationComplete k s) := by
  unfold execInvalidationComplete
  split
  · simp [h]
  · split
    · simp [h]
    · split <;> simp [h]

theorem execAgeTick_keeps (q : Nat) : KeepsOrder o (execAgeTick q s) := by simp [execAgeTick, h]

theorem execLaunchSelect_keeps (places : List PipePlace) : KeepsOrder o (execLaunchSelect places s) := by
  rw [execLaunchSelect, keepsOrder_next, foldl_kept (fun r : Select => r.s.order) selectOne_order]
  simp [h]

theorem execRegisterWrite_keepsOrder (fn : Nat) (reg : HostReg) (v : BitVec 512) : KeepsOrder o (execRegisterWrite fn reg v s) := by
  unfold execRegisterWrite
  split
  · split <;> simp [h]
  · simp [h]
  · simp [h]

theorem execHostWindowWrite_keepsOrder (fn off : Nat) (bytes : List Byte) : KeepsOrder o (execHostWindowWrite fn off bytes s) := by
  unfold execHostWindowWrite
  split <;> simp [h]

theorem execHostWindowRead_keeps (fn off len : Nat) : KeepsOrder o (execHostWindowRead fn off len s) := by
  unfold execHostWindowRead
  split <;> simp [h]

theorem execBadCommand_keeps (fn : Nat) : KeepsOrder o (execBadCommand fn s) := by
  unfold execBadCommand
  simp only []
  split
  · exact command_keeps h _ _ fun _ => rfl
  · simp [h]

theorem execCreateContext_keeps (fn root : Nat) (frames : List (Nat × Nat)) : KeepsOrder o (execCreateContext fn root frames s) :=
  command_keeps h _ _ fun _ => by simp

theorem execWriteCcb_keeps (fn ctx : Nat) (c : Ccb) : KeepsOrder o (execWriteCcb fn ctx c s) := command_keeps h _ _ fun _ => onCtx_order ..

theorem execSetQuota_keeps (fn ctx q : Nat) : KeepsOrder o (execSetQuota fn ctx q s) := command_keeps h _ _ fun _ => onCtx_order ..

theorem execBindPeer_keeps (fn ctx pkg peerCtx : Nat) (wins : List (Nat × Window)) : KeepsOrder o (execBindPeer fn ctx pkg peerCtx wins s) :=
  command_keeps h _ _ fun _ => onCtx_order ..

theorem execBindTenant_keeps (fn ctx tenant : Nat) : KeepsOrder o (execBindTenant fn ctx tenant s) := command_keeps h _ _ fun _ => onCtx_order ..

theorem execReadCounter_keeps (fn : Nat) : KeepsOrder o (execReadCounter fn s) := by simp [execReadCounter, h]

theorem execTeardown_keeps (fn ctx : Nat) : KeepsOrder o (execTeardown fn ctx s) := by simp [execTeardown, h]

theorem execUpdateFirmware_keeps (fn version : Nat) (signed : Bool) : KeepsOrder o (execUpdateFirmware fn version signed s) :=
  by simp [execUpdateFirmware, h]

theorem execLifecycleToken_keeps (fn key : Nat) : KeepsOrder o (execLifecycleToken fn key s) := by
  unfold execLifecycleToken
  split
  · simp [h]
  · split <;> simp [h]

theorem execSoftError_keeps (st : Struct) (core addr : Nat) (bad : Bool) : KeepsOrder o (execSoftError st core addr bad s) := by simp [execSoftError, h]

theorem execWipeComplete_keeps : KeepsOrder o (execWipeComplete s) := by
  unfold execWipeComplete
  split
  · simp [h]
  · simpa using h.trans (noWorse_wipeAll_order s)

theorem execPowerGood_keeps (measured : Bool) (pkg : Nat) (failed : List Nat) : KeepsOrder o (execPowerGood measured pkg failed s) := by
  unfold execPowerGood
  split
  · simp [h]
  · split
    · exact keepsOrder_next.mpr (h.trans (noWorse_bringUp_order ..))
    · simp [h]

theorem execVoltageOutOfRange_keeps (out : Bool) : KeepsOrder o (execVoltageOutOfRange out s) := by
  unfold execVoltageOutOfRange
  split
  · exact keepsOrder_next.mpr (h.trans (noWorse_resetPackage_order _))
  · simp [h]

theorem noWorse_of_trip (c : Prop) [Decidable c] : NoWorse o (if c then tripPackage s else s).order := by
  split
  · exact h.trans (noWorse_tripPackage_order s)
  · exact h

theorem execThermalSample_keeps (tj milliwatt : Nat) : KeepsOrder o (execThermalSample tj milliwatt s) := by
  refine keepsOrder_ite ?_ (keepsOrder_ite ?_ ?_)
  · simp [h]
  · simp [h]
  · exact keepsOrder_next.mpr (noWorse_of_trip (by simp [h]) _)

theorem execStepFall_keeps : KeepsOrder o (execStepFall s) := by simp [execStepFall, h]

theorem execClockStepChange_keeps : KeepsOrder o (execClockStepChange s) := by simp [execClockStepChange, h]

theorem execLynxRestart_keeps : KeepsOrder o (execLynxRestart s) := by simp [execLynxRestart, h]

theorem pred2_keeps (i : Instr) (d a b : Pred) (f : Bool → Bool → Bool) : KeepsOrder o (pred2 i d a b f s) := predOp_keeps h ..

theorem execVote_keeps (g : Guard) (d : Reg) (p : Pred) (m : VoteMode) (n fit : Bool) : KeepsOrder o (execVote g d p m n fit s) := by
  unfold execVote
  split
  · exact vecOp_keeps h ..
  · exact predOp_keeps h ..

theorem exec_keeps (i : Instr) : KeepsOrder o (exec i s) := by
  unfold exec
  cases i with
  | iaddA | isub | imulA | imulh | idiv | irem | imin | imax | andA | orA | xorA | shlA | shrA | sarA | bfx => exact op2_keeps h ..
  | iaddI | imulI | iabs | ineg | andI | orI | xorI | not | popc | clz | brev | shlI | shrI | sarI | mov => exact op1_keeps h ..
  | imad | bfi | sel | movi | movs | shfl | chkst | getfmt | csrr => exact vecOp_keeps h ..
  | isetpA | isetpI | pnot => exact predOp_keeps h ..
  | pand | por | pxor => exact pred2_keeps h ..
  | faddA | faddI | fsub | fmulA | fmulI | ffma | fmin | fmax | frcp | frsq | fexp2 | flog2 | fcvt | icvt | hadd2 | hmul2 | hfma2 => exact floatOp_keeps h ..
  | fsetpA | fsetpI => exact compareOp_keeps h ..
  | cwb | cinv => exact cacheOp_keeps h ..
  | mldp | mswap | mstr | mstrp | mdrn | mzero | mdup => exact matrixOp_keeps h ..
  | lea => exact execLea_keeps h ..
  | vote => exact execVote_keeps h ..
  | redg => exact execRedg_keeps h ..
  | qcvt => exact execQcvt_keeps h ..
  | ldg => exact execLdg_keeps h ..
  | stg => exact execStg_keeps h ..
  | ldl => exact execLdl_keeps h ..
  | stl => exact execStl_keeps h ..
  | ldk => exact execLdk_keeps h ..
  | atomg => exact execAtomg_keeps h ..
  | atoml => exact execAtoml_keeps h ..
  | red => exact execRed_keeps h ..
  | fence => exact execFence_keeps h ..
  | chunk => exact execChunk_keeps h ..
  | pfg => exact execPfg_keeps h ..
  | mwait => exact execMwait_keeps h ..
  | kick => exact execKick_keeps h ..
  | binit => exact execBinit_keeps h ..
  | arrive => exact execArrive_keeps h ..
  | bexp => exact execBexp_keeps h ..
  | btest => exact execBtest_keeps h ..
  | bwait => exact execBwait_keeps h ..
  | prsv => exact execPrsv_keeps h ..
  | ctak => exact execCtak_keeps h ..
  | pcmt => exact execPcmt_keeps h ..
  | crel => exact execCrel_keeps h ..
  | pstat => exact execPstat_keeps h ..
  | launch => exact execLaunch_keeps h ..
  | setfmt => exact execSetfmt_keeps h ..
  | csrw => exact execCsrw_keeps h ..
  | gname => exact execGname_keeps h ..
  | arm => exact execArm_keeps h ..
  | armif => exact execArmif_keeps h ..
  | regput => exact execRegput_keeps h ..
  | holdq => exact execHoldq_keeps h ..
  | rld => exact execRld_keeps h ..
  | rst => exact execRst_keeps h ..
  | ratom => exact execRatom_keeps h ..
  | rred => exact execRred_keeps h ..
  | tfence => exact execTfence_keeps h ..
  | phint => exact execPhint_keeps h ..
  | pmcr => exact execPmcr_keeps h ..
  | rcpdef => exact execRcpdef_keeps h ..
  | rseal => exact execRseal_keeps h ..
  | rdrop => exact execRdrop_keeps h ..
  | rpin => exact execRpin_keeps h ..
  | runpin => exact execRunpin_keeps h ..
  | bra => exact execBra_keeps h ..
  | brd => exact execBrd_keeps h ..
  | join => exact execJoin_keeps h ..
  | loop => exact execLoop_keeps h ..
  | call => exact execCall_keeps h ..
  | ret => exact execRet_keeps h ..
  | exit => exact execExit_keeps h ..
  | nop => exact execNop_keeps h ..
  | yield => exact execYield_keeps h ..
  | trap => exact execTrap_keeps h ..
  | rett => exact execRett_keeps h ..
  | bkpt => exact execBkpt_keeps h ..
  | sleep => exact execSleep_keeps h ..
  | issueSelect => exact execIssueSelect_keeps h ..
  | loadComplete => exact execLoadComplete_keeps h ..
  | chunkCommit => exact execChunkCommit_keeps h ..
  | streamStoreApply => exact execStreamStoreApply_keeps h ..
  | reductionApply => exact execReductionApply_keeps h ..
  | mwaitResume => exact execMwaitResume_keeps h ..
  | sleepExpire => exact execSleepExpire_keeps h ..
  | pageWalkComplete => exact execPageWalkComplete_keeps h ..
  | l2Evict => exact execL2Evict_keeps h ..
  | matrixDispatch => exact execMatrixDispatch_keeps h ..
  | matrixComplete => exact execMatrixComplete_keeps h ..
  | mstrpPairDiscard => exact execMstrpPairDiscard_keeps h ..
  | recordFetch => exact execRecordFetch_keeps h ..
  | instanceStart => exact execInstanceStart_keeps h ..
  | sectorLand => exact execSectorLand_keeps h ..
  | instanceComplete => exact execInstanceComplete_keeps h ..
  | pcmtTakeEffect => exact execPcmtTakeEffect_keeps h ..
  | crelTakeEffect => exact execCrelTakeEffect_keeps h ..
  | throttleRelay => exact execThrottleRelay_keeps h ..
  | crewExit => exact execCrewExit_keeps h ..
  | sinkArrival => exact execSinkArrival_keeps h ..
  | balancerSample => exact execBalancerSample_keeps h ..
  | planRevisionPublish => exact execPlanRevisionPublish_keeps h ..
  | planRevisionApply => exact execPlanRevisionApply_keeps h ..
  | shadowProbe => exact execShadowProbe_keeps h ..
  | deadlockDeclare => exact execDeadlockDeclare_keeps h ..
  | forcedDrainTimeout => exact execForcedDrainTimeout_keeps h ..
  | qtailWrite => exact execQtailWrite_keepsOrder h ..
  | qcfgWrite => exact execQcfgWrite_keepsOrder h ..
  | registerWrite => exact execRegisterWrite_keepsOrder h ..
  | launchPacket => exact execLaunchPacket_keeps h ..
  | drainPacket => exact execDrainPacket_keeps h ..
  | invalidatePacket => exact execInvalidatePacket_keeps h ..
  | invalidationComplete => exact execInvalidationComplete_keeps h ..
  | ageTick => exact execAgeTick_keeps h ..
  | launchSelect => exact execLaunchSelect_keeps h ..
  | namedCrewStart => exact execNamedCrewStart_keeps h ..
  | hintDeadline => exact execHintDeadline_keeps h ..
  | saveComplete => exact execSaveComplete_keeps h ..
  | restore => exact execRestore_keeps h ..
  | deliveryArrive => exact execDeliveryArrive_keeps h ..
  | deliveryLand => exact execDeliveryLand_keeps h ..
  | deliveryResend => exact execDeliveryResend_keeps h ..
  | deliveryAck => exact execDeliveryAck_keeps h ..
  | nameRelease => exact execNameRelease_keeps h ..
  | holdWatchdog => exact execHoldWatchdog_keeps h ..
  | recomputeStart => exact execRecomputeStart_keeps h ..
  | recomputeComplete => exact execRecomputeComplete_keeps h ..
  | recomputeFail => exact execRecomputeFail_keeps h ..
  | sealedTileError => exact execSealedTileError_keeps h ..
  | softError => exact execSoftError_keeps h ..
  | fabricPacketReceive => exact execFabricPacketReceive_keeps h ..
  | e2eTimeout => exact execE2eTimeout_keeps h ..
  | e2eAck => exact execE2eAck_keeps h ..
  | routeDetour => exact execRouteDetour_keeps h ..
  | linkTrain => exact execLinkTrain_keeps h ..
  | hostWindowWrite => exact execHostWindowWrite_keepsOrder h ..
  | hostWindowRead => exact execHostWindowRead_keeps h ..
  | createContext => exact execCreateContext_keeps h ..
  | teardown => exact execTeardown_keeps h ..
  | writeCcb => exact execWriteCcb_keeps h ..
  | setQuota => exact execSetQuota_keeps h ..
  | bindPeer => exact execBindPeer_keeps h ..
  | bindTenant => exact execBindTenant_keeps h ..
  | readCounter => exact execReadCounter_keeps h ..
  | updateFirmware => exact execUpdateFirmware_keeps h ..
  | lifecycleToken => exact execLifecycleToken_keeps h ..
  | thermalSample => exact execThermalSample_keeps h ..
  | stepFall => exact execStepFall_keeps h ..
  | clockStepChange => exact execClockStepChange_keeps h ..
  | lynxRestart => exact execLynxRestart_keeps h ..
  | powerGood => exact execPowerGood_keeps h ..
  | voltageOutOfRange => exact execVoltageOutOfRange_keeps h ..
  | wipeComplete => exact execWipeComplete_keeps h ..
  | storeComplete => exact execStoreComplete_keeps h ..
  | badCommand => exact execBadCommand_keeps h ..

theorem issueMe_keeps : KeepsOrder o (issueMe s) := by
  unfold issueMe
  split
  · split
    · simp [h]
    · split
      · exact exec_keeps h _
      · exact undecoded_keeps h
  · simp [h]

theorem runEvent_keeps (e : Instr) : KeepsOrder o (runEvent e s) := by
  unfold runEvent
  split
  · exact exec_keeps h e
  · simp [h]

theorem act_keeps (a : Action) : KeepsOrder o (act a s) := by
  cases a with
  | event e => exact runEvent_keeps h e
  | issue k => exact keepsOrder_ite (issueMe_keeps (by simp [h])) (by simp [h])
  | fetch | home | pass | time | barRead | buffer | replay | farLink => simp [act, h]

theorem idleStep_keeps : KeepsOrder o (idleStep s) := by
  unfold idleStep
  split
  · exact exec_keeps h _
  · simp only []
    split
    · simp [h]
    · next a _ =>
      have ha : KeepsOrder o (act a { s with turn := s.turn + 1 }) := act_keeps (by simp [h]) a
      split
      · next t he =>
        rw [he, keepsOrder_next] at ha
        simp [ha]
      · exact ha

theorem ownStep_keeps : KeepsOrder o (ownStep s) := keepsOrder_ite (issueMe_keeps h) (idleStep_keeps h)

theorem step_keeps : KeepsOrder o (step s) := by
  unfold step
  split
  · exact ownStep_keeps h
  · exact act_keeps (by simp [h]) _

end

/-- Settles O33: every operation of the model writes the two tables at a key, maps them entry by entry or, at a reset or a wipe, empties or filters them. -/
theorem tablesKept : Obligations.TablesKept := by
  intro s t h
  have kept := (step_keeps (NoWorse.refl s.order)).noWorse t h
  exact ⟨kept.groups, kept.cores⟩

end Sys2Proof.Machine
end

section
/-! PROOFS. Numbers and memory by bytes. -/
namespace Sys2Proof.Machine
open Sys2Proof.Claims

theorem leBytes_eq_map (n x : Nat) : leBytes n x = (List.range n).map fun i => BitVec.ofNat 8 (x / 2 ^ (8 * i)) := by
  induction n generalizing x with
  | zero => rfl
  | succ n ih =>
    rw [leBytes, ih, List.range_succ_eq_map, List.map_cons, List.map_map]
    simp only [Function.comp_def, Nat.div_div_eq_div_mul, Nat.mul_succ, Nat.pow_add, Nat.mul_zero, Nat.pow_zero, Nat.div_one, Nat.mul_comm (2 ^ _), Nat.reducePow]

theorem leNat_leBytes (n x : Nat) : leNat (leBytes n x) = x % 256 ^ n := by
  induction n generalizing x with
  | zero => simp [leBytes, leNat, Nat.mod_one]
  | succ n ih =>
    rw [leBytes, leNat, ih, BitVec.toNat_ofNat]
    show x % 256 + 256 * (x / 256 % 256 ^ n) = x % 256 ^ (n + 1)
    rw [Nat.pow_add_one', Nat.mod_mul]

theorem readBytes_eq_map (m : Memory) (a n : Nat) : readBytes m a n = (List.range n).map fun i => readByte m (a + i) := by
  induction n generalizing a with
  | zero => rfl
  | succ n ih =>
    rw [readBytes, ih, List.range_succ_eq_map, List.map_cons, List.map_map]
    simp [Function.comp_def, Nat.add_assoc, Nat.add_comm 1]

theorem readHome_of_good {s : State} (h : s.badSec = []) (pa n : Nat) : readHome s pa n = readBytes s.mem pa n := by
  simp [readHome, readBytes_eq_map, badAt, h]

end Sys2Proof.Machine
end

section
/-! PROOFS. What an access to memory moves beside the bytes themselves: caches and directory, the tiles that lose their lines, watches and the groups that they
wake. -/
namespace Sys2Proof.Machine
open Sys2Proof.Claims

/-- A state without what its caches, its directory and the recipe records of its contexts hold. -/
def State.uncached (s : State) : State := { s with cores := [], ctxs := [], badSec := [], l2 := [], dir := [], bypass := [], fresh := 0 }

section
variable {s t : State} (h : t.uncached = s.uncached)
include h
theorem mem_of_uncached : t.mem = s.mem := (congrArg State.mem h :)
theorem groups_of_uncached : t.groups = s.groups := (congrArg State.groups h :)
theorem funcs_of_uncached : t.funcs = s.funcs := (congrArg State.funcs h :)
theorem reads_of_uncached : t.reads = s.reads := (congrArg State.reads h :)
theorem answers_of_uncached : t.answers = s.answers := (congrArg State.answers h :)
end

@[simp] theorem setDir_uncached (s : State) (line : Nat) (d : Dir) : (setDir s line d).uncached = s.uncached := rfl

@[simp] theorem invalidateL1_uncached (s : State) (line : Nat) (but : Option Nat) : (invalidateL1 s line but).uncached = s.uncached := rfl

@[simp] theorem State.setCtx_uncached (s : State) (k : Nat) (c : Context) : (s.setCtx k c).uncached = s.uncached := rfl

@[simp] theorem loseLines_uncached (lines : List Nat) (s : State) : (loseLines lines s).uncached = s.uncached :=
  foldl_kept State.uncached (f := fun s l => setDir (invalidateL1 s l none) l .uncached) (fun _ _ => rfl) lines s

@[simp] theorem dropTile_uncached (ctx rec' : Nat) (s : State) : (dropTile ctx rec' s).uncached = s.uncached := by
  unfold dropTile
  simp only []
  split
  · rfl
  · exact loseLines_uncached ..

@[simp] theorem evictLine_uncached (line : Nat) (s : State) : (evictLine line s).uncached = s.uncached := by
  unfold evictLine
  split
  · exact dropTile_uncached ..
  · rfl

@[simp] theorem makeRoom_uncached (line : Nat) (s : State) : (makeRoom line s).uncached = s.uncached := by
  unfold makeRoom
  split
  · rfl
  · split
    · exact evictLine_uncached ..
    · rfl

@[simp] theorem touchL2_uncached (s : State) (line : Nat) (dirty : Bool) : (touchL2 s line dirty).uncached = s.uncached := by
  unfold touchL2
  split
  · rfl
  · exact makeRoom_uncached line s

@[simp] theorem noteMiss_uncached (ctx rec' core level : Nat) (who : Option TileUser) (s : State) : (noteMiss ctx rec' core level who s).uncached = s.uncached := by
  unfold noteMiss
  simp only []
  split
  · split <;> rfl
  · rfl

@[simp] theorem passUser_uncached (who : TileUser) (as : Option TileUser) (s : State) : (passUser who as s).uncached = s.uncached := by
  unfold passUser
  split <;> rfl

@[simp] theorem dropUser_uncached (who : TileUser) (s : State) : (dropUser who s).uncached = s.uncached := passUser_uncached ..

theorem dropUser_answerRead_uncached {s t : State} (who : TileUser) (fn : Nat) (abort : Bool) (bs : List Byte) (h : t.uncached = s.uncached) :
    (dropUser who (answerRead fn abort bs t)).uncached = (answerRead fn abort bs s).uncached :=
  (dropUser_uncached ..).trans (congrArg (answerRead fn abort bs) h)

/-- What a write leaves as it was but for the bytes: everything save caches, directory, recipe records, watches, the order of writes and the groups, and of these the
registers. -/
def State.aside (s : State) : State × (Nat → Regs) := ({ s.uncached with groups := [], watches := [], grants := 0 }, fun k => (s.grp k).regs)

section
variable {s t : State} (h : t.aside = s.aside)
include h
theorem mem_of_aside : t.mem = s.mem := congrArg (·.1.mem) h
theorem funcs_of_aside : t.funcs = s.funcs := congrArg (·.1.funcs) h
theorem posted_of_aside : t.posted = s.posted := congrArg (·.1.posted) h
theorem regs_of_aside (k : Nat) : (t.grp k).regs = (s.grp k).regs := congrFun (congrArg Prod.snd h) k
end

theorem aside_of_uncached {s t : State} (h : t.uncached = s.uncached) : t.aside = s.aside :=
  show t.uncached.aside = s.uncached.aside from congrArg State.aside h

@[simp] theorem touchL2_aside (s : State) (line : Nat) (dirty : Bool) : (touchL2 s line dirty).aside = s.aside := aside_of_uncached (touchL2_uncached ..)

@[simp] theorem wakeNext_aside (k : Nat) (s : State) : (wakeNext k s).aside = s.aside := by
  refine Prod.ext rfl (funext fun j => ?_)
  show ((s.setGrp k _).grp j).regs = (s.grp j).regs
  rw [State.grp_setGrp]
  split
  · next h => rw [h]
  · rfl

@[simp] theorem fireWatch_aside (line : Nat) (s : State) : (fireWatch line s).aside = s.aside := by
  refine foldl_kept State.aside (fun t w => ?_) _ { s with watches := _ }
  simp only []
  split
  · exact wakeNext_aside ..
  · rfl

theorem settleArrived_of_noneArrived {s : State} (h : NoneArrived s) (pa n : Nat) : settleArrived pa n s = s := by
  have none : arrivedAt s pa n = [] := by
    rw [arrivedAt, List.filter_eq_nil_iff.mpr fun f hf => by simp [h f hf]]
    rfl
  rw [settleArrived, none]

theorem chunks_of_noChunks {s : State} (h : NoChunks s) {e : Nat × Group} (he : e ∈ s.groups) : e.2.chunks = [] := by
  obtain ⟨hopn, hclo⟩ := h e he
  simp [Group.chunks, hopn, hclo]

theorem broadcast_of_noChunks {s : State} (h : NoChunks s) (k : Nat) (keys : List Key) : broadcast k keys s = s := by
  unfold broadcast
  suffices ∀ l : List (Nat × Group), (∀ e ∈ l, e.2.chunks = []) → l.foldl _ s = s from this _ fun e he => chunks_of_noChunks h he
  intro l hl
  induction l with
  | nil => rfl
  | cons e l ih => simpa [hl e] using ih fun x hx => hl x (List.mem_cons_of_mem _ hx)

theorem heldByReserved_of_noChunks {s : State} (h : NoChunks s) (k : Nat) (mine : Option Nat) (keys : List Key) (core : Nat) (bytes : List Nat) :
    heldByReserved s k mine keys core bytes = false := by
  rw [heldByReserved, List.any_eq_false]
  intro e he
  simp [chunks_of_noChunks h he]

/-- A point write that no chunk has read ahead of and no half of a reduction precedes leaves its bytes, and otherwise what a write leaves. -/
theorem pointGlobal_aside {s : State} (hc : NoChunks s) (ha : NoneArrived s) (k pa : Nat) (bs : List Byte) :
    (pointGlobal k pa bs s).aside = (writeGlobal s pa bs).aside := by
  have fired : ∀ (l : List Nat) (t : State), (l.foldl (fun s l => fireWatch l s) t).aside = t.aside := foldl_kept _ fun _ _ => fireWatch_aside ..
  have touched : ∀ (l : List Nat) (t : State), (l.foldl (fun s l => touchL2 (setDir (invalidateL1 s l none) l .uncached) l true) t).aside = t.aside :=
    foldl_kept _ fun _ _ => touchL2_aside ..
  rw [pointGlobal, settleArrived_of_noneArrived ha, broadcast_of_noChunks hc]
  exact (fired _ _).trans (touched _ _)

theorem homeWrite_aside {s : State} (ha : NoneArrived s) (pa : Nat) (bs : List Byte) : (homeWrite pa bs s).aside = (writeGlobal s pa bs).aside := by
  have fired : ∀ (l : List Nat) (t : State), (l.foldl (fun s l => fireWatch l s) t).aside = t.aside := foldl_kept _ fun _ _ => fireWatch_aside ..
  have touched : ∀ (l : List Nat) (t : State), (l.foldl (fun s l => touchL2 s l true) t).aside = t.aside := foldl_kept _ fun _ _ => touchL2_aside ..
  rw [homeWrite, settleArrived_of_noneArrived ha]
  exact (fired _ _).trans (touched _ _)

end Sys2Proof.Machine
end

section
/-! PROOFS. The host's window (R476): a write or a read of one sector, and what the host reads of its BARs (R475, R478). -/
namespace Sys2Proof.Machine
open Sys2Proof.Claims

/-- The state once the host's access has been given its number. -/
def State.numbered (s : State) : State := { s with serial := s.serial + 1 }

@[simp] theorem sectorPieces_nil (n va : Nat) : sectorPieces n va [] = [] := by cases n <;> rfl

theorem sectorPieces_of_fits {va : Nat} {bs : List Byte} (hne : bs ≠ []) (hfit : bs.length ≤ 32 - va % 32) :
    sectorPieces (bs.length + 1) va bs = [(va, bs)] := by
  simp [sectorPieces, hne, List.take_of_length_le hfit, List.drop_of_length_le hfit]

theorem funcCtx_of_live {s : State} {fn ctx : Nat} (h : (s.func fn).ctx = some ctx) (hl : (s.ctx ctx).live = true) : funcCtx s fn = some ctx := by
  simp [funcCtx, h, hl]

theorem funcCtx_of_unbound {s : State} {fn : Nat} (h : (s.func fn).ctx = none) : funcCtx s fn = none := by simp [funcCtx, h]

theorem windowError_winErr (fn : Nat) (s : State) : ((windowError fn s).func fn).winErr = ((s.func fn).winErr + 1) % 2 ^ 64 := by
  simp [windowError, onFunc, State.func]

/-! ### Writes -/

theorem windowHeld_of_noChunks {s : State} (h : NoChunks s) (ctx : Nat) (e : Nat × List Byte) : windowHeld s ctx e = false := by
  unfold windowHeld
  split
  · simp [heldByReserved_of_noChunks h]
  · rfl

theorem windowSector_of_refused {s : State} {fn ctx a : Nat} {bs : List Byte}
    (h : ∀ x, walk s ctx a = .ok x → x.write = false ∨ (tileState s ctx a).refusesWrites = true) : windowSector fn ctx s (a, bs) = windowError fn s := by
  unfold windowSector
  split
  · rfl
  · next x hx => rcases h x hx with hw | ht <;> simp [*]

theorem windowSector_aside {s : State} {fn ctx a : Nat} {bs : List Byte} {x : Xlat} (hx : walk s ctx a = .ok x) (hw : x.write = true)
    (ht : (tileState s ctx a).refusesWrites = false) (hc : NoChunks s) (ha : NoneArrived s) :
    (windowSector fn ctx s (a, bs)).aside = (writeGlobal s (x.phys a) bs).aside := by
  simp only [windowSector, hx, hw, ht, Bool.not_true, Bool.or_self, Bool.false_eq_true, if_false]
  split
  · exact homeWrite_aside ha ..
  · exact pointGlobal_aside hc ha ..

theorem post_of_nothing_posted {s : State} (h : s.posted = []) (x : Posted) :
    post x s = servePost s.numbered { x with id := s.serial } := by
  have hs : ({ s with posted := [], serial := s.serial + 1 } : State) = s.numbered := by rw [State.numbered, ← h]
  simp [post, servePosted, h, hs]

theorem servePost_of_piece {s : State} {fn ctx : Nat} (hp : s.posted = []) (hc : funcCtx s fn = some ctx) (id : Nat) (e : Nat × List Byte) :
    servePost s { id := id, fn := fn, pieces := [e] } =
      if windowHeld s ctx e then { s with posted := [{ id := id, fn := fn, pieces := [e] }] } else windowSector fn ctx s e := by
  by_cases h : windowHeld s ctx e = true <;> simp [servePost, postSectors, hp, hc, h]

/-- A write of one sector, by a function with a live context that has posted nothing. -/
theorem exec_hostWindowWrite_sector {s : State} {fn off ctx : Nat} {bs : List Byte} (hc : funcCtx s fn = some ctx) (hne : bs ≠ [])
    (hfit : bs.length ≤ 32 - windowAddr s fn off % 32) (hlen : off + bs.length ≤ 2 ^ 36) (hp : s.posted = []) :
    exec (.hostWindowWrite fn off bs) s = .next
      (if windowHeld s ctx (windowAddr s fn off, bs) then
        { s with posted := [{ id := s.serial, fn := fn, pieces := [(windowAddr s fn off, bs)] }], serial := s.serial + 1 }
      else windowSector fn ctx s.numbered (windowAddr s fn off, bs)) := by
  show execHostWindowWrite fn off bs s = _
  simp only [execHostWindowWrite, hc, if_neg (Nat.not_lt.mpr hlen), sectorPieces_of_fits hne hfit, post_of_nothing_posted hp]
  exact congrArg Host.Outcome.next (servePost_of_piece (s := s.numbered) hp hc ..)

theorem exec_hostWindowWrite_of_unbound {s : State} {fn : Nat} (h : (s.func fn).ctx = none) (off : Nat) (bs : List Byte) :
    exec (.hostWindowWrite fn off bs) s = .next s := by
  show execHostWindowWrite fn off bs s = _
  simp [execHostWindowWrite, funcCtx_of_unbound h]

/-! ### Reads -/

theorem tileCopy_of_no_tile {s : State} {ctx va : Nat} (h : tileAt s ctx va = none) (pa n : Nat) (who : TileUser) : tileCopy s ctx va pa n who = none := by
  simp [tileCopy, h]

theorem readSector_of_no_tile {s : State} {ctx a : Nat} {x : Xlat} (hx : walk s ctx a = .ok x) (ht : tileAt s ctx a = none)
    (hb : s.badSec = []) (id n : Nat) :
    readSector s id ctx (a, List.replicate n 0) = .ok (some (readBytes s.mem (x.phys a) n), touchL2 s (lineOf (x.phys a)) false) := by
  simp [readSector, hx, remoteTile, ht, readFor, tileCopy_of_no_tile ht, readHome_of_good hb]

theorem readSector_of_error {s : State} {ctx a c : Nat} (h : walk s ctx a = .error c) (id : Nat) (bs : List Byte) :
    readSector s id ctx (a, bs) = .ok (none, s) := by
  simp [readSector, h]

theorem readSector_of_dropped {s : State} {ctx a id c r : Nat} {x : Xlat} {e : Recipe} (hx : walk s ctx a = .ok x) (ht : tileAt s ctx a = some (c, r, e))
    (he : e.state = .dropped) (hu : TileUser.window id ∉ e.users) (bs : List Byte) :
    readSector s id ctx (a, bs) = .error (noteMiss c r e.ocore 0 (some (.window id)) s) := by
  simp [readSector, hx, remoteTile, ht, Recipe.waitsFor, he, hu]

/-- A miss on a dropped tile asks for its recomputation, and is among the accesses that wait for it. -/
theorem noteMiss_of_dropped {s : State} {c r core level : Nat} {e : Recipe} (h : findT (s.ctx c).recipes r = some e) (he : e.state = .dropped)
    (hl : level < 4) (who : TileUser) :
    ∃ e', findT ((noteMiss c r core level (some who) s).ctx c).recipes r = some e' ∧ (core, level) ∈ e'.wants ∧ who ∈ e'.waits := by
  simp only [noteMiss, h, he, State.ctx_setCtx_self, findT_setT_self, beq_self_eq_true, Bool.true_or, if_true]
  refine ⟨_, rfl, ?_, ?_⟩
  · by_cases hw : (core, level) ∈ e.wants <;> simp [hw, hl]
  · by_cases hw : who ∈ e.waits <;> simp [hw]

theorem readSectors_singleton (id ctx : Nat) (e : Nat × List Byte) (s : State) : readSectors id ctx [e] s = readSector s id ctx e := by
  rw [readSectors]
  rcases readSector s id ctx e with t | ⟨_ | bs, t⟩ <;> simp [readSectors]

theorem readSectors_of_fits {va len : Nat} (hpos : 0 < len) (hfit : len ≤ 32 - va % 32) (id ctx : Nat) (s : State) :
    readSectors id ctx (sectorPieces (len + 1) va (List.replicate len 0)) s = readSector s id ctx (va, List.replicate len 0) := by
  have pieces := sectorPieces_of_fits (va := va) (bs := List.replicate len (0 : Byte)) (by simp; omega) (by simpa using hfit)
  rw [List.length_replicate] at pieces
  rw [pieces, readSectors_singleton]

theorem nothing_posted_before {s : State} {r : HostRead} (h : ∀ y ∈ s.posted, y.fn ≠ r.fn) :
    (s.posted.any fun y => y.fn == r.fn && decide (y.id < r.id)) = false := by
  rw [List.any_eq_false]
  intro y hy
  simp [h y hy]

section
variable {s : State} {r : HostRead} {ctx : Nat} (hp : ∀ y ∈ s.posted, y.fn ≠ r.fn) (hr : s.reads = []) (hc : funcCtx s r.fn = some ctx) (hpos : 0 < r.len)
  (hfit : r.len ≤ 32 - r.va % 32)

include hp hr hc hpos hfit

/-- A read of one sector, of a function that has nothing posted while no read stands out, is answered with what it finds there. -/
theorem serveRead_of_bytes {bs : List Byte} {t : State} (h : readSector s r.id ctx (r.va, List.replicate r.len 0) = .ok (some bs, t)) :
    serveRead s r = dropUser (.window r.id) (answerRead r.fn false bs t) := by
  simp only [serveRead, hr, hc, nothing_posted_before hp, readSectors_of_fits hpos hfit, h, List.any_nil, Bool.or_self, Bool.false_eq_true, if_false]

theorem serveRead_of_no_page {t : State} (h : readSector s r.id ctx (r.va, List.replicate r.len 0) = .ok (none, t)) :
    serveRead s r = dropUser (.window r.id) (answerRead r.fn true (List.replicate r.len 255) (windowError r.fn t)) := by
  simp only [serveRead, hr, hc, nothing_posted_before hp, readSectors_of_fits hpos hfit, h, List.any_nil, Bool.or_self, Bool.false_eq_true, if_false]

theorem serveRead_of_wait {t : State} (h : readSector s r.id ctx (r.va, List.replicate r.len 0) = .error t) :
    serveRead s r = { t with reads := t.reads ++ [r] } := by
  simp only [serveRead, hr, hc, nothing_posted_before hp, readSectors_of_fits hpos hfit, h, List.any_nil, Bool.or_self, Bool.false_eq_true, if_false]

end

/-- A read of one sector, by a function with a live context while no read stands out, is served at once. -/
theorem exec_hostWindowRead_of_ctx {s : State} {fn off ctx len : Nat} (hc : funcCtx s fn = some ctx) (hlen : off + len ≤ 2 ^ 36) (hr : s.reads = []) :
    exec (.hostWindowRead fn off len) s =
      .next (serveRead s.numbered { id := s.serial, fn := fn, va := windowAddr s fn off, len := len }) := by
  show execHostWindowRead fn off len s = _
  have hs : ({ s with reads := [], serial := s.serial + 1 } : State) = s.numbered := by rw [State.numbered, ← hr]
  simp only [execHostWindowRead, hc, if_neg (Nat.not_lt.mpr hlen), serveReads, hr, hs, List.nil_append, List.foldl_cons, List.foldl_nil]

theorem exec_hostWindowRead_of_unbound {s : State} {fn : Nat} (h : (s.func fn).ctx = none) (off len : Nat) :
    exec (.hostWindowRead fn off len) s = .next (answerRead fn false (List.replicate len 0) s) := by
  show execHostWindowRead fn off len s = _
  simp [execHostWindowRead, funcCtx_of_unbound h]

/-! ### The BARs -/

/-- The word that stands at an offset of eight bytes is what the host reads there. -/
theorem barWord_of_word {s : State} {fn bar off w : Nat} (hoff : off % 8 = 0) (hw : w < 2 ^ 64)
    (h : ∀ i < 8, (if bar = 0 then queueWord s fn ((off + i) / 4096) ((off + i) % 4096 / 8) else mailboxWord s fn ((off + i) / 8)) = some w) :
    barWord s fn bar off = w := by
  have bytes : (List.range 8).map (fun i => barByte s fn bar (off + i)) = leBytes 8 w := by
    rw [leBytes_eq_map]
    refine List.map_congr_left fun i hi => ?_
    have hi := List.mem_range.mp hi
    rw [barByte, h i hi, show (off + i) % 8 = i by omega]
  rw [barWord, bytes, leNat_leBytes, Nat.mod_eq_of_lt (by simpa using hw)]

theorem barWord_mailbox {s : State} {fn n w : Nat} (hw : w < 2 ^ 64) (h : mailboxWord s fn n = some w) : barWord s fn 2 (8 * n) = w := by
  refine barWord_of_word (by omega) hw fun i hi => ?_
  rw [if_neg (by decide), show (8 * n + i) / 8 = n by omega, h]

theorem barWord_queue {s : State} {fn page n w : Nat} (hn : n < 512) (hw : w < 2 ^ 64) (h : queueWord s fn page n = some w) :
    barWord s fn 0 (4096 * page + 8 * n) = w := by
  refine barWord_of_word (by omega) hw fun i hi => ?_
  rw [if_pos rfl, show (4096 * page + 8 * n + i) / 4096 = page by omega, show (4096 * page + 8 * n + i) % 4096 / 8 = n by omega, h]

theorem Func.mstat_lt (f : Func) : f.mstat < 2 ^ 64 := by
  have hcode := f.code.isLt
  have hres := f.result.isLt
  have hbusy : b2n f.busy ≤ 1 := by cases f.busy <;> decide
  rw [Func.mstat]
  omega

/-- The first and the third word of a queue's page: its base, and its head over its tail. -/
theorem barWords_of_queue {s : State} {fn page q : Nat} (h : queueAt s fn page = some q) :
    barWord s fn 0 (4096 * page) = (s.queue q).qbase.toNat ∧
      barWord s fn 0 (4096 * page + 16) = (s.queue q).qhead.toNat * 2 ^ 32 + (s.queue q).qtail.toNat := by
  have hhead := (s.queue q).qhead.isLt
  have htail := (s.queue q).qtail.isLt
  exact ⟨barWord_queue (n := 0) (by decide) (s.queue q).qbase.isLt (by simp only [queueWord, h]),
    barWord_queue (n := 2) (by decide) (by omega) (by simp only [queueWord, h])⟩

theorem barByte_of_no_queue {s : State} {fn off : Nat} (h : queueAt s fn (off / 4096) = none) : barByte s fn 0 off = 0 := by
  simp [barByte, queueWord, h]

/-- Settles O55. An access of one sector comes down to what that sector does, by the case of its page and of the tile on it. What a write stirs beside its bytes,
and a read beside its answer, are caches, tiles, watches and groups that wake; the BARs read as the words of their registers, byte by byte. -/
theorem hostWindow : Obligations.HostWindow := by
  unfold Obligations.HostWindow
  intro s fn off
  refine ⟨fun ctx hctx hlive => ?_, fun hctx bs len => ⟨exec_hostWindowWrite_of_unbound hctx off bs, exec_hostWindowRead_of_unbound hctx off len⟩,
    barWord_mailbox (n := 17) (Func.mstat_lt _) rfl, barWord_mailbox (n := 32) (BitVec.isLt _) rfl, fun page q hq => barWords_of_queue hq, barByte_of_no_queue⟩
  have hc := funcCtx_of_live hctx hlive
  refine ⟨fun bs hne hfit hlen hp hno => ⟨fun x hx hw ht ha => ?_, fun href => ?_⟩, fun bs hne hfit hlen hp hheld => ?_, fun len hpos hfit hlen hr hp => ?_⟩
  · have write := exec_hostWindowWrite_sector hc hne hfit hlen hp
    have aside := windowSector_aside (s := s.numbered) (fn := fn) (bs := bs) hx hw ht hno ha
    rw [windowHeld_of_noChunks hno, if_neg Bool.false_ne_true] at write
    exact ⟨_, write, mem_of_aside aside, (regs_of_aside aside :), (funcs_of_aside aside :), (posted_of_aside aside).trans hp⟩
  · rw [exec_hostWindowWrite_sector hc hne hfit hlen hp, windowHeld_of_noChunks hno, if_neg Bool.false_ne_true]
    exact congrArg _ (windowSector_of_refused (s := s.numbered) href)
  · rw [exec_hostWindowWrite_sector hc hne hfit hlen hp, windowAddr, if_pos hheld]
  · have read := exec_hostWindowRead_of_ctx hc hlen hr
    refine ⟨fun x hx ht hb => ?_, fun c hx => ?_, fun x c r e hx ht hf he hu => ?_⟩
    · rw [serveRead_of_bytes (s := s.numbered) (r := ⟨s.serial, fn, windowAddr s fn off, len⟩) hp hr hc hpos hfit
        (readSector_of_no_tile (s := s.numbered) hx ht hb s.serial len)] at read
      have answered := dropUser_answerRead_uncached (.window s.serial) fn false (readBytes s.mem (x.phys (windowAddr s fn off)) len)
        (touchL2_uncached s.numbered (lineOf (x.phys (windowAddr s fn off))) false)
      exact ⟨_, read, (answers_of_uncached answered :), (reads_of_uncached answered).trans hr, (mem_of_uncached answered :), (groups_of_uncached answered :)⟩
    · rw [serveRead_of_no_page (s := s.numbered) (r := ⟨s.serial, fn, windowAddr s fn off, len⟩) hp hr hc hpos hfit
        (readSector_of_error (s := s.numbered) hx s.serial _)] at read
      have answered := dropUser_uncached (.window s.serial) (answerRead fn true (List.replicate len 0xFF) (windowError fn s.numbered))
      refine ⟨_, read, (answers_of_uncached answered :), ?_, (mem_of_uncached answered :)⟩
      rw [State.func, funcs_of_uncached answered]
      exact windowError_winErr fn s.numbered
    · rw [serveRead_of_wait (s := s.numbered) (r := ⟨s.serial, fn, windowAddr s fn off, len⟩) hp hr hc hpos hfit
        (readSector_of_dropped (s := s.numbered) hx ht he hu _)] at read
      have missed := noteMiss_uncached c r e.ocore 0 (some (.window s.serial)) s.numbered
      obtain ⟨e', hf', hwants, hwaits⟩ := noteMiss_of_dropped (s := s.numbered) hf he (core := e.ocore) (by decide : 0 < 4) (.window s.serial)
      have reads := (reads_of_uncached missed).trans hr
      exact ⟨_, e', read, (answers_of_uncached missed :), congrArg (· ++ [_]) reads, hf', hwants, hwaits, (mem_of_uncached missed :),
        (groups_of_uncached missed :)⟩

end Sys2Proof.Machine
end

section
/-! PROOFS. Floating-point instructions (R140 to R155): the operands as an instruction finds them, and what those that run as `floatOp` or `compareOp` write. -/
namespace Sys2Proof.Machine
open Sys2Proof.Claims

/-! ### Operands -/

@[simp] theorem enteredGroup_f32 (i : Instr) (s : State) (r : Reg) (t : Nat) : (enteredGroup i s).f32 r t = s.me.f32 r t := by
  simp [Group.f32]

@[simp] theorem enteredGroup_immF32 (i : Instr) (s : State) (imm : Word) : (enteredGroup i s).immF32 imm = s.me.immF32 imm := by
  simp [Group.immF32]

@[simp] theorem enteredGroup_fsr (i : Instr) (s : State) : (enteredGroup i s).fsr = s.me.fsr := by simp [Group.fsr]

@[simp] theorem enteredGroup_mode (i : Instr) (s : State) (r : Rnd) : (enteredGroup i s).mode r = s.me.mode r := by simp [Group.mode]

@[simp] theorem enteredGroup_half (i : Instr) (s : State) (ty : HType) (r : Reg) (t h : Nat) :
    (enteredGroup i s).half ty r t h = s.me.half ty r t h := by
  simp [Group.half]

@[simp] theorem enteredGroup_convertElem (i : Instr) (s : State) (d a : Reg) (dst src : Elem) (outp inp : BitVec 4) (r : Rnd) (t : Nat) :
    convertElem (enteredGroup i s) d a dst src outp inp r t = convertElem s.me d a dst src outp inp r t := by
  simp [convertElem]

/-! ### Vector results with flags -/

/-- The results of a row, by thread. -/
def rowResults (row : Option FloatRow) : Nat → FRes := (row.map fun x => x.2.2).getD fun _ => (0, 0)

/-- An instruction that runs as `floatOp` on the results of a table's row writes the row, if the table reads nothing that the opening of a chunk changes. -/
theorem writesFloat_of_row {table : Group → Instr → Option FloatRow} {i : Instr} {s : State} {row : FloatRow} (he : Enters i (fun _ => 0) s)
    (hrow : table s.me i = some row) (hsame : table (enteredGroup i s) i = table s.me i)
    (hexec : exec i s = floatOp i row.1 row.2.1 (fun g => rowResults (table g i)) s) :
    WritesFloat i s (raised i s row.2.2) row.1 row.2.1 fun t => BitVec.ofNat 32 (row.2.2 t).1 := by
  have answer := hexec.trans (floatOp_enters he (congrArg rowResults hsame))
  rw [hrow, show rowResults (some row) = row.2.2 from rfl] at answer
  unfold WritesFloat
  split <;> rename_i hv <;> rw [hv] at answer
  · exact ⟨computes_retire rfl answer, writeVec_keeps hv⟩
  · exact answer

theorem floatRow_enteredGroup (i : Instr) (s : State) : floatRow (enteredGroup i s) i = floatRow s.me i := by
  unfold floatRow
  split <;> simp

theorem packedRow_enteredGroup (i : Instr) (s : State) : packedRow (enteredGroup i s) i = packedRow s.me i := by
  unfold packedRow
  split <;> simp

theorem exec_of_floatRow {g : Group} {i : Instr} {row : FloatRow} (h : floatRow g i = some row) (s : State) :
    exec i s = floatOp i row.1 row.2.1 (fun g => rowResults (floatRow g i)) s := by
  unfold floatRow at h
  split at h <;> cases h <;> rfl

theorem exec_of_packedRow {g : Group} {i : Instr} {row : FloatRow} (h : packedRow g i = some row) (s : State) :
    exec i s = floatOp i row.1 row.2.1 (fun g => rowResults (packedRow g i)) s := by
  unfold packedRow at h
  split at h <;> cases h <;> rfl

/-! ### Comparisons -/

theorem getLsbD_oneThread {j t : Nat} (ht : t < 32) : (oneThread j).getLsbD t = decide (j = t) := by
  rw [oneThread, BitVec.getLsbD_ofNat, Nat.testBit_two_pow]
  simp [ht]

theorem getLsbD_foldl_oneThread (p : Nat → Bool) {t : Nat} (ht : t < 32) (l : List Nat) (m : Mask) :
    (l.foldl (fun m k => if p k then m ||| oneThread k else m) m).getLsbD t = (m.getLsbD t || (decide (t ∈ l) && p t)) := by
  induction l generalizing m with
  | nil => simp
  | cons k l ih =>
    rw [List.foldl_cons, ih]
    by_cases hk : k = t
    · subst hk
      cases hp : p k <;> simp [getLsbD_oneThread ht]
    · cases p k <;> simp [getLsbD_oneThread ht, hk, Ne.symm hk]

theorem getLsbD_maskOf (p : Nat → Bool) {t : Nat} (ht : t < 32) : (maskOf p).getLsbD t = p t := by
  rw [maskOf, getLsbD_foldl_oneThread p ht]
  simp [ht]

theorem getLsbD_predBits (g : Group) (S : Mask) (b : Nat → Bool) {t : Nat} (ht : t < 32) :
    (predBits g S b).getLsbD t = b (if g.uniMark then lowest S else t) := by
  unfold predBits
  cases g.uniMark with
  | false => exact getLsbD_maskOf b ht
  | true =>
    show (if b (lowest S) = true then BitVec.allOnes 32 else 0#32).getLsbD t = b (lowest S)
    cases b (lowest S) with
    | false => exact BitVec.getLsbD_zero
    | true => exact (BitVec.getLsbD_allOnes ..).trans (decide_eq_true ht)

theorem getLsbD_readPred_writePred (ps : Tab Mask) (p q : Pred) (b S : Mask) {t : Nat} (ht : t < 32) :
    (readPred (writePred ps p b S) q).getLsbD t = if q = p ∧ q ≠ 7 ∧ S.getLsbD t then b.getLsbD t else (readPred ps q).getLsbD t := by
  by_cases hp : p = 7
  · have : ¬ (q = p ∧ q ≠ 7 ∧ S.getLsbD t) := fun h => h.2.1 (h.1.trans hp)
    rw [if_neg this, writePred, if_pos hp]
  rw [writePred, if_neg hp]
  by_cases hq : q = p
  · subst hq
    rw [readPred, if_neg hp, getT_setT_self]
    cases hS : S.getLsbD t with
    | false =>
      rw [BitVec.getLsbD_eq_getElem ht] at hS
      simp [hS, ht]
    | true => rw [if_pos ⟨rfl, hp, rfl⟩]; simp [hS]
  · have hkey : q.toNat ≠ p.toNat := fun h => hq (BitVec.eq_of_toNat_eq h)
    rw [if_neg fun h => hq h.1, readPred, getT_setT_ne _ _ _ hkey, readPred]

/-- An instruction that runs as `compareOp` leaves its bits in the predicate, and what the comparisons raise in flg (R148, R149). -/
theorem computes_of_compareOp {i : Instr} {p q : Pred} {c : FCond} {k : Comb} {f : Group → Nat → FVal × FVal} {s : State}
    (he : Enters i (fun _ => 0) s) (hexec : exec i s = compareOp i p c k q f s) (hf : f (enteredGroup i s) = f s.me) :
    let res := fun t => compareFloat c (f s.me t).1 (f s.me t).2
    ∃ ps, Computes i s { s.me.regs with p := ps, flg := s.me.regs.flg ||| raised i s fun t => (0, (res t).2) } ∧
      ∀ q' t, t < 32 → (readPred ps q').getLsbD t =
        if q' = p ∧ q' ≠ 7 ∧ (activeFor i s).getLsbD t then
          let t' := if s.me.uniMark then lowest (activeFor i s) else t
          combine k (res t').1 ((readPred s.me.regs.p q).getLsbD t')
        else (readPred s.me.regs.p q').getLsbD t := by
  refine ⟨_, computes_retire rfl (hexec.trans (compareOp_enters he hf)), fun q' t ht => ?_⟩
  rw [getLsbD_readPred_writePred _ _ _ _ _ ht, getLsbD_predBits _ _ _ ht]

theorem floatCompareResults : FloatCompareResults := by
  intro i s p q c k x y he hi
  obtain ⟨g, a, b, rfl, rfl, rfl⟩ | ⟨g, a, imm, rfl, rfl, rfl, rfl⟩ := hi
  · exact computes_of_compareOp (f := fun g t => (g.f32 a t, g.f32 b t)) he rfl (by simp)
  · exact computes_of_compareOp (f := fun g t => (g.f32 a t, g.immF32 imm)) he rfl (by simp)

/-- Settles O6. Every row of the tables is what `floatOp` runs on; a comparison is a write of a predicate with flags. -/
theorem floatingPointResults : Obligations.FloatingPointResults :=
  ⟨fun _ s _ he h => writesFloat_of_row he h (floatRow_enteredGroup _ s) (exec_of_floatRow h s),
    fun _ s _ he h => writesFloat_of_row he h (packedRow_enteredGroup _ s) (exec_of_packedRow h s), floatCompareResults⟩

end Sys2Proof.Machine
end

section
/-! PROOFS. QCVT (R156 to R158): registers written one after another, and what a row quantised leaves. -/
namespace Sys2Proof.Machine
open Sys2Proof.Claims

@[simp] theorem enteredGroup_upair (i : Instr) (s : State) (r : Reg) : (enteredGroup i s).upair r = s.me.upair r := by
  simp [Group.upair]

@[simp] theorem enteredGroup_quantise (i : Instr) (s : State) (r : Rnd) (x : Nat → FVal) (sc : FVal) (m : Word64) :
    quantise (enteredGroup i s) r x sc m = quantise s.me r x sc m := by
  funext ch
  simp [quantise]

/-! ### Registers written one after another -/

theorem KeepsRegs.of_subset {v w : Tab Word} {ds es : List Reg} (h : KeepsRegs v w ds) (hsub : ds ⊆ es) : KeepsRegs v w es :=
  fun r hr i hi => h r (fun hd => hr (hsub hd)) i hi

theorem KeepsRegs.trans {u v w : Tab Word} {ds : List Reg} (h : KeepsRegs u v ds) (h' : KeepsRegs v w ds) : KeepsRegs u w ds :=
  fun r hr i hi => (h' r hr i hi).trans (h r hr i hi)

/-- Writing registers reads of a group its shapes and its registers, and leaves the rest of it. -/
theorem writeRegs_congr {g h : Group} (hplace : h.place = g.place) (hregs : h.regs = g.regs) (S : Mask) (fit : Bool)
    (l : List (Reg × (Nat → Word))) :
    writeRegs h S fit l = (writeRegs g S fit l).map fun g' => { h with regs := g'.regs } := by
  induction l generalizing g h with
  | nil => simp [writeRegs, Except.map, ← hregs]
  | cons e l ih =>
    obtain ⟨d, r⟩ := e
    have hv : writeVec h.place.shape h.regs.v d r S fit = writeVec g.place.shape g.regs.v d r S fit := by rw [hplace, hregs]
    rw [writeRegs, writeRegs, hv]
    cases writeVec g.place.shape g.regs.v d r S fit with
    | none => rfl
    | some v => exact ih (g := { g with regs := { g.regs with v := v } }) hplace (by rw [hregs])

/-- Writing registers changes the vector registers it names alone. -/
theorem writeRegs_keeps {g g' : Group} {S : Mask} {fit : Bool} {l : List (Reg × (Nat → Word))} (h : writeRegs g S fit l = .ok g') :
    g'.regs = { g.regs with v := g'.regs.v } ∧ KeepsRegs g.regs.v g'.regs.v (l.map Prod.fst) := by
  induction l generalizing g with
  | nil => cases h; exact ⟨rfl, fun _ _ _ _ => rfl⟩
  | cons e l ih =>
    obtain ⟨d, r⟩ := e
    rw [writeRegs] at h
    cases hv : writeVec g.place.shape g.regs.v d r S fit with
    | none => rw [hv] at h; cases h
    | some v =>
      rw [hv] at h
      obtain ⟨hregs, hkeeps⟩ := ih h
      exact ⟨hregs, ((writeVec_keeps hv).of_subset (by simp)).trans (hkeeps.of_subset (by simp))⟩

/-! ### The instruction -/

/-- Settles O3. The instruction computes on the group that it finds, whose registers and shapes are those of the state; the rest is what `writeRegs` leaves. -/
theorem quantisationResults : Obligations.QuantisationResults := by
  unfold Obligations.QuantisationResults
  intro gd d a b c upd r fit s he i f x old map code stream outs maps
  have answer : exec i s = match writeRegs (enteredGroup i s) (BitVec.allOnes 32) fit (outs ++ maps) with
      | .error e => .next (shapeFault e (activeFor i s) (entered i s))
      | .ok g' => .next (retire (useIn i s) (activeFor i s) (useIn i s).writes ((entered i s).setMe
          (raiseFlags ((List.range 128).foldl (fun w ch => w ||| (code ch).2) 0) g'))) := by
    show execQcvt gd d a b c upd r fit s = _
    unfold execQcvt
    rw [groupOp_enters he]
    simp only [entered_me, enteredGroup_regs, enteredGroup_f32, enteredGroup_upair, enteredGroup_quantise, Bool.and_eq_true,
      List.foldr_map, List.foldl_map]
    rfl
  rw [writeRegs_congr (enteredGroup_place i s) (enteredGroup_regs i s)] at answer
  cases hw : writeRegs s.me (BitVec.allOnes 32) fit (outs ++ maps) with
  | error e => rw [hw] at answer; exact answer
  | ok g' =>
    obtain ⟨hregs, hkeeps⟩ := writeRegs_keeps hw
    rw [hw] at answer
    have hflags (w : Word) : raiseFlags w { enteredGroup i s with regs := g'.regs } =
        { enteredGroup i s with regs := { s.me.regs with v := g'.regs.v, flg := s.me.regs.flg ||| w } } := by
      rw [hregs]; rfl
    have named : (outs ++ maps).map Prod.fst = regsFrom d (qcvtRegs f) ++ dupPair f := by
      simp only [outs, maps, dupPair, List.map_append, List.map_map]
      congr 1
      split <;> rfl
    exact ⟨computes_retire (hflags _) answer, named ▸ hkeeps⟩

end Sys2Proof.Machine
end

section
/-! PROOFS. ISSUE_SELECT (R200 to R204): the selection on a lane where nothing issues, and the entry of the group that goes first into its clause. -/
namespace Sys2Proof.Machine
open Sys2Proof.Claims

/-! ### A change of the groups of a list -/

theorem foldl_setGrp_eq (f : Group → Group) (ks : List Nat) (s : State) :
    ks.foldl (fun s k => s.setGrp k (f (s.grp k))) s = { s with groups := (ks.foldl (fun s k => s.setGrp k (f (s.grp k))) s).groups } := by
  induction ks generalizing s with
  | nil => rfl
  | cons k ks ih => exact ih (s.setGrp k (f (s.grp k)))

theorem grp_foldl_setGrp {f : Group → Group} (hf : ∀ g, f (f g) = f g) (ks : List Nat) (s : State) (j : Nat) :
    (ks.foldl (fun s k => s.setGrp k (f (s.grp k))) s).grp j = if j ∈ ks then f (s.grp j) else s.grp j := by
  induction ks generalizing s with
  | nil => rfl
  | cons k ks ih =>
    rw [List.foldl_cons, ih, State.grp_setGrp]
    by_cases hj : j = k
    · simp [hj, hf]
    · simp [hj]

/-! ### The lane and its pick -/

theorem boundaryClose_of_no_chunk {s : State} {k : Nat} (h : (s.grp k).opn = none) : boundaryClose k s = s := by
  simp [boundaryClose, h]

theorem beginSelect_of_no_chunks {s : State} {core lane : Nat} (h : ∀ j ∈ laneGroups s core lane, (s.grp j).opn = none) :
    beginSelect core lane s = s := by
  unfold beginSelect
  generalize laneGroups s core lane = ks at h
  induction ks with
  | nil => rfl
  | cons k ks ih =>
    rw [List.foldl_cons, boundaryClose_of_no_chunk (h k (List.mem_cons_self ..))]
    exact ih fun j hj => h j (List.mem_cons_of_mem _ hj)

theorem laneSelects_of_idle {s : State} {core lane : Nat}
    (hstand : ∀ j ∈ standOn s core lane, (s.grp j).debt = 0 ∧ (s.grp j).idle = 0)
    (hidle : ∀ j ∈ laneGroups s core lane, (s.grp j).status ≠ .issuing)
    (hopen : ∀ j ∈ laneGroups s core lane, ((s.grp j).closeReq && (s.grp j).shut) = false) : laneSelects s core lane = true := by
  have busy : laneBusy s core lane = false := by
    rw [laneBusy, List.any_eq_false]
    exact fun j hj => by simp [hstand j hj]
  have issuing : ((laneGroups s core lane).any fun k => (s.grp k).status == .issuing) = false := by
    rw [List.any_eq_false]
    exact fun j hj => by simpa using hidle j hj
  have shut : laneShut s core lane = false := by
    rw [laneShut, List.any_eq_false]
    exact fun j hj => by simp [hopen j hj]
  rw [laneSelects, busy, issuing, shut]
  rfl

/-- `better` is the order that `GoesFirst` speaks of. -/
theorem better_iff (s : State) (a b : Nat) : better s a b = true ↔
    rank (s.grp b) < rank (s.grp a) ∨ rank (s.grp b) = rank (s.grp a) ∧
      ((s.grp b).w < (s.grp a).w ∨ (s.grp b).w = (s.grp a).w ∧ (s.grp a).place.slot < (s.grp b).place.slot) := by
  simp only [better, Bool.or_eq_true, Bool.and_eq_true, decide_eq_true_eq, beq_iff_eq]
  omega

theorem better_asymm {s : State} {a b : Nat} (h : better s a b = true) : better s b a = false := by
  rw [Bool.eq_false_iff, ne_eq, better_iff]
  rw [better_iff] at h
  omega

theorem pickBest_mem {s : State} {l : List Nat} {k : Nat} (h : pickBest s l = some k) : k ∈ l := by
  induction l generalizing k with
  | nil => cases h
  | cons j l ih =>
    rw [pickBest] at h
    cases hl : pickBest s l with
    | none =>
      rw [hl] at h
      cases h
      exact List.mem_cons_self ..
    | some b =>
      rw [hl] at h
      dsimp only at h
      split at h <;> cases h
      · exact List.mem_cons_of_mem _ (ih hl)
      · exact List.mem_cons_self ..

theorem pickBest_of_best {s : State} {l : List Nat} {k : Nat} (hk : k ∈ l) (h : ∀ j ∈ l, j ≠ k → better s k j = true) :
    pickBest s l = some k := by
  induction l with
  | nil => cases hk
  | cons j l ih =>
    have tail (hk : k ∈ l) : pickBest s l = some k := ih hk fun i hi => h i (List.mem_cons_of_mem _ hi)
    rw [pickBest]
    by_cases hj : j = k
    · subst hj
      cases hl : pickBest s l with
      | none => rfl
      | some b =>
        by_cases hb : b = j
        · simp [hb]
        · simp [better_asymm (h b (List.mem_cons_of_mem _ (pickBest_mem hl)) hb)]
    · rw [tail ((List.mem_cons.mp hk).resolve_left (Ne.symm hj))]
      simp [h j (List.mem_cons_self ..) hj]

theorem selectOn_of_goesFirst {s : State} {core lane k : Nat} (hidle : ∀ j ∈ laneGroups s core lane, (s.grp j).status ≠ .issuing)
    (h : GoesFirst s ((laneGroups s core lane).filter fun j => stallOf s j == none) k) : selectOn s core lane = some k := by
  have ready : ((laneGroups s core lane).filter fun j => (stallOf s j).isNone && (s.grp j).status != .issuing) =
      (laneGroups s core lane).filter fun j => stallOf s j == none :=
    List.filter_congr fun j hj => by cases stallOf s j <;> simp [hidle j hj]
  obtain ⟨hk, hfirst⟩ := h
  rw [selectOn, ready]
  exact pickBest_of_best hk fun j hj hne => (better_iff s k j).mpr (hfirst j hj hne)

/-! ### The entry to the clause -/

section
variable {s t : State} {g h : Group} (hword : fetchWord t = fetchWord s)
include hword

theorem fetchWords_congr (ctx va n : Nat) : fetchWords t ctx va n = fetchWords s ctx va n := by
  induction n generalizing va with
  | zero => rfl
  | succ n ih => rw [fetchWords, fetchWords, hword, ih]

theorem scanBack_congr (ctx pc n : Nat) : scanBack t ctx pc n = scanBack s ctx pc n := by
  induction n generalizing pc with
  | zero => rfl
  | succ n ih => rw [scanBack, scanBack, hword, ih]

/-- Where a group's clause stands depends on the words of memory and on the group's place, program counter, entry and registers alone. -/
theorem locate_congr (hplace : h.place = g.place) (hpc : h.pc = g.pc) (hentry : h.entry = g.entry) (hregs : h.regs = g.regs) :
    locate t h = locate s g := by
  have clause (pc : Nat) : fetchClause t h pc = fetchClause s g pc := by
    simp only [fetchClause, hword, fetchWords_congr hword, fetchFault, clauseFault, fltAt, hplace, hpc, hregs]
  simp only [locate, clause, hword, scanBack_congr hword, fetchFault, clauseFault, fltAt, hplace, hpc, hentry, hregs]
end

theorem fetchClause_base {s : State} {g : Group} {pc : Nat} {c : Clause} (h : fetchClause s g pc = .ok c) : c.base = BitVec.ofNat 48 pc := by
  unfold fetchClause at h
  repeat' split at h
  all_goals cases h
  rfl

/-- A clause found at its header has that header at the program counter: a Suava word stands for its own clause, any other is fetched there. -/
theorem base_of_locate_header {s : State} {g : Group} {c : Clause} (h : locate s g = .ok (c, true)) : c.base = g.pc := by
  unfold locate at h
  dsimp only at h
  repeat' split at h
  all_goals cases h
  · rfl
  · next hc => rw [fetchClause_base hc, BitVec.ofNat_toNat, BitVec.setWidth_eq]

theorem mergeAt_of_not_merges {s : State} {k : Nat} {pc : Pc} (h : mergesAt (s.grp k) pc = false) (n : Nat) : mergeAt k pc n s = s := by
  cases n with
  | zero => rfl
  | succ n =>
    unfold mergesAt at h
    rw [mergeAt]
    cases hs : (s.grp k).regs.stack with
    | nil => rfl
    | cons e es =>
      rw [hs] at h
      simp only [h]
      rfl

/-- The running group as it stands at the first instruction of a clause that it has entered. -/
def Group.atFirst (g : Group) (c : Clause) : Group :=
  { g with clause := some c, pc := c.first, status := .issuing, hold := none, entering := false, held := 0, banked := none, shut := false }

theorem enterClause_of_header {s : State} {c : Clause} (hpend : s.me.pend = none) (hlate : lateOf s s.cur = none)
    (hloc : locate s s.me = .ok (c, true)) (hmerge : mergesAt s.me s.me.pc = false) : enterClause s = s.setMe (s.me.atFirst c) := by
  rw [← base_of_locate_header hloc] at hmerge
  have late : deliverLate s = (s, true) := by rw [deliverLate, hlate]
  unfold enterClause
  dsimp only
  rw [hpend]
  dsimp only
  rw [hloc]
  dsimp only
  rw [if_pos rfl, late]
  simp only [hmerge, Bool.true_or, Bool.and_false, Bool.false_eq_true, if_false, if_true, mergeAt_of_not_merges hmerge, Group.atFirst]

/-! ### The selection -/

theorem endYields_eq (core lane : Nat) (s : State) : endYields core lane s = { s with groups := (endYields core lane s).groups } :=
  foldl_setGrp_eq (fun g => { g with yielded := false }) _ s

theorem grp_endYields (core lane : Nat) (s : State) (j : Nat) :
    (endYields core lane s).grp j = if j ∈ laneGroups s core lane then { s.grp j with yielded := false } else s.grp j :=
  grp_foldl_setGrp (f := fun g => { g with yielded := false }) (fun _ => rfl) _ s j

/-- A lane where nothing issues or holds gives itself to its pick. -/
theorem exec_issueSelect {s : State} {core lane k : Nat} (hsel : laneSelects s core lane = true) (hbegin : beginSelect core lane s = s)
    (hpick : selectOn s core lane = some k) :
    exec (.issueSelect core lane) s =
      .next (enterClause ({ endYields core lane s with cur := k }.setMe { (endYields core lane s).grp k with w := 0, status := .issuing })) := by
  show execIssueSelect core lane s = _
  unfold execIssueSelect
  rw [hsel]
  dsimp only
  rw [hbegin, hpick]
  rfl

/-- Settles O35. The checks of the lane pass and its chunks stay as they are, so the selection picks the group that goes first; what the selection changes of that
group has no part in where its clause stands. -/
theorem laneSelection : Obligations.LaneSelection := by
  unfold Obligations.LaneSelection
  intro s core lane k c ks g hks hstand hfirst hloc hpend hlate hmerge
  have hidle : ∀ j ∈ ks, (s.grp j).status ≠ .issuing := fun j hj => (hks j hj).1
  have hopn : ∀ j ∈ ks, (s.grp j).opn = none := fun j hj => (hks j hj).2.1
  have hshut : ∀ j ∈ ks, ((s.grp j).closeReq && (s.grp j).shut) = false := fun j hj => (hks j hj).2.2
  have hk : k ∈ ks := (List.mem_filter.mp hfirst.1).1
  let e := endYields core lane s
  let g' : Group := { e.grp k with w := 0, status := .issuing }
  let u : State := { e with cur := k }.setMe g'
  have run : exec (.issueSelect core lane) s = .next (enterClause u) :=
    exec_issueSelect (laneSelects_of_idle hstand hidle hshut) (beginSelect_of_no_chunks hopn) (selectOn_of_goesFirst hidle hfirst)
  have he : e = { s with groups := e.groups } := endYields_eq core lane s
  have hu : u = { s with groups := u.groups, cur := k } := congrArg (fun e : State => { e with groups := u.groups, cur := k }) he
  have hme : u.me = g' := State.grp_setGrp_self ..
  have hg' : g' = { g with w := 0, yielded := false, status := .issuing } := by
    simp only [g', e, grp_endYields, g]
    rw [if_pos hk]
  have hword : fetchWord u = fetchWord s := by rw [hu]; rfl
  have hctx (i : Nat) : u.ctx i = s.ctx i := by rw [hu]; rfl
  have enters : enterClause u = u.setMe (u.me.atFirst c) := by
    apply enterClause_of_header
    · rw [hme, hg']; exact hpend
    · show lateOf u k = none
      rw [lateOf, show u.grp k = g' from hme, hctx, hg']; exact hlate
    · rw [hme, locate_congr hword (g := g), hloc] <;> rw [hg']
    · rw [hme, hg']; exact hmerge
  refine ⟨_, run, ?_, ?_, ?_, ?_⟩ <;> rw [enters]
  · rfl
  · show (u.setGrp k (u.me.atFirst c)).grp k = _
    rw [State.grp_setGrp_self, hme, hg']
    rfl
  · intro j hj
    show ((e.setGrp k g').setGrp k (u.me.atFirst c)).grp j = _
    rw [State.grp_setGrp_ne _ _ hj, State.grp_setGrp_ne _ _ hj]
    exact grp_endYields core lane s j
  · exact congrArg (fun e : State => { e with groups := (u.setMe (u.me.atFirst c)).groups, cur := k }) he

end Sys2Proof.Machine
end

section
/-! PROOFS. Crew exits (R293, R415): an exit that lets a waiting save start can take a group back to its checkpoint, so that the registers of other groups do not
stand. -/
namespace Sys2Proof.Machine
open Sys2Proof.Claims

/-! ### A save that waits for the image of an exiting crew's core

Stage 0 stands on the cores 0, 1, 16 and 17 and gives its column of cores 1 and 17 to stage 1 (R312). The save pool has room for one image, which core 1 has taken, so
core 17 waits for its own save (R415). On its partner, core 16, an ended group has left an MSTRP whose partner command has not come (R260). -/

/-- A crew of the donor stage, of one group. -/
def donorCrew (core group : Nat) : Crew :=
  { plan := 0, stage := 0, core := core, index := 0, weight := 1, groups := [group], prod := 0, ctx := 0 }

/-- A plan whose balancer moves the column of cores 1 and 17. -/
def movingPlan : Plan :=
  { ctx := 0, tag := 0, pri := 0, stages := [{ w := 2, h := 2 }, { x := 2, h := 2 }], move := some { donor := 0, recv := 1, cores := [1, 17] } }

/-- A context whose report ring lies at physical address 0x1000 and whose save pool holds the image that core 1 is to write, and no other. -/
def fullPoolContext : Context :=
  { live := true, frames := [(0, 0x40000000)]
    ccb := { rring := 0x40001000, rlog := 4, spool := 0x80000000, spsz := 7, wdog := 1000, hdl := 200, tvec := 0, bkpt := false, tlate := false, ten := false }
    images := [{ id := 0, va := 0x80000000, room := 3293888, plan := 0, stage := 0, core := 1, moved := true }] }

/-- A group of core 17 whose open chunk has read the line of the report ring and has raised a flag. -/
def ringReader : Group :=
  { live := true, place := { core := 17, crew := 2 }, regs := { flg := 1 }, status := .waiting
    opn := some { no := 1, start := 0, ckpt := {}, count := 1, rd := [.glob 32] } }

/-- The MSTRP on core 16 whose partner command has not come. -/
def lonePairCommand : MCmd := { id := 1, op := .mstr true 8 0 0 none, fmt := 0, grp := 3, crew := 3, pc := 0 }

/-- The groups of crew 1, which has ended, of crew 2, which reads the ring, and of crew 3, which has ended with its command pending. The page tables map the
gigabyte from 0x40000000 on to physical address 0. -/
def saveWaits : State :=
  { mem := [(0, 0x01), (8, 0x31)]
    groups := [(1, { live := true, place := { core := 1, crew := 1 } }), (2, ringReader), (3, { live := true, place := { core := 16, crew := 3 }, mcmd := 1 })]
    cores := [(1, { plan := some 0, save := some { since := 0, limit := 200000, full := false, move := true, image := 0 } }),
      (16, { plan := some 0, mat := { queue := [lonePairCommand], pairs := 1 } }), (17, { plan := some 0 })]
    crews := [(1, donorCrew 1 1), (2, donorCrew 17 2), (3, donorCrew 16 3)]
    plans := [(0, movingPlan)]
    ctxs := [(0, fullPoolContext)] }

/-! ### The exit -/

theorem mayExit_saveWaits : mayExit saveWaits 1 (donorCrew 1 1) = true := by decide +kernel

theorem late_saveWaits (x : Nat) : (saveWaits.ctx x).late = [] := by
  show (getT {} [(0, fullPoolContext)] x).late = []
  rw [getT]
  split <;> rfl

/-- The flags of the reader in the state that an execution ends in. -/
def readerFlags : Res → Option Word
  | .next t => some (t.grp 2).regs.flg
  | _ => none

/-- The exit of crew 1 empties core 1, whose image gives its room back; the save of core 17 begins and resets the pair counts, which discards the lone MSTRP of core 16;
its group has ended, so the late fault is written as a report, and that write squashes the chunk that has read the ring. -/
theorem readerFlags_crewExit : readerFlags (exec (.crewExit 1) saveWaits) = some 0 := by decide +kernel

/-- Refutes O43: the registers do not all stand where a save of the crew's core had been requested, for the room of its image may let another save start. In `saveWaits`
the flags of the group that reads the report ring are 1 before the exit of crew 1 and 0 after it. -/
theorem not_crewEvents : ¬ Obligations.CrewEvents := by
  unfold Obligations.CrewEvents
  rintro ⟨exits, -⟩
  obtain ⟨t, -, run, -, -, -, -, -, -, regsKept, -⟩ := exits saveWaits 1 (donorCrew 1 1) movingPlan rfl mayExit_saveWaits rfl
    (by decide) (fun x f hf => by simp [late_saveWaits x] at hf) (by decide) rfl (by decide)
  have kept : (t.grp 2).regs.flg = 1 := congrArg Regs.flg (regsKept 2)
  have lost : some (t.grp 2).regs.flg = some 0 := by
    have after := readerFlags_crewExit
    rwa [run] at after
  rw [kept] at lost
  exact absurd lost (by decide)

end Sys2Proof.Machine
end
